-- ==== Sys2Proof/Word.lean ====
section
/-! DEFINITION. The words of the module: dictionary elements (64 bits, R353), link and record words (40 bits, R11, R7)
and bytes, with the plainest arithmetic on them. -/

namespace Sys2Proof

/-- One dictionary element (R353). -/
abbrev W64 := BitVec 64

/-- A link word, probe word, record word or cycle stamp (R11, R7, R17). -/
abbrev W40 := BitVec 40

/-- One byte of a cell, of a packet or of a register window (R190). -/
abbrev Byte := BitVec 8

end Sys2Proof
end

