-- ==== Sys2Proof/Syntax.lean ====
section
/-! DEFINITION. The commands the module takes: one constructor of `Instr` for each row of spec/opcode_table.json, in the
table's order, with the operands of the write, of the received frame, or of the event. -/

namespace Sys2Proof

/-- The path and caller of a dictionary access (R247, R364, R366): a host function's W-CTL window, a host function's relay,
an open VDP session (by slot), a service core. -/
inductive Via where
  | wctl (f : Fin 1024)
  | relay (f : Fin 1024)
  | vdp (slot : Fin 64)
  | service (core : Fin 4)
  deriving DecidableEq, Repr

/-- Allocation classes, highest first (R296). -/
inductive AllocClass where
  | acquisition | assay | hostStaging | firmware
  deriving DecidableEq, Repr

/-- One request for the pool cells of a packet (R277, R296); no bench: a module request. A firmware request may name the `SERVICE` queue
and the words that its packet is for. -/
structure AllocReq where
  cls : AllocClass
  bench : Option (Fin 1024)
  tile : Fin 16
  cells : Nat
  service : Option (Fin 16384 × List W64) := none
  deriving DecidableEq, Repr

/-- What kind of Ethernet frame arrived (R372). -/
inductive EthFrame where
  | arp | neighbour | icmpEcho | icmp6Echo
  | udp (port : Nat)
  | ptp
  | tagged | fragment | other
  deriving DecidableEq, Repr

/-- What an Announce carries (R447-R449): the clock identity and port number of its sender, the grandmaster's identity, priorities and
quality, the steps to it, and the time properties; `leap` as `LEAP_PENDING` numbers the flags. -/
structure Announce where
  source : BitVec 64 × Nat
  gm : BitVec 64
  prio1 : Nat
  clockClass : Nat
  accuracy : Nat
  variance : Nat
  prio2 : Nat
  steps : Nat
  timeSource : Nat
  utcOffset : Int
  leap : Nat
  ptpTimescale : Bool
  deriving DecidableEq, Repr

/-- What a received PTP message brings (R447, R448): the dataset of an Announce, or the servo offset a Sync gives. -/
inductive PtpMsg where
  | announce (a : Announce)
  | sync (offsetNs : Int)
  | delayReq
  | delayResp
  deriving DecidableEq, Repr

/-- What a port sends when a PTP interval ends (R447). -/
inductive PtpKind where
  | announce | sync | delay
  deriving DecidableEq, Repr

/-- An edge on a TRIG_IO pin: the module time at which it came, and its direction at the land. -/
structure PinEdge where
  t : Nat
  rising : Bool := true
  deriving DecidableEq, Repr

/-- How a host port is reset (R256, R465). -/
inductive PortReset where
  | perst | hot | linkDown
  deriving DecidableEq, Repr

/-- Whose pointer copies disagree (R300, R301). -/
inductive PtrTarget where
  | queue (q : Fin 16384)
  | storeList (stream : Fin 16384)
  deriving DecidableEq, Repr

/-- One access of a pseudo-channel: the bad symbols that the check symbols of its bursts show, in order; in the metadata reserve of one
of the stack's ranks where that is named (R337, R340). -/
structure CellAccess where
  bursts : List Nat := []
  reserve : Option (Fin 4) := none
  deriving DecidableEq, Repr

/-- A copied chunk: whether the target met an uncorrectable error, and the bad symbols of bursts of cells of the source, by ingot and
cell (R337, R344, R347). -/
structure ChunkCopy where
  target : Bool := false
  source : List (Nat × Nat × List Nat) := []
  deriving DecidableEq, Repr

/-- What a read request that is no read of W-CTL or W-DBL asks for: bytes of W-STORE, bytes of W-ROM, or what the module answers with
Unsupported Request whatever the address: an AtomicOp, an I/O request, a locked request (R399). -/
inductive ReadSpace where
  | store | rom | unsupported
  deriving DecidableEq, Repr

/-- A read of W-STORE or W-ROM: the offset, the bad symbols of the bursts of each store cell read, in order (R337), the byte enables (a
byte beyond the list is enabled, R398), and the space. -/
structure StoreOffset where
  off : Nat
  errs : List (List Nat) := []
  enables : List Bool := []
  space : ReadSpace := .store
  deriving DecidableEq, Repr

/-- What a request in W-DBL does at its offset: write bytes, or read some number of them (R406, R419). -/
inductive DblAccess where
  | write (bytes : List Byte)
  | read (len : Nat)
  deriving DecidableEq, Repr

/-- A host port whose link trains, and the level of its PERST_N land: an open land is low (R498, R502). -/
structure PortLands where
  h : Fin 4
  perst : Bool := true
  deriving DecidableEq, Repr

/-- An error of a tile (Table 13.7): `TILE_CE`, found by its check bits and corrected, `TILE_UE`, or `SOLDER_PARITY` of data it received. -/
inductive TileError where
  | corrected
  | uncorrectable
  | parity
  deriving DecidableEq, Repr

/-- What a test slot finds (R487): nothing wrong, a pattern or logic that does not match, or an error shown by check bits, which was
corrected or could not be. -/
inductive TestOutcome where
  | pass
  | mismatch
  | corrected
  | uncorrectable
  deriving DecidableEq, Repr

/-- A cell read for a readout: the queue, and the bad symbols of the cell's bursts (R337). -/
structure ReadoutCell where
  q : Fin 16384
  errs : List Nat := []
  deriving DecidableEq, Repr

/-- The read of a golden trace: the engine, and the bad symbols of bursts of cells of the trace, by index (R337). -/
structure SealRead where
  a : Fin 4
  errs : List (Nat × List Nat) := []
  deriving DecidableEq, Repr

/-- What a read names of an object: the element, and in W-CTL the first byte of it and the number of bytes (R360). -/
structure ElemPart where
  elem : Nat
  first : Nat := 0
  len : Nat := 8
  deriving DecidableEq, Repr

/-- What a READ or WRITE of the relay does. -/
inductive RelayOp where
  | read
  | write (v : W64)
  deriving DecidableEq, Repr

/-- Sources of a bench fault (R254). -/
inductive FaultCause where
  | none | lane | functionLoss | queueReset | reset | mode
  deriving DecidableEq, Repr

/-- The commands. `l`: lane; `p`: element written of a port object; `b`: bench; `q`: queue; `v`: value written; `t`: an
instant of module time in units of 1/65,536 ns; `hdr`, `pay`: header and payload words of a frame. -/
inductive Instr where
  | portEnable (via : Via) (p : Nat) (v : W64)
  | clearCounters (via : Via) (p : Nat) (v : W64)
  | sendDescReq (via : Via) (p : Nat) (v : W64)
  | realign (via : Via) (p : Nat) (v : W64)
  | signalDetect (l : Fin 256)
  | codewordDecode (l : Fin 256) (t : Nat) (badSyms : Nat) (cwSeq : BitVec 10) (txState : BitVec 2) (inverted : Bool)
  | codewordPeriodMissed (l : Fin 256)
  | dataFrame (l : Fin 256) (t : Nat) (hdr : W40) (pay : List W40)
  | markerFrame (l : Fin 256) (t : Nat) (slot : Fin 4) (hdr : W40) (pay : List W40)
  | groupMap (l : Fin 256) (hdr : W40) (pay : List W40)
  | descriptor (l : Fin 256) (hdr : W40) (pay : List W40)
  | timeEcho (l : Fin 256) (t : Nat) (hdr : W40) (pay : List W40)
  | quenchReport (l : Fin 256) (hdr : W40) (pay : List W40)
  | ack (l : Fin 256) (hdr : W40) (pay : List W40)
  | time (l : Fin 256)
  | credit (l : Fin 256)
  | descReqRetry (l : Fin 256)
  | huntTimeout (l : Fin 256)
  | framedTimeout (l : Fin 256)
  | describedTimeout (l : Fin 256)
  | faultRetry (l : Fin 256)
  | absentTimeout (l : Fin 256)
  | degradedWindow (l : Fin 256)
  | quenchReportWindowClose (b : Fin 1024)
  | rowEmit (design : W64) (d : Fin 256) (stamp : W40)
  | partMissing (l : Fin 256) (d : Fin 256) (stamp : W40)
  | stalled (l : Fin 256)
  | tileGate (via : Via) (tile : Nat)
  | tileGated (tile : Fin 16)
  | tileUngate (via : Via) (tile : Nat)
  | tileOn (tile : Fin 16)
  | trigIoPulseEnd (n : Fin 4)
  | quenchCmd (via : Via) (b : Nat) (v : W64)
  | resumeCmd (via : Via) (b : Nat) (v : W64)
  | commit (via : Via) (b : Nat)
  | commitCancel (via : Via) (b : Nat)
  | commitBroadcast (b : Fin 1024)
  | armAt (via : Via) (b : Nat) (v : W64)
  | disarmAt (via : Via) (b : Nat) (v : W64)
  | scheduledArm (b : Fin 1024)
  | scheduledDisarm (b : Fin 1024)
  | planisherRow (b : Fin 1024)
  | benchFault (b : Fin 1024) (cause : FaultCause)
  | quiesceDisarmTimeout (b : Fin 1024)
  | goldIngots (via : Via) (b : Nat) (v : W64)
  | goldSeal (via : Via) (a : Nat) (v : W64)
  | goldSealDone (a : SealRead)
  | assayCompare (a : Fin 4) (inHand : Bool)
  | arm (via : Via) (b : Nat)
  | disarm (via : Via) (b : Nat)
  | clearFault (via : Via) (b : Nat)
  | reset (via : Via) (b : Nat)
  | benchResetDone (b : Fin 1024)
  | lockAcquire (via : Via) (k : Nat) (v : W64)
  | lockRelease (via : Via) (k : Nat) (v : W64)
  | lockRenew (via : Via) (k : Nat) (v : W64)
  | lockBreak (via : Via) (k : Nat) (v : W64)
  | lockLeaseExpiry (k : Fin 256)
  | propSubmit (via : Via) (v : W64)
  | propCountersign (via : Via) (v : W64)
  | propCancel (via : Via) (v : W64)
  | proposalApply
  | ingotScrub (b : Fin 1024) (ingot : Nat)
  | ownershipRequest (core : Fin 4) (line : Nat)
  | writeBack (core : Fin 4) (line : Nat)
  | qClaim (via : Via) (b : Nat) (v : W64)
  | qRelease (via : Via) (b : Nat) (v : W64)
  | qFlush (via : Via) (q : Nat) (v : W64)
  | qPop (via : Via) (q : Nat)
  | qReset (via : Via) (q : Nat) (v : W64)
  | queuePointer (target : PtrTarget)
  | queueResetSweepDone (q : Fin 16384)
  | freeList
  | poolUe (bank : Fin 8)
  | allocRound (reqs : List AllocReq)
  | quiesceDrainTimeout
  | storeCellAccess (chan : Fin 256) (burstErrs : CellAccess)
  | refresh (chan : Fin 256) (rank : Fin 4) (bank : Fin 32)
  | selfRefreshEntry (rank : Fin 32)
  | storeSpeed (via : Via) (v : W64)
  | speedChangeDone
  | delayLoad (via : Via) (v : W64)
  | tempBandChange (stack : Fin 8) (milliC : Int)
  | rankRetire (via : Via) (v : W64)
  | migrationChunk (targetError : ChunkCopy)
  | poisonListClear (via : Via) (v : W64)
  | stagingCellTimeout (f : Fin 1024)
  | wStoreWrite (f : Fin 1024) (off : Nat) (bytes : List Byte)
  | wStoreRead (f : Fin 1024) (off : StoreOffset) (len : Nat)
  | wCtlWrite (f : Fin 1024) (off : Nat) (bytes : List Byte)
  | time96Read (via : Via) (obj : Nat) (e : ElemPart)
  | casExpect (f : Fin 1024) (v : W64)
  | relayData (f : Fin 1024) (op : RelayOp)
  | netApply (via : Via) (m : Nat) (v : W64)
  | ethernetFrame (m : Fin 2) (len : Nat) (frame : EthFrame)
  | hello (m : Fin 2) (addr : Nat) (pkt : List Byte)
  | data (m : Fin 2) (pkt : List Byte)
  | read (slot : Fin 64) (reqId : BitVec 32) (ref : W64) (count : Nat)
  | write (slot : Fin 64) (reqId : BitVec 32) (ref : W64) (vals : List W64)
  | casWrite (slot : Fin 64) (reqId : BitVec 32) (ref : W64) (expect : BitVec 32) (vals : List W64)
  | subscribe (slot : Fin 64) (reqId : BitVec 32) (ref : W64) (count : Nat) (interval : Nat) (periodic : Bool)
  | unsubscribe (slot : Fin 64) (reqId : BitVec 32) (sub : Nat)
  | keepalive (slot : Fin 64) (reqId : BitVec 32)
  | close (slot : Fin 64) (reqId : BitVec 32)
  | notify (slot : Fin 64) (sub : Nat)
  | sessionIdleTimeout (slot : Fin 64)
  | sessionClose (via : Via) (v : W64)
  | configurationRequest (f : Fin 1024) (reg : Nat) (wr : Option (BitVec 32))
  | functionLevelReset (f : Fin 1024)
  | hostPortReset (h : Fin 4) (kind : PortReset)
  | vfEnableClear (h : Fin 4)
  | busMasterEnableClear (f : Fin 1024) (d3hot : Bool)
  | busMasterEnableSet (f : Fin 1024)
  | qHost (via : Via) (q : Nat) (v : W64)
  | dbCons (f : Fin 1024) (off : Nat) (bytes : DblAccess)
  | drainTransfer (h : Fin 4)
  | msixMessage (f : Fin 1024) (vec : Fin 2048)
  | readoutStart (via : Via) (q : Nat)
  | readoutStop (via : Via) (q : Nat)
  | readoutCell (q : ReadoutCell)
  | fillStart (f : Fin 1024)
  | fillAbort (f : Fin 1024)
  | fillReadCompletion (f : Fin 1024) (ok : Bool) (bytes : List Byte)
  | mbxSubmit (f : Fin 1024) (v : W64)
  | timeSet (via : Via) (e : Nat) (v : W64)
  | calUtc (via : Via) (v : W64)
  | refMeasurement (r : Fin 2) (ppb : Int)
  | ref10InLoss
  | ppsInEdge (cycles : Nat) (offNs : Int)
  | ppsInTimeout
  | announceReceiptTimeout
  | selectedReferenceLost
  | lockDelayExpiry (offset : Int)
  | switchComplete (offset : Int)
  | lockLoss
  | planSelect (via : Via) (v : W64)
  | planHopDone (band : Fin 64)
  | planAt (via : Via) (v : W64)
  | scheduledPlanHop
  | outApply (via : Via) (v : W64)
  | syncInEdge
  | ppsOut
  | trigIoCfg (via : Via) (n : Nat) (v : W64)
  | trigIoInputEdge (n : Fin 4) (t : PinEdge)
  | edgeAt (via : Via) (n : Nat) (v : W64)
  | scheduledEdge (n : Fin 4)
  | ptpMessageReceived (m : Fin 2) (msg : PtpMsg)
  | ptpMessageSent (m : Fin 2) (kind : PtpKind)
  | leapSecond
  | aux1Push (via : Via) (v : W64)
  | aux1Flush (via : Via) (v : W64)
  | inputInRange (milliV : Nat)
  | powerLoss
  | fwAuth (ok0 ok1 : Bool)
  | bringupComplete
  | idleEntry
  | endExclusive (via : Via)
  | exclusive (via : Via) (b : Fin 1024)
  | quiesceIdle (via : Via)
  | quiesceOff (via : Via)
  | factory (via : Via)
  | quiesceComplete
  | warmReset (via : Via) (v : W64)
  | sensorRead (milliC : List Int) (milliV milliW : Nat)
  | inputRange (milliV : Nat)
  | railFault (rail : Nat)
  | errAck (via : Via) (src : Nat) (v : W64)
  | tileUe (tile : Fin 16) (kind : TileError)
  | tileReset (via : Via) (tile : Nat) (v : W64)
  | tileTestDone (tile : Fin 16) (pass : Bool)
  | serviceWatchdog
  | serviceRestartDone
  | journalEntrySealed
  | fwBegin (via : Via) (v : W64)
  | fwPage (via : Via) (v : W64)
  | fwPageProgrammed
  | fwFinish (via : Via) (v : W64)
  | testSlot (kind : Fin 4) (unit : Nat) (found : TestOutcome)
  | ref10InReturn
  | ppsOutWidthEnd
  | aux1Sample
  | hostLinkUp (h : PortLands) (flit : Bool) (rate : Fin 8) (width : Fin 32)
  | netLinkDown (m : Fin 2)
  | netLinkUp (m : Fin 2)
  | holdoverClassChange
  | flashProgramComplete
  | fwVerifyDone (ok : Bool)
  | serviceCoreAccess (core : Fin 4) (inMap : Bool) (obj : Nat) (e : Nat) (wr : Option W64)
  | lineMemoryDone (line : Nat)
  deriving DecidableEq, Repr

end Sys2Proof
end

