-- ==== Sys2Proof/Config.lean ====
section
/-! DEFINITION. What one module fixes and the free values: constants without a body, so that no proof can see what they are.
Each is named in the assumption log. -/

namespace Sys2Proof.Config

/-- RZ8-256-LF, the module with FACTORY mode enabled (R459, Table 14.7). -/
opaque orderingLF : Bool

/-- The serial number as manufactured; `moduleSerial` keeps it away from 0 (R386, R503). -/
opaque serialRaw : W64

/-- `MODULE_SERIAL` (R386): never 0. -/
def moduleSerial : W64 := if serialRaw = 0#64 then 1#64 else serialRaw

/-- `DEVICE_KEY` elements (R386). -/
opaque deviceKey : Nat → W64

/-- `NET_MAC` of each port (R386). -/
opaque netMac : Nat → W64

/-- `POOL_REPAIR` (R306). -/
opaque poolRepair : W64

/-- `FW_SEC_VERSION` (R480). -/
opaque fwSecVersion : BitVec 16

/-- The amplitude of the sine period that `AUX0_TABLE` holds by default (R453), less 1; taken modulo 32,767. -/
opaque sineScale : Nat

/-- Whether the catalogue marks an object `SAMPLED` (R384); by area × 4,096 + object number. -/
opaque sampled : Nat → Bool

/-- Whether a Bench-owner principal may read an object for which the manual states no more than Table 7.2. -/
opaque benchOwnerReads : Nat → Bool

/-- SHA-384 (R264, R375, R376, R480), on bytes. -/
opaque sha384 : List Byte → List Byte

/-- ECDSA P-256 verification of a signature over a digest with a public key (R264). -/
opaque ecdsaVerify : List Byte → List Byte → List Byte → Bool

/-- A signature with the device identity key (R376). -/
opaque deviceSign : List Byte → List Byte

/-- The module's ephemeral key pair for the n-th session it opens, and the ECDH secret with a client's key (R376, R377). -/
opaque ephemeralPublic : Nat → List Byte
opaque ecdh : Nat → List Byte → List Byte

/-- The module's 16-byte nonce for the n-th session (R376). -/
opaque moduleNonce : Nat → List Byte

/-- HKDF-SHA-384 to 72 bytes: key material, salt, info (R377). -/
opaque hkdf72 : List Byte → List Byte → List Byte → List Byte

/-- AES-256-GCM opening: key, nonce, additional data, ciphertext and tag; none where the tag fails (R377). -/
opaque aesOpen : List Byte → List Byte → List Byte → List Byte → Option (List Byte)

/-- AES-256-GCM sealing: key, nonce, additional data, plaintext; ciphertext and tag (R377). -/
opaque aesSeal : List Byte → List Byte → List Byte → List Byte → List Byte

/-- A free 64-bit value, by the model's own count of values drawn: what the manual leaves undefined or unstated. -/
opaque freeValue : Nat → W64

/-- Whether an inexact quotient, by its dividend and divisor, is rounded up: the manual states means and measured values without
their rounding (R28, R50, R55, R68). -/
opaque roundUp : Int → Nat → Bool

/-- The bank of the pool the allocator starts from for its n-th packet, in normal mode (which free cell is handed out). -/
opaque poolBank : Nat → Nat

/-- The place in a bank from which the allocator looks for a free cell for its n-th packet (R276, R307). -/
opaque poolCell : Nat → Nat

/-- The stack, pseudo-channel, rank, bank and row of a cell of an ingot (R317 leaves the placement to the module). -/
opaque cellStack : Nat → Nat → Nat
opaque cellChannel : Nat → Nat → Nat
opaque cellRank : Nat → Nat → Nat
opaque cellBank : Nat → Nat → Nat
opaque cellRow : Nat → Nat → Nat

/-- The MEM cycles a bank is busy after a write or a read at `ECO`: the manual gives those of `FULL` only (R334, Table 9.5). -/
opaque ecoBankBusy : Bool → Nat

/-- Configuration-space words that the manual leaves to the PCIe specifications: function, offset (R388). -/
opaque pcieConfig : Nat → Nat → BitVec 32

/-- The bytes of W-ROM that hold neither its header nor the window map nor the self-description image (R395). -/
opaque romByte : Nat → Byte

/-- The type code that the catalogue lists for command objects: Table 10.2 has no code for them. -/
opaque commandType : BitVec 4

/-- The version that a loaded delay table carries (R335). -/
opaque delayTableId : Nat → BitVec 32

/-- The control value of the loop (R430, R435, R436): the factory nominal one; what the loop gives while it pulls in, tracks or builds out a
phase, by its bandwidth, its reference and the instant; its mean over the preceding second at the n-th freeze. -/
opaque controlNominal : Int
opaque controlLoop : Nat → Nat → Nat → Int
opaque controlMean : Nat → Int

/-- The offsetScaledLogVariance that the module announces of its own clock (IEEE 1588; not in Table 12.7). -/
opaque ptpVariance : Nat

/-- The firmware image header read from a slot: version and security version, by the pages written (R480). -/
opaque imageVersion : List (Nat × List W64) → BitVec 32
opaque imageSecVersion : List (Nat × List W64) → BitVec 16

/-- The parts of an image, by the pages written: header with code, and signature; and the vendor key in the trusted controller's ROM
(R480). Where they lie in an image is not given. -/
opaque imageSigned : List (Nat × List W64) → List Byte
opaque imageSignature : List (Nat × List W64) → List Byte
opaque vendorKey : List Byte

end Sys2Proof.Config
end

