-- ==== Sys2Proof/Machine/Bits.lean ====
section
/-! DEFINITION. Bit fields, byte order, saturation and the CRC of the manual (Notation; R190, R191). -/

namespace Sys2Proof

/-- Bits [hi:lo] of a word, as a number (Notation: bit 0 is the least significant). -/
def fld {n : Nat} (w : BitVec n) (hi lo : Nat) : Nat := (w.toNat >>> lo) % 2 ^ (hi + 1 - lo)

/-- One bit of a word. -/
def bit {n : Nat} (w : BitVec n) (i : Nat) : Bool := w.getLsbD i

/-- A word of zeros but for the number `v` placed at bit `lo`. -/
def put (v lo : Nat) : W64 := BitVec.ofNat 64 (v <<< lo)

/-- A 40-bit word of zeros but for the number `v` placed at bit `lo`. -/
def put40 (v lo : Nat) : W40 := BitVec.ofNat 40 (v <<< lo)

/-- The word with bits [hi:lo] replaced by the number `v`. -/
def setFld (w : W64) (hi lo v : Nat) : W64 :=
  let m : W64 := BitVec.ofNat 64 ((2 ^ (hi + 1 - lo) - 1) <<< lo)
  (w &&& ~~~ m) ||| (put v lo &&& m)

/-- The word with one bit replaced. -/
def setBit (w : W64) (i : Nat) (b : Bool) : W64 := setFld w i i b.toNat

/-- A number, held at the largest value of `n` bits (a saturating counter). -/
def sat (n v : Nat) : Nat := min v (2 ^ n - 1)

/-- A 64-bit counter raised by `k`, saturating at 2^64 - 1. -/
def satAdd (w : W64) (k : Nat) : W64 := BitVec.ofNat 64 (sat 64 (w.toNat + k))

/-- The number a 64-bit two's complement element stands for (R353, I32 and I64). -/
def w64Int (w : W64) : Int := w.toInt

/-- An exact integer placed in an element, two's complement. -/
def intW64 (i : Int) : W64 := BitVec.ofInt 64 i

/-- The bytes of a number, least significant first. -/
def bytesLE : Nat → Nat → List Byte
  | 0, _ => []
  | n + 1, v => BitVec.ofNat 8 v :: bytesLE n (v >>> 8)

/-- The bytes of a number, most significant first (R374, R264). -/
def bytesBE (n v : Nat) : List Byte := (bytesLE n v).reverse

/-- The number whose bytes are given least significant first. -/
def natLE : List Byte → Nat
  | [] => 0
  | b :: t => b.toNat + 256 * natLE t

/-- The number whose bytes are given most significant first. -/
def natBE (bs : List Byte) : Nat := natLE bs.reverse

/-- One bit step of CRC-16/CCITT-FALSE: polynomial 0x1021, no reflection (R191). -/
def crcBit (c : BitVec 16) : BitVec 16 :=
  if c.getLsbD 15 then (c <<< 1) ^^^ 0x1021#16 else c <<< 1

/-- One byte step of the CRC (R191). -/
def crcByte (c : BitVec 16) (b : Byte) : BitVec 16 :=
  let c0 := c ^^^ ((b.setWidth 16) <<< 8)
  crcBit (crcBit (crcBit (crcBit (crcBit (crcBit (crcBit (crcBit c0)))))))

/-- CRC-16/CCITT-FALSE over bytes in ascending order, initial value 0xFFFF (R191). -/
def crc16 (bs : List Byte) : BitVec 16 := bs.foldl crcByte 0xFFFF#16

/-- The 40-bit words of a cell packed into one number, word i at bits [40i+39:40i] (R190). -/
def packWords : List W40 → Nat
  | [] => 0
  | w :: t => w.toNat + (packWords t) <<< 40

/-- The number a two's complement field of `n` bits stands for (R89). -/
def signedOf (n v : Nat) : Int := if v < 2 ^ (n - 1) then (v : Int) else (v : Int) - (2 ^ n : Nat)

/-- The largest of a list, `d` where it is empty. -/
def listMax (d : Nat) (l : List Nat) : Nat := l.foldl max d

/-- The smallest of a list, none where it is empty. -/
def listMin : List Nat → Option Nat
  | [] => none
  | x :: t => some (t.foldl min x)

/-- Add a member to a list that holds no repeats. -/
def addNew {α : Type} [DecidableEq α] (l : List α) (x : α) : List α := if x ∈ l then l else l ++ [x]

/-- sin(πk/2048) for k up to 1,024 in units of 2^-60: the Taylor series to the fifteenth power. -/
def sineQuarter (k : Nat) : Nat :=
  let x := k * 3622009729038561421 / 2048
  let next := fun (t n : Nat) => t * (x * x / 2 ^ 60) / 2 ^ 60 / n
  let t3 := next x 6
  let t5 := next t3 20
  let t7 := next t5 42
  let t9 := next t7 72
  let t11 := next t9 110
  let t13 := next t11 156
  let t15 := next t13 210
  x + t5 + t9 + t13 - t3 - t7 - t11 - t15

/-- Entry k of 4,096 of one sine period in 16-bit two's complement, to the nearest code (R453; log entry 15). -/
def sineEntry (k : Nat) : BitVec 16 :=
  let j := k % 2048
  let v := ((1 + Config.sineScale % 32767) * sineQuarter (if j ≤ 1024 then j else 2048 - j) + 2 ^ 59) / 2 ^ 60
  if k % 4096 < 2048 then BitVec.ofNat 16 v else - BitVec.ofNat 16 v

/-- The quotient of a mean or of a measurement: exact where it is exact, else rounded to one of its two neighbours. -/
def roundDiv (n : Int) (d : Nat) : Int :=
  if n % (d : Int) = 0 then n / (d : Int)
  else if Config.roundUp n d then n / (d : Int) + 1 else n / (d : Int)

end Sys2Proof
end

