-- ==== Sys2Proof/Machine/Catalog.lean ====
section
/-! DEFINITION. The object dictionary's catalogue (R352, R353, R384): one row per object of the manual's object tables, with
its place, type, access kind, default, value range and rights. Where an object holds `hi` 0 to 2^64-1 the object's own rules
give the check. Rights that no rule of the manual states are `std` (log entry 17). -/

namespace Sys2Proof.Machine

/-- Element types (Table 10.2); `cmd` marks the command objects. -/
inductive Ty where
  | bool | u8 | u16 | u32 | u64 | i32 | i64 | w40 | time96 | enum | bits | str | addr | cmd
  deriving DecidableEq, Repr

/-- Access kinds (Table 10.3). -/
inductive Acc where
  | ro | rw | wo | rc | w1c | cmd | cas
  deriving DecidableEq, Repr

/-- Whose element it is: the rule that names the bench which owns element e. `bench k`: bench e / k; `sq k`: the owner of
sequencer e / k; `ae k`: the owner of engine e / k; `lane`, `laneMap`, `port`, `clock`: R505, R258. -/
inductive Own where
  | module | bench (k : Nat) | cu | sq (k : Nat) | ae (k : Nat) | queue | port | lane | laneMap | clock | pin | func | group
  | lock | caller
  deriving DecidableEq, Repr

/-- Who may make an access (Table 7.2). -/
inductive Who where
  /-- Every principal (areas 0 and E, owner objects: R86, Table 10.1). -/
  | every
  /-- Nobody. -/
  | none
  /-- Admin, and Bench-owner of the element's bench (R86, R258). -/
  | owner
  /-- As `owner`, and Service (R403, R443). -/
  | ownerService
  /-- Admin only. -/
  | admin
  /-- Admin or Service (R455). -/
  | adminService
  /-- Service only. -/
  | service
  /-- Custodian or Admin (Table 7.9). -/
  | custAdmin
  /-- The rules of R259 and R261. -/
  | lock
  /-- The reads of R505 on port settings, lane objects, design clocks and `ROW_WAIT_NS`. -/
  | port505 | lane505 | clock505 | any505
  /-- The manual states no more than Table 7.2 (log entry 17). -/
  | std
  deriving DecidableEq, Repr

/-- One object of the dictionary. `base` is area × 4,096 + first object number. With `fam`, the object is a family of 32
objects of 8 elements, one per port (Table 1.11), and an element is named by its lane. -/
structure ObjInfo where
  name : String
  base : Nat
  count : Nat
  ty : Ty
  acc : Acc
  dflt : Int
  lo : Int
  hi : Int
  own : Own
  rd : Who
  wr : Who
  fam : Bool := false
  deriving DecidableEq, Repr

/-- The key of element e of an object in the table of elements. -/
def ObjInfo.key (o : ObjInfo) (e : Nat) : Nat := o.base * 2 ^ 28 + e

/-- `PORT_ENABLE`: R43, Table 1.11. -/
def O.PORT_ENABLE : ObjInfo :=
  { name := "PORT_ENABLE", base := 0x3000, count := 32, ty := .bool, acc := .rw, dflt := 0, lo := 0, hi := 1, own := .port, rd := .port505, wr := .owner }

/-- `EQ_PRESET`: R43, Table 1.11. -/
def O.EQ_PRESET : ObjInfo :=
  { name := "EQ_PRESET", base := 0x3001, count := 32, ty := .u8, acc := .rw, dflt := 8, lo := 0, hi := 15, own := .port, rd := .port505, wr := .owner }

/-- `TX_FFE_PRESET`: R43, Table 1.11. -/
def O.TX_FFE_PRESET : ObjInfo :=
  { name := "TX_FFE_PRESET", base := 0x3002, count := 32, ty := .u8, acc := .rw, dflt := 4, lo := 0, hi := 15, own := .port, rd := .port505, wr := .owner }

/-- `RX_POLARITY`: R43, Table 1.11. -/
def O.RX_POLARITY : ObjInfo :=
  { name := "RX_POLARITY", base := 0x3003, count := 32, ty := .enum, acc := .rw, dflt := 2, lo := 0, hi := 2, own := .port, rd := .port505, wr := .owner }

/-- `TX_POLARITY`: R43, Table 1.11. -/
def O.TX_POLARITY : ObjInfo :=
  { name := "TX_POLARITY", base := 0x3004, count := 32, ty := .enum, acc := .rw, dflt := 0, lo := 0, hi := 1, own := .port, rd := .port505, wr := .owner }

/-- `PRECODE`: R43, Table 1.11. -/
def O.PRECODE : ObjInfo :=
  { name := "PRECODE", base := 0x3005, count := 32, ty := .enum, acc := .rw, dflt := 0, lo := 0, hi := 1, own := .port, rd := .port505, wr := .owner }

/-- `FEC_MODE`: R43, Table 1.11. -/
def O.FEC_MODE : ObjInfo :=
  { name := "FEC_MODE", base := 0x3006, count := 32, ty := .enum, acc := .rw, dflt := 0, lo := 0, hi := 1, own := .port, rd := .port505, wr := .owner }

/-- `DEGRADE_SYM_PER_S`: R43, Table 1.11. -/
def O.DEGRADE_SYM_PER_S : ObjInfo :=
  { name := "DEGRADE_SYM_PER_S", base := 0x3007, count := 32, ty := .u32, acc := .rw, dflt := 1000000, lo := 0, hi := 4294967295, own := .port, rd := .port505, wr := .owner }

/-- `UNCORR_LIMIT`: R43, Table 1.11. -/
def O.UNCORR_LIMIT : ObjInfo :=
  { name := "UNCORR_LIMIT", base := 0x3008, count := 32, ty := .u16, acc := .rw, dflt := 16, lo := 0, hi := 65535, own := .port, rd := .port505, wr := .owner }

/-- `CLEAR_COUNTERS`: R43, Table 1.11. -/
def O.CLEAR_COUNTERS : ObjInfo :=
  { name := "CLEAR_COUNTERS", base := 0x3009, count := 32, ty := .cmd, acc := .cmd, dflt := 0, lo := 0, hi := 18446744073709551615, own := .port, rd := .port505, wr := .owner }

/-- `SEND_DESC_REQ`: R43, Table 1.11. -/
def O.SEND_DESC_REQ : ObjInfo :=
  { name := "SEND_DESC_REQ", base := 0x300A, count := 32, ty := .cmd, acc := .cmd, dflt := 0, lo := 0, hi := 18446744073709551615, own := .port, rd := .port505, wr := .owner }

/-- `LANE_STATE`: R43, Table 1.11. -/
def O.LANE_STATE : ObjInfo :=
  { name := "LANE_STATE", base := 0x3100, count := 256, ty := .enum, acc := .ro, dflt := 0, lo := 0, hi := 6, own := .lane, rd := .lane505, wr := .none, fam := true }

/-- `FAULT_CAUSE`: R43, Table 1.11. -/
def O.FAULT_CAUSE : ObjInfo :=
  { name := "FAULT_CAUSE", base := 0x3120, count := 256, ty := .enum, acc := .ro, dflt := 0, lo := 0, hi := 6, own := .lane, rd := .lane505, wr := .none, fam := true }

/-- `FEC_CORR_SYM`: R43, Table 1.11. -/
def O.FEC_CORR_SYM : ObjInfo :=
  { name := "FEC_CORR_SYM", base := 0x3140, count := 256, ty := .u64, acc := .ro, dflt := 0, lo := 0, hi := 18446744073709551615, own := .lane, rd := .lane505, wr := .none, fam := true }

/-- `FEC_UNCORR_CW`: R43, Table 1.11. -/
def O.FEC_UNCORR_CW : ObjInfo :=
  { name := "FEC_UNCORR_CW", base := 0x3160, count := 256, ty := .u64, acc := .ro, dflt := 0, lo := 0, hi := 18446744073709551615, own := .lane, rd := .lane505, wr := .none, fam := true }

/-- `FRAME_ERR`: R43, Table 1.11. -/
def O.FRAME_ERR : ObjInfo :=
  { name := "FRAME_ERR", base := 0x3180, count := 256, ty := .u64, acc := .ro, dflt := 0, lo := 0, hi := 18446744073709551615, own := .lane, rd := .lane505, wr := .none, fam := true }

/-- `STAMP_ERR`: R43, Table 1.11. -/
def O.STAMP_ERR : ObjInfo :=
  { name := "STAMP_ERR", base := 0x31A0, count := 256, ty := .u64, acc := .ro, dflt := 0, lo := 0, hi := 18446744073709551615, own := .lane, rd := .lane505, wr := .none, fam := true }

/-- `CREDIT_OVERRUN`: R43, Table 1.11. -/
def O.CREDIT_OVERRUN : ObjInfo :=
  { name := "CREDIT_OVERRUN", base := 0x31C0, count := 256, ty := .u64, acc := .ro, dflt := 0, lo := 0, hi := 18446744073709551615, own := .lane, rd := .lane505, wr := .none, fam := true }

/-- `CREDIT_WAIT_NS`: R43, Table 1.11. -/
def O.CREDIT_WAIT_NS : ObjInfo :=
  { name := "CREDIT_WAIT_NS", base := 0x31E0, count := 256, ty := .u64, acc := .ro, dflt := 0, lo := 0, hi := 18446744073709551615, own := .lane, rd := .lane505, wr := .none, fam := true }

/-- `TIME_OFFSET`: R43, Table 1.11. -/
def O.TIME_OFFSET : ObjInfo :=
  { name := "TIME_OFFSET", base := 0x3200, count := 256, ty := .i32, acc := .ro, dflt := 0, lo := 0, hi := 18446744073709551615, own := .lane, rd := .lane505, wr := .none, fam := true }

/-- `LINK_DELAY`: R43, Table 1.11. -/
def O.LINK_DELAY : ObjInfo :=
  { name := "LINK_DELAY", base := 0x3220, count := 256, ty := .u32, acc := .ro, dflt := 0, lo := 0, hi := 4294967295, own := .lane, rd := .lane505, wr := .none, fam := true }

/-- `LANE_FLAGS`: R43, Table 1.11. -/
def O.LANE_FLAGS : ObjInfo :=
  { name := "LANE_FLAGS", base := 0x3240, count := 256, ty := .bits, acc := .ro, dflt := 0, lo := 0, hi := 18446744073709551615, own := .lane, rd := .lane505, wr := .none, fam := true }

/-- `DESIGN_ID`: R43, Table 1.11. -/
def O.DESIGN_ID : ObjInfo :=
  { name := "DESIGN_ID", base := 0x3260, count := 256, ty := .u64, acc := .ro, dflt := 0, lo := 0, hi := 18446744073709551615, own := .lane, rd := .lane505, wr := .none, fam := true }

/-- `BUILD_HASH`: R43, Table 1.11. -/
def O.BUILD_HASH : ObjInfo :=
  { name := "BUILD_HASH", base := 0x3280, count := 256, ty := .u64, acc := .ro, dflt := 0, lo := 0, hi := 18446744073709551615, own := .lane, rd := .lane505, wr := .none, fam := true }

/-- `MAP_VERSION`: R43, Table 1.11. -/
def O.MAP_VERSION : ObjInfo :=
  { name := "MAP_VERSION", base := 0x32A0, count := 256, ty := .u32, acc := .ro, dflt := 0, lo := 0, hi := 4294967295, own := .lane, rd := .lane505, wr := .none, fam := true }

/-- `CORE_IDENT`: R43, Table 1.11. -/
def O.CORE_IDENT : ObjInfo :=
  { name := "CORE_IDENT", base := 0x32C0, count := 256, ty := .u32, acc := .ro, dflt := 0, lo := 0, hi := 4294967295, own := .lane, rd := .lane505, wr := .none, fam := true }

/-- `QUENCH_SKID`: R43, Table 1.11. -/
def O.QUENCH_SKID : ObjInfo :=
  { name := "QUENCH_SKID", base := 0x32E0, count := 256, ty := .u32, acc := .ro, dflt := 0, lo := 0, hi := 4294967295, own := .lane, rd := .lane505, wr := .none, fam := true }

/-- `LANE_GROUP_MAP`: R43, Table 1.11. -/
def O.LANE_GROUP_MAP : ObjInfo :=
  { name := "LANE_GROUP_MAP", base := 0x3400, count := 262144, ty := .u64, acc := .ro, dflt := 0, lo := 0, hi := 18446744073709551615, own := .laneMap, rd := .lane505, wr := .none }

/-- `REALIGN`: R81, Table 2.3. -/
def O.REALIGN : ObjInfo :=
  { name := "REALIGN", base := 0x300B, count := 32, ty := .cmd, acc := .cmd, dflt := 0, lo := 0, hi := 18446744073709551615, own := .port, rd := .port505, wr := .owner }

/-- `ALIGN_STATE`: R81, Table 2.3. -/
def O.ALIGN_STATE : ObjInfo :=
  { name := "ALIGN_STATE", base := 0x3800, count := 256, ty := .enum, acc := .ro, dflt := 0, lo := 0, hi := 4, own := .lane, rd := .lane505, wr := .none, fam := true }

/-- `ALIGN_REFUSE_CAUSE`: R81, Table 2.3. -/
def O.ALIGN_REFUSE_CAUSE : ObjInfo :=
  { name := "ALIGN_REFUSE_CAUSE", base := 0x3820, count := 256, ty := .enum, acc := .ro, dflt := 0, lo := 0, hi := 2, own := .lane, rd := .lane505, wr := .none, fam := true }

/-- `PATH_LATENCY`: R81, Table 2.3. -/
def O.PATH_LATENCY : ObjInfo :=
  { name := "PATH_LATENCY", base := 0x3840, count := 256, ty := .i64, acc := .ro, dflt := 0, lo := 0, hi := 18446744073709551615, own := .lane, rd := .lane505, wr := .none, fam := true }

/-- `MISSING_PARTS`: R81, Table 2.3. -/
def O.MISSING_PARTS : ObjInfo :=
  { name := "MISSING_PARTS", base := 0x3860, count := 256, ty := .u64, acc := .ro, dflt := 0, lo := 0, hi := 18446744073709551615, own := .lane, rd := .lane505, wr := .none, fam := true }

/-- `ROW_WAIT_NS`: R81, Table 2.3. -/
def O.ROW_WAIT_NS : ObjInfo :=
  { name := "ROW_WAIT_NS", base := 0x3880, count := 1, ty := .u16, acc := .rw, dflt := 1000, lo := 100, hi := 3000, own := .module, rd := .any505, wr := .std }

/-- `ROWS_EMITTED`: R81, Table 2.3. -/
def O.ROWS_EMITTED : ObjInfo :=
  { name := "ROWS_EMITTED", base := 0x3900, count := 256, ty := .u64, acc := .ro, dflt := 0, lo := 0, hi := 18446744073709551615, own := .clock, rd := .clock505, wr := .none }

/-- `ROWS_INCOMPLETE`: R81, Table 2.3. -/
def O.ROWS_INCOMPLETE : ObjInfo :=
  { name := "ROWS_INCOMPLETE", base := 0x3901, count := 256, ty := .u64, acc := .ro, dflt := 0, lo := 0, hi := 18446744073709551615, own := .clock, rd := .clock505, wr := .none }

/-- `CLOCK_FREQ_HZ`: R81, Table 2.3. -/
def O.CLOCK_FREQ_HZ : ObjInfo :=
  { name := "CLOCK_FREQ_HZ", base := 0x3902, count := 256, ty := .u64, acc := .ro, dflt := 0, lo := 0, hi := 18446744073709551615, own := .clock, rd := .clock505, wr := .none }

/-- `ROUTE_REFUSED`: R81, Table 2.3. -/
def O.ROUTE_REFUSED : ObjInfo :=
  { name := "ROUTE_REFUSED", base := 0x3910, count := 1024, ty := .u64, acc := .ro, dflt := 0, lo := 0, hi := 18446744073709551615, own := .bench 1, rd := .owner, wr := .none }

/-- `UNOWNED_WORDS`: R81, Table 2.3. -/
def O.UNOWNED_WORDS : ObjInfo :=
  { name := "UNOWNED_WORDS", base := 0x3914, count := 16, ty := .u64, acc := .ro, dflt := 0, lo := 0, hi := 18446744073709551615, own := .module, rd := .adminService, wr := .none }

/-- `TILE_POWER`: R81, Table 2.3. -/
def O.TILE_POWER : ObjInfo :=
  { name := "TILE_POWER", base := 0x5000, count := 16, ty := .enum, acc := .rw, dflt := 0, lo := 0, hi := 1, own := .module, rd := .std, wr := .std }

/-- `TILE_STATE`: R81, Table 2.3. -/
def O.TILE_STATE : ObjInfo :=
  { name := "TILE_STATE", base := 0x5001, count := 16, ty := .enum, acc := .ro, dflt := 0, lo := 0, hi := 3, own := .module, rd := .std, wr := .none }

/-- `GATED_DISCARD`: R81, Table 2.3. -/
def O.GATED_DISCARD : ObjInfo :=
  { name := "GATED_DISCARD", base := 0x5002, count := 16, ty := .u64, acc := .ro, dflt := 0, lo := 0, hi := 18446744073709551615, own := .module, rd := .std, wr := .none }

/-- `CU_CONFIG`: R112, Table 3.6. -/
def O.CU_CONFIG : ObjInfo :=
  { name := "CU_CONFIG", base := 0x5100, count := 8192, ty := .bits, acc := .rw, dflt := 20480, lo := 0, hi := 18446744073709551615, own := .cu, rd := .owner, wr := .owner }

/-- `CU_GROUP`: R112, Table 3.6. -/
def O.CU_GROUP : ObjInfo :=
  { name := "CU_GROUP", base := 0x5120, count := 8192, ty := .u16, acc := .rw, dflt := 0, lo := 0, hi := 65535, own := .cu, rd := .owner, wr := .owner }

/-- `CU_PATTERN`: R112, Table 3.6. -/
def O.CU_PATTERN : ObjInfo :=
  { name := "CU_PATTERN", base := 0x5140, count := 8192, ty := .w40, acc := .rw, dflt := 0, lo := 0, hi := 1099511627775, own := .cu, rd := .owner, wr := .owner }

/-- `CU_MASK`: R112, Table 3.6. -/
def O.CU_MASK : ObjInfo :=
  { name := "CU_MASK", base := 0x5160, count := 8192, ty := .w40, acc := .rw, dflt := 1099511627775, lo := 0, hi := 1099511627775, own := .cu, rd := .owner, wr := .owner }

/-- `CU_LOW`: R112, Table 3.6. -/
def O.CU_LOW : ObjInfo :=
  { name := "CU_LOW", base := 0x5180, count := 8192, ty := .w40, acc := .rw, dflt := 0, lo := 0, hi := 1099511627775, own := .cu, rd := .owner, wr := .owner }

/-- `CU_HIGH`: R112, Table 3.6. -/
def O.CU_HIGH : ObjInfo :=
  { name := "CU_HIGH", base := 0x51A0, count := 8192, ty := .w40, acc := .rw, dflt := 1099511627775, lo := 0, hi := 1099511627775, own := .cu, rd := .owner, wr := .owner }

/-- `CU_LEVEL`: R112, Table 3.6. -/
def O.CU_LEVEL : ObjInfo :=
  { name := "CU_LEVEL", base := 0x51C0, count := 8192, ty := .w40, acc := .rw, dflt := 0, lo := 0, hi := 1099511627775, own := .cu, rd := .owner, wr := .owner }

/-- `CU_HYST`: R112, Table 3.6. -/
def O.CU_HYST : ObjInfo :=
  { name := "CU_HYST", base := 0x51E0, count := 8192, ty := .w40, acc := .rw, dflt := 0, lo := 0, hi := 1099511627775, own := .cu, rd := .owner, wr := .owner }

/-- `CU_EXPORT`: R112, Table 3.6. -/
def O.CU_EXPORT : ObjInfo :=
  { name := "CU_EXPORT", base := 0x5200, count := 8192, ty := .bits, acc := .rw, dflt := 0, lo := 0, hi := 18446744073709551615, own := .cu, rd := .owner, wr := .owner }

/-- `CU_STATUS`: R112, Table 3.6. -/
def O.CU_STATUS : ObjInfo :=
  { name := "CU_STATUS", base := 0x5220, count := 8192, ty := .bits, acc := .ro, dflt := 0, lo := 0, hi := 18446744073709551615, own := .cu, rd := .owner, wr := .none }

/-- `CU_HITS`: R112, Table 3.6. -/
def O.CU_HITS : ObjInfo :=
  { name := "CU_HITS", base := 0x5240, count := 8192, ty := .u64, acc := .ro, dflt := 0, lo := 0, hi := 18446744073709551615, own := .cu, rd := .owner, wr := .none }

/-- `CU_OWNER`: R112, Table 3.6. -/
def O.CU_OWNER : ObjInfo :=
  { name := "CU_OWNER", base := 0x5260, count := 8192, ty := .u16, acc := .ro, dflt := 65535, lo := 0, hi := 65535, own := .cu, rd := .every, wr := .none }

/-- `SQ_CONFIG`: R158, Table 4.15. -/
def O.SQ_CONFIG : ObjInfo :=
  { name := "SQ_CONFIG", base := 0x5003, count := 128, ty := .bits, acc := .rw, dflt := 0, lo := 0, hi := 18446744073709551615, own := .sq 1, rd := .owner, wr := .owner }

/-- `SQ_STATUS`: R158, Table 4.15. -/
def O.SQ_STATUS : ObjInfo :=
  { name := "SQ_STATUS", base := 0x5004, count := 128, ty := .bits, acc := .ro, dflt := 0, lo := 0, hi := 18446744073709551615, own := .sq 1, rd := .owner, wr := .none }

/-- `SQ_OWNER`: R158, Table 4.15. -/
def O.SQ_OWNER : ObjInfo :=
  { name := "SQ_OWNER", base := 0x5005, count := 128, ty := .u16, acc := .ro, dflt := 65535, lo := 0, hi := 65535, own := .sq 1, rd := .every, wr := .none }

/-- `SQ_TRIGGERS`: R158, Table 4.15. -/
def O.SQ_TRIGGERS : ObjInfo :=
  { name := "SQ_TRIGGERS", base := 0x5006, count := 128, ty := .u64, acc := .ro, dflt := 0, lo := 0, hi := 18446744073709551615, own := .sq 1, rd := .owner, wr := .none }

/-- `SQ_STEPS`: R158, Table 4.15. -/
def O.SQ_STEPS : ObjInfo :=
  { name := "SQ_STEPS", base := 0x5007, count := 128, ty := .u64, acc := .ro, dflt := 0, lo := 0, hi := 18446744073709551615, own := .sq 1, rd := .owner, wr := .none }

/-- `HOLDOFF_KIND`: R158, Table 4.15. -/
def O.HOLDOFF_KIND : ObjInfo :=
  { name := "HOLDOFF_KIND", base := 0x5020, count := 1024, ty := .enum, acc := .rw, dflt := 0, lo := 0, hi := 2, own := .bench 1, rd := .owner, wr := .owner }

/-- `HOLDOFF_VALUE`: R158, Table 4.15. -/
def O.HOLDOFF_VALUE : ObjInfo :=
  { name := "HOLDOFF_VALUE", base := 0x5024, count := 1024, ty := .u64, acc := .rw, dflt := 0, lo := 0, hi := 18446744073709551615, own := .bench 1, rd := .owner, wr := .owner }

/-- `HOLDOFF_SEL`: R158, Table 4.15. -/
def O.HOLDOFF_SEL : ObjInfo :=
  { name := "HOLDOFF_SEL", base := 0x5028, count := 1024, ty := .u16, acc := .rw, dflt := 16384, lo := 0, hi := 65535, own := .bench 1, rd := .owner, wr := .owner }

/-- `TRIG_STATE`: R158, Table 4.15. -/
def O.TRIG_STATE : ObjInfo :=
  { name := "TRIG_STATE", base := 0x502C, count := 1024, ty := .enum, acc := .ro, dflt := 0, lo := 0, hi := 4, own := .bench 1, rd := .owner, wr := .none }

/-- `COMMIT_CLOCK`: R158, Table 4.15. -/
def O.COMMIT_CLOCK : ObjInfo :=
  { name := "COMMIT_CLOCK", base := 0x5030, count := 1024, ty := .u8, acc := .rw, dflt := 0, lo := 0, hi := 255, own := .bench 1, rd := .owner, wr := .owner }

/-- `COMMIT_STAMP`: R158, Table 4.15. -/
def O.COMMIT_STAMP : ObjInfo :=
  { name := "COMMIT_STAMP", base := 0x5034, count := 1024, ty := .w40, acc := .rw, dflt := 0, lo := 0, hi := 1099511627775, own := .bench 1, rd := .owner, wr := .owner }

/-- `COMMIT`: R158, Table 4.15. -/
def O.COMMIT : ObjInfo :=
  { name := "COMMIT", base := 0x5038, count := 1024, ty := .cmd, acc := .cmd, dflt := 0, lo := 0, hi := 18446744073709551615, own := .bench 1, rd := .owner, wr := .owner }

/-- `COMMIT_STATUS`: R158, Table 4.15. -/
def O.COMMIT_STATUS : ObjInfo :=
  { name := "COMMIT_STATUS", base := 0x503C, count := 1024, ty := .bits, acc := .ro, dflt := 0, lo := 0, hi := 18446744073709551615, own := .bench 1, rd := .owner, wr := .none }

/-- `ARM_AT`: R158, Table 4.15. -/
def O.ARM_AT : ObjInfo :=
  { name := "ARM_AT", base := 0x5040, count := 1024, ty := .u64, acc := .rw, dflt := 0, lo := 0, hi := 18446744073709551615, own := .bench 1, rd := .owner, wr := .owner }

/-- `DISARM_AT`: R158, Table 4.15. -/
def O.DISARM_AT : ObjInfo :=
  { name := "DISARM_AT", base := 0x5044, count := 1024, ty := .u64, acc := .rw, dflt := 0, lo := 0, hi := 18446744073709551615, own := .bench 1, rd := .owner, wr := .owner }

/-- `ARM_LATE_POLICY`: R158, Table 4.15. -/
def O.ARM_LATE_POLICY : ObjInfo :=
  { name := "ARM_LATE_POLICY", base := 0x5048, count := 1024, ty := .enum, acc := .rw, dflt := 0, lo := 0, hi := 1, own := .bench 1, rd := .owner, wr := .owner }

/-- `DISARM_LATE_POLICY`: R158, Table 4.15. -/
def O.DISARM_LATE_POLICY : ObjInfo :=
  { name := "DISARM_LATE_POLICY", base := 0x504C, count := 1024, ty := .enum, acc := .rw, dflt := 0, lo := 0, hi := 1, own := .bench 1, rd := .owner, wr := .owner }

/-- `SCHED_STATUS`: R158, Table 4.15. -/
def O.SCHED_STATUS : ObjInfo :=
  { name := "SCHED_STATUS", base := 0x5050, count := 1024, ty := .bits, acc := .ro, dflt := 0, lo := 0, hi := 18446744073709551615, own := .bench 1, rd := .owner, wr := .none }

/-- `QUENCH_CMD`: R158, Table 4.15. -/
def O.QUENCH_CMD : ObjInfo :=
  { name := "QUENCH_CMD", base := 0x5054, count := 1024, ty := .cmd, acc := .cmd, dflt := 0, lo := 0, hi := 18446744073709551615, own := .bench 1, rd := .owner, wr := .owner }

/-- `RESUME_CMD`: R158, Table 4.15. -/
def O.RESUME_CMD : ObjInfo :=
  { name := "RESUME_CMD", base := 0x5058, count := 1024, ty := .cmd, acc := .cmd, dflt := 0, lo := 0, hi := 18446744073709551615, own := .bench 1, rd := .owner, wr := .owner }

/-- `QUENCH_LAST`: R158, Table 4.15. -/
def O.QUENCH_LAST : ObjInfo :=
  { name := "QUENCH_LAST", base := 0x505C, count := 1024, ty := .bits, acc := .ro, dflt := 0, lo := 0, hi := 18446744073709551615, own := .bench 1, rd := .owner, wr := .none }

/-- `QUENCH_LAST_STAMP`: R158, Table 4.15. -/
def O.QUENCH_LAST_STAMP : ObjInfo :=
  { name := "QUENCH_LAST_STAMP", base := 0x5060, count := 1024, ty := .w40, acc := .ro, dflt := 0, lo := 0, hi := 1099511627775, own := .bench 1, rd := .owner, wr := .none }

/-- `SQ_BRANCH_INPUTS`: R158, Table 4.15. -/
def O.SQ_BRANCH_INPUTS : ObjInfo :=
  { name := "SQ_BRANCH_INPUTS", base := 0x5064, count := 8192, ty := .u64, acc := .rw, dflt := 4611756388245323776, lo := 0, hi := 18446744073709551615, own := .sq 64, rd := .owner, wr := .owner }

/-- `SQ_BRANCH_ACTION`: R158, Table 4.15. -/
def O.SQ_BRANCH_ACTION : ObjInfo :=
  { name := "SQ_BRANCH_ACTION", base := 0x5084, count := 8192, ty := .bits, acc := .rw, dflt := 0, lo := 0, hi := 18446744073709551615, own := .sq 64, rd := .owner, wr := .owner }

/-- `SQ_LEVEL_BRANCH`: R158, Table 4.15. -/
def O.SQ_LEVEL_BRANCH : ObjInfo :=
  { name := "SQ_LEVEL_BRANCH", base := 0x50A4, count := 8192, ty := .bits, acc := .rw, dflt := 0, lo := 0, hi := 18446744073709551615, own := .sq 64, rd := .owner, wr := .owner }

/-- `SQ_LEVEL_TIMEOUT`: R158, Table 4.15. -/
def O.SQ_LEVEL_TIMEOUT : ObjInfo :=
  { name := "SQ_LEVEL_TIMEOUT", base := 0x50C4, count := 2048, ty := .u64, acc := .rw, dflt := 281474976710655, lo := 0, hi := 281474976710655, own := .sq 16, rd := .owner, wr := .owner }

/-- `SQ_MARK`: R158, Table 4.15. -/
def O.SQ_MARK : ObjInfo :=
  { name := "SQ_MARK", base := 0x50CC, count := 2048, ty := .bits, acc := .ro, dflt := 0, lo := 0, hi := 18446744073709551615, own := .sq 16, rd := .owner, wr := .none }

/-- `SQ_CNT_CONFIG`: R158, Table 4.15. -/
def O.SQ_CNT_CONFIG : ObjInfo :=
  { name := "SQ_CNT_CONFIG", base := 0x50D4, count := 512, ty := .bits, acc := .rw, dflt := 16384, lo := 0, hi := 18446744073709551615, own := .sq 4, rd := .owner, wr := .owner }

/-- `SQ_CNT_LIMIT`: R158, Table 4.15. -/
def O.SQ_CNT_LIMIT : ObjInfo :=
  { name := "SQ_CNT_LIMIT", base := 0x50D6, count := 512, ty := .u64, acc := .rw, dflt := 281474976710655, lo := 0, hi := 281474976710655, own := .sq 4, rd := .owner, wr := .owner }

/-- `SQ_CNT_VALUE`: R158, Table 4.15. -/
def O.SQ_CNT_VALUE : ObjInfo :=
  { name := "SQ_CNT_VALUE", base := 0x50D8, count := 512, ty := .u64, acc := .ro, dflt := 0, lo := 0, hi := 18446744073709551615, own := .sq 4, rd := .owner, wr := .none }

/-- `TRIG_PULSE_NS`: R158, Table 4.15. -/
def O.TRIG_PULSE_NS : ObjInfo :=
  { name := "TRIG_PULSE_NS", base := 0x50DA, count := 4, ty := .u16, acc := .rw, dflt := 20, lo := 8, hi := 65535, own := .module, rd := .admin, wr := .admin }

/-- `STORE_MODE`: R210, Table 5.6. -/
def O.STORE_MODE : ObjInfo :=
  { name := "STORE_MODE", base := 0x6000, count := 1024, ty := .enum, acc := .rw, dflt := 0, lo := 0, hi := 2, own := .bench 1, rd := .owner, wr := .owner }

/-- `PRE_COUNT`: R210, Table 5.6. -/
def O.PRE_COUNT : ObjInfo :=
  { name := "PRE_COUNT", base := 0x6004, count := 1024, ty := .w40, acc := .rw, dflt := 1099511627775, lo := 0, hi := 1099511627775, own := .bench 1, rd := .owner, wr := .owner }

/-- `POST_COUNT`: R210, Table 5.6. -/
def O.POST_COUNT : ObjInfo :=
  { name := "POST_COUNT", base := 0x6008, count := 1024, ty := .w40, acc := .rw, dflt := 0, lo := 0, hi := 1099511627775, own := .bench 1, rd := .owner, wr := .owner }

/-- `SEGMENT_LIMIT`: R210, Table 5.6. -/
def O.SEGMENT_LIMIT : ObjInfo :=
  { name := "SEGMENT_LIMIT", base := 0x600C, count := 1024, ty := .u16, acc := .rw, dflt := 1, lo := 1, hi := 65535, own := .bench 1, rd := .owner, wr := .owner }

/-- `SEG_FULL_POLICY`: R210, Table 5.6. -/
def O.SEG_FULL_POLICY : ObjInfo :=
  { name := "SEG_FULL_POLICY", base := 0x6010, count := 1024, ty := .enum, acc := .rw, dflt := 0, lo := 0, hi := 1, own := .bench 1, rd := .owner, wr := .owner }

/-- `SYNC_INTERVAL`: R210, Table 5.6. -/
def O.SYNC_INTERVAL : ObjInfo :=
  { name := "SYNC_INTERVAL", base := 0x6014, count := 1024, ty := .u32, acc := .rw, dflt := 65536, lo := 1024, hi := 4294967295, own := .bench 1, rd := .owner, wr := .owner }

/-- `SEG_INDEX`: R210, Table 5.6. -/
def O.SEG_INDEX : ObjInfo :=
  { name := "SEG_INDEX", base := 0x6018, count := 1024, ty := .u16, acc := .ro, dflt := 0, lo := 0, hi := 65535, own := .bench 1, rd := .owner, wr := .none }

/-- `GATE_STATE`: R210, Table 5.6. -/
def O.GATE_STATE : ObjInfo :=
  { name := "GATE_STATE", base := 0x601C, count := 1024, ty := .bits, acc := .ro, dflt := 0, lo := 0, hi := 18446744073709551615, own := .bench 1, rd := .owner, wr := .none }

/-- `SEG_SELECT`: R210, Table 5.6. -/
def O.SEG_SELECT : ObjInfo :=
  { name := "SEG_SELECT", base := 0x6020, count := 1024, ty := .u16, acc := .rw, dflt := 0, lo := 0, hi := 65535, own := .bench 1, rd := .owner, wr := .owner }

/-- `ACQ_END_CAUSE`: R210, Table 5.6. -/
def O.ACQ_END_CAUSE : ObjInfo :=
  { name := "ACQ_END_CAUSE", base := 0x6024, count := 1024, ty := .enum, acc := .ro, dflt := 0, lo := 0, hi := 5, own := .bench 1, rd := .owner, wr := .none }

/-- `STREAM_WEIGHT`: R210, Table 5.6. -/
def O.STREAM_WEIGHT : ObjInfo :=
  { name := "STREAM_WEIGHT", base := 0x6100, count := 16384, ty := .u8, acc := .rw, dflt := 1, lo := 1, hi := 255, own := .bench 16, rd := .owner, wr := .owner }

/-- `STREAM_STATUS`: R210, Table 5.6. -/
def O.STREAM_STATUS : ObjInfo :=
  { name := "STREAM_STATUS", base := 0x6140, count := 16384, ty := .bits, acc := .ro, dflt := 0, lo := 0, hi := 18446744073709551615, own := .bench 16, rd := .owner, wr := .none }

/-- `STREAM_ROWS_LOST`: R210, Table 5.6. -/
def O.STREAM_ROWS_LOST : ObjInfo :=
  { name := "STREAM_ROWS_LOST", base := 0x6180, count := 16384, ty := .u64, acc := .ro, dflt := 0, lo := 0, hi := 18446744073709551615, own := .bench 16, rd := .owner, wr := .none }

/-- `STREAM_CELLS`: R210, Table 5.6. -/
def O.STREAM_CELLS : ObjInfo :=
  { name := "STREAM_CELLS", base := 0x61C0, count := 16384, ty := .u64, acc := .ro, dflt := 0, lo := 0, hi := 18446744073709551615, own := .bench 16, rd := .owner, wr := .none }

/-- `STREAM_EVENTS_LOST`: R210, Table 5.6. -/
def O.STREAM_EVENTS_LOST : ObjInfo :=
  { name := "STREAM_EVENTS_LOST", base := 0x6200, count := 16384, ty := .u64, acc := .ro, dflt := 0, lo := 0, hi := 18446744073709551615, own := .bench 16, rd := .owner, wr := .none }

/-- `SEG_ENTRY`: R210, Table 5.6. -/
def O.SEG_ENTRY : ObjInfo :=
  { name := "SEG_ENTRY", base := 0x6240, count := 4096, ty := .u64, acc := .ro, dflt := 0, lo := 0, hi := 18446744073709551615, own := .bench 4, rd := .owner, wr := .none }

/-- `GOLD_INGOTS`: R243, Table 6.7. -/
def O.GOLD_INGOTS : ObjInfo :=
  { name := "GOLD_INGOTS", base := 0x6028, count := 1024, ty := .u32, acc := .rw, dflt := 0, lo := 0, hi := 4294967295, own := .bench 1, rd := .owner, wr := .owner }

/-- `GOLD_WRITE_DROPPED`: R243, Table 6.7. -/
def O.GOLD_WRITE_DROPPED : ObjInfo :=
  { name := "GOLD_WRITE_DROPPED", base := 0x602C, count := 1024, ty := .u64, acc := .ro, dflt := 0, lo := 0, hi := 18446744073709551615, own := .bench 1, rd := .owner, wr := .none }

/-- `AE_OWNER`: R243, Table 6.7. -/
def O.AE_OWNER : ObjInfo :=
  { name := "AE_OWNER", base := 0x6300, count := 4, ty := .u16, acc := .ro, dflt := 65535, lo := 0, hi := 65535, own := .ae 1, rd := .every, wr := .none }

/-- `AE_CONFIG`: R243, Table 6.7. -/
def O.AE_CONFIG : ObjInfo :=
  { name := "AE_CONFIG", base := 0x6301, count := 4, ty := .bits, acc := .rw, dflt := 0, lo := 0, hi := 18446744073709551615, own := .ae 1, rd := .owner, wr := .owner }

/-- `ALIGN_STAMP`: R243, Table 6.7. -/
def O.ALIGN_STAMP : ObjInfo :=
  { name := "ALIGN_STAMP", base := 0x6302, count := 4, ty := .w40, acc := .rw, dflt := 0, lo := 0, hi := 1099511627775, own := .ae 1, rd := .owner, wr := .owner }

/-- `ALIGN_OFFSET`: R243, Table 6.7. -/
def O.ALIGN_OFFSET : ObjInfo :=
  { name := "ALIGN_OFFSET", base := 0x6303, count := 4, ty := .u32, acc := .rw, dflt := 0, lo := 0, hi := 4294967295, own := .ae 1, rd := .owner, wr := .owner }

/-- `GOLD_FIRST`: R243, Table 6.7. -/
def O.GOLD_FIRST : ObjInfo :=
  { name := "GOLD_FIRST", base := 0x6304, count := 4, ty := .u32, acc := .rw, dflt := 0, lo := 0, hi := 4294967295, own := .ae 1, rd := .owner, wr := .owner }

/-- `GOLD_CELLS`: R243, Table 6.7. -/
def O.GOLD_CELLS : ObjInfo :=
  { name := "GOLD_CELLS", base := 0x6305, count := 4, ty := .u32, acc := .rw, dflt := 0, lo := 0, hi := 4294967295, own := .ae 1, rd := .owner, wr := .owner }

/-- `GOLD_SEAL`: R243, Table 6.7. -/
def O.GOLD_SEAL : ObjInfo :=
  { name := "GOLD_SEAL", base := 0x6306, count := 4, ty := .cmd, acc := .cmd, dflt := 0, lo := 0, hi := 18446744073709551615, own := .ae 1, rd := .owner, wr := .owner }

/-- `GOLD_STATE`: R243, Table 6.7. -/
def O.GOLD_STATE : ObjInfo :=
  { name := "GOLD_STATE", base := 0x6307, count := 4, ty := .enum, acc := .ro, dflt := 0, lo := 0, hi := 4, own := .ae 1, rd := .owner, wr := .none }

/-- `AE_STATE`: R243, Table 6.7. -/
def O.AE_STATE : ObjInfo :=
  { name := "AE_STATE", base := 0x6308, count := 4, ty := .enum, acc := .ro, dflt := 0, lo := 0, hi := 7, own := .ae 1, rd := .owner, wr := .none }

/-- `AE_STATUS`: R243, Table 6.7. -/
def O.AE_STATUS : ObjInfo :=
  { name := "AE_STATUS", base := 0x6309, count := 4, ty := .bits, acc := .ro, dflt := 0, lo := 0, hi := 18446744073709551615, own := .ae 1, rd := .owner, wr := .none }

/-- `AE_ROWS_COMPARED`: R243, Table 6.7. -/
def O.AE_ROWS_COMPARED : ObjInfo :=
  { name := "AE_ROWS_COMPARED", base := 0x630A, count := 4, ty := .u64, acc := .ro, dflt := 0, lo := 0, hi := 18446744073709551615, own := .ae 1, rd := .owner, wr := .none }

/-- `AE_WORDS_COMPARED`: R243, Table 6.7. -/
def O.AE_WORDS_COMPARED : ObjInfo :=
  { name := "AE_WORDS_COMPARED", base := 0x630B, count := 4, ty := .u64, acc := .ro, dflt := 0, lo := 0, hi := 18446744073709551615, own := .ae 1, rd := .owner, wr := .none }

/-- `AE_WORDS_UNCOMPARED`: R243, Table 6.7. -/
def O.AE_WORDS_UNCOMPARED : ObjInfo :=
  { name := "AE_WORDS_UNCOMPARED", base := 0x630C, count := 4, ty := .u64, acc := .ro, dflt := 0, lo := 0, hi := 18446744073709551615, own := .ae 1, rd := .owner, wr := .none }

/-- `AE_DIVERGENT_ROWS`: R243, Table 6.7. -/
def O.AE_DIVERGENT_ROWS : ObjInfo :=
  { name := "AE_DIVERGENT_ROWS", base := 0x630D, count := 4, ty := .u64, acc := .ro, dflt := 0, lo := 0, hi := 18446744073709551615, own := .ae 1, rd := .owner, wr := .none }

/-- `AE_LIST_LEN`: R243, Table 6.7. -/
def O.AE_LIST_LEN : ObjInfo :=
  { name := "AE_LIST_LEN", base := 0x630E, count := 4, ty := .u16, acc := .rw, dflt := 1, lo := 1, hi := 1024, own := .ae 1, rd := .owner, wr := .owner }

/-- `AE_GROUP_LIST`: R243, Table 6.7. -/
def O.AE_GROUP_LIST : ObjInfo :=
  { name := "AE_GROUP_LIST", base := 0x6310, count := 4096, ty := .u16, acc := .rw, dflt := 0, lo := 0, hi := 65535, own := .ae 1024, rd := .owner, wr := .owner }

/-- `AE_MASK`: R243, Table 6.7. -/
def O.AE_MASK : ObjInfo :=
  { name := "AE_MASK", base := 0x6320, count := 65536, ty := .w40, acc := .rw, dflt := 1099511627775, lo := 0, hi := 1099511627775, own := .ae 16384, rd := .owner, wr := .owner }

/-- `AE_REPORT`: R243, Table 6.7. -/
def O.AE_REPORT : ObjInfo :=
  { name := "AE_REPORT", base := 0x6420, count := 800, ty := .u64, acc := .ro, dflt := 0, lo := 0, hi := 18446744073709551615, own := .ae 200, rd := .owner, wr := .none }

/-- `BENCH_DEFINED`: R244, Table 7.1. -/
def O.BENCH_DEFINED : ObjInfo :=
  { name := "BENCH_DEFINED", base := 0x4010, count := 1024, ty := .bool, acc := .ro, dflt := 0, lo := 0, hi := 1, own := .bench 1, rd := .std, wr := .none }

/-- `INGOT_QUOTA`: R244, Table 7.1. -/
def O.INGOT_QUOTA : ObjInfo :=
  { name := "INGOT_QUOTA", base := 0x4014, count := 1024, ty := .u32, acc := .ro, dflt := 0, lo := 0, hi := 4294967295, own := .bench 1, rd := .std, wr := .none }

/-- `CELL_RESERVE`: R244, Table 7.1. -/
def O.CELL_RESERVE : ObjInfo :=
  { name := "CELL_RESERVE", base := 0x4018, count := 1024, ty := .u32, acc := .ro, dflt := 0, lo := 0, hi := 4294967295, own := .bench 1, rd := .std, wr := .none }

/-- `CELL_LIMIT`: R244, Table 7.1. -/
def O.CELL_LIMIT : ObjInfo :=
  { name := "CELL_LIMIT", base := 0x401C, count := 1024, ty := .u32, acc := .ro, dflt := 0, lo := 0, hi := 4294967295, own := .bench 1, rd := .std, wr := .none }

/-- `QUEUE_QUOTA`: R244, Table 7.1. -/
def O.QUEUE_QUOTA : ObjInfo :=
  { name := "QUEUE_QUOTA", base := 0x4020, count := 1024, ty := .u16, acc := .ro, dflt := 0, lo := 0, hi := 65535, own := .bench 1, rd := .std, wr := .none }

/-- `PRIORITY`: R244, Table 7.1. -/
def O.PRIORITY : ObjInfo :=
  { name := "PRIORITY", base := 0x4024, count := 1024, ty := .u8, acc := .ro, dflt := 4, lo := 0, hi := 7, own := .bench 1, rd := .std, wr := .none }

/-- `BENCH_RIGHTS`: R244, Table 7.1. -/
def O.BENCH_RIGHTS : ObjInfo :=
  { name := "BENCH_RIGHTS", base := 0x4028, count := 1024, ty := .bits, acc := .ro, dflt := 0, lo := 0, hi := 18446744073709551615, own := .bench 1, rd := .std, wr := .none }

/-- `TRIG_PIN_OWNER`: R244, Table 7.1. -/
def O.TRIG_PIN_OWNER : ObjInfo :=
  { name := "TRIG_PIN_OWNER", base := 0x4030, count := 4, ty := .u16, acc := .ro, dflt := 65535, lo := 0, hi := 65535, own := .pin, rd := .std, wr := .none }

/-- `GROUP_OWNER`: R244, Table 7.1. -/
def O.GROUP_OWNER : ObjInfo :=
  { name := "GROUP_OWNER", base := 0x4040, count := 65536, ty := .u16, acc := .ro, dflt := 65535, lo := 0, hi := 65535, own := .group, rd := .std, wr := .none }

/-- `PORT_OWNER`: R244, Table 7.1. -/
def O.PORT_OWNER : ObjInfo :=
  { name := "PORT_OWNER", base := 0x4140, count := 32, ty := .u16, acc := .ro, dflt := 65535, lo := 0, hi := 65535, own := .port, rd := .std, wr := .none }

/-- `FUNC_BINDING`: R244, Table 7.1. -/
def O.FUNC_BINDING : ObjInfo :=
  { name := "FUNC_BINDING", base := 0x4180, count := 1024, ty := .u16, acc := .ro, dflt := 65535, lo := 0, hi := 65535, own := .func, rd := .std, wr := .none }

/-- `PRINC_IDENT`: R244, Table 7.1. -/
def O.PRINC_IDENT : ObjInfo :=
  { name := "PRINC_IDENT", base := 0x4200, count := 2048, ty := .bits, acc := .ro, dflt := 0, lo := 0, hi := 18446744073709551615, own := .module, rd := .std, wr := .none }

/-- `PRINC_RIGHTS`: R244, Table 7.1. -/
def O.PRINC_RIGHTS : ObjInfo :=
  { name := "PRINC_RIGHTS", base := 0x4208, count := 2048, ty := .bits, acc := .ro, dflt := 0, lo := 0, hi := 18446744073709551615, own := .module, rd := .std, wr := .none }

/-- `PRINC_KEY`: R244, Table 7.1. -/
def O.PRINC_KEY : ObjInfo :=
  { name := "PRINC_KEY", base := 0x4210, count := 16384, ty := .u64, acc := .ro, dflt := 0, lo := 0, hi := 18446744073709551615, own := .module, rd := .std, wr := .none }

/-- `LOCK_BENCH`: R244, Table 7.1. -/
def O.LOCK_BENCH : ObjInfo :=
  { name := "LOCK_BENCH", base := 0x4305, count := 256, ty := .u16, acc := .ro, dflt := 65535, lo := 0, hi := 65535, own := .lock, rd := .std, wr := .none }

/-- `PROP_EXPIRY_S`: R244, Table 7.1. -/
def O.PROP_EXPIRY_S : ObjInfo :=
  { name := "PROP_EXPIRY_S", base := 0x4410, count := 1, ty := .u16, acc := .ro, dflt := 60, lo := 10, hi := 3600, own := .module, rd := .std, wr := .none }

/-- `BENCH_STATE`: R275, Table 7.9. -/
def O.BENCH_STATE : ObjInfo :=
  { name := "BENCH_STATE", base := 0x4000, count := 1024, ty := .enum, acc := .ro, dflt := 0, lo := 0, hi := 4, own := .bench 1, rd := .std, wr := .none }

/-- `BENCH_CMD`: R275, Table 7.9. -/
def O.BENCH_CMD : ObjInfo :=
  { name := "BENCH_CMD", base := 0x4004, count := 1024, ty := .cmd, acc := .cmd, dflt := 0, lo := 0, hi := 18446744073709551615, own := .bench 1, rd := .std, wr := .owner }

/-- `BENCH_STATUS`: R275, Table 7.9. -/
def O.BENCH_STATUS : ObjInfo :=
  { name := "BENCH_STATUS", base := 0x4008, count := 1024, ty := .bits, acc := .ro, dflt := 0, lo := 0, hi := 18446744073709551615, own := .bench 1, rd := .std, wr := .none }

/-- `FUNC_LOSS_POLICY`: R275, Table 7.9. -/
def O.FUNC_LOSS_POLICY : ObjInfo :=
  { name := "FUNC_LOSS_POLICY", base := 0x400C, count := 1024, ty := .enum, acc := .rw, dflt := 0, lo := 0, hi := 1, own := .bench 1, rd := .std, wr := .owner }

/-- `ARMED_COUNT`: R275, Table 7.9. -/
def O.ARMED_COUNT : ObjInfo :=
  { name := "ARMED_COUNT", base := 0x4150, count := 1, ty := .u16, acc := .ro, dflt := 0, lo := 0, hi := 65535, own := .module, rd := .std, wr := .none }

/-- `LOCK_STATE`: R275, Table 7.9. -/
def O.LOCK_STATE : ObjInfo :=
  { name := "LOCK_STATE", base := 0x4300, count := 256, ty := .bits, acc := .ro, dflt := 0, lo := 0, hi := 18446744073709551615, own := .lock, rd := .std, wr := .none }

/-- `LOCK_ACQUIRE`: R275, Table 7.9. -/
def O.LOCK_ACQUIRE : ObjInfo :=
  { name := "LOCK_ACQUIRE", base := 0x4301, count := 256, ty := .cmd, acc := .cmd, dflt := 0, lo := 0, hi := 18446744073709551615, own := .lock, rd := .std, wr := .lock }

/-- `LOCK_RELEASE`: R275, Table 7.9. -/
def O.LOCK_RELEASE : ObjInfo :=
  { name := "LOCK_RELEASE", base := 0x4302, count := 256, ty := .cmd, acc := .cmd, dflt := 0, lo := 0, hi := 18446744073709551615, own := .lock, rd := .std, wr := .lock }

/-- `LOCK_RENEW`: R275, Table 7.9. -/
def O.LOCK_RENEW : ObjInfo :=
  { name := "LOCK_RENEW", base := 0x4303, count := 256, ty := .cmd, acc := .cmd, dflt := 0, lo := 0, hi := 18446744073709551615, own := .lock, rd := .std, wr := .lock }

/-- `LOCK_BREAK`: R275, Table 7.9. -/
def O.LOCK_BREAK : ObjInfo :=
  { name := "LOCK_BREAK", base := 0x4304, count := 256, ty := .cmd, acc := .cmd, dflt := 0, lo := 0, hi := 18446744073709551615, own := .lock, rd := .std, wr := .admin }

/-- `PROP_BODY`: R275, Table 7.9. -/
def O.PROP_BODY : ObjInfo :=
  { name := "PROP_BODY", base := 0x4400, count := 2048, ty := .u64, acc := .rw, dflt := 0, lo := 0, hi := 18446744073709551615, own := .module, rd := .custAdmin, wr := .custAdmin }

/-- `PROP_LEN`: R275, Table 7.9. -/
def O.PROP_LEN : ObjInfo :=
  { name := "PROP_LEN", base := 0x4408, count := 1, ty := .u16, acc := .rw, dflt := 0, lo := 1, hi := 1024, own := .module, rd := .custAdmin, wr := .custAdmin }

/-- `PROP_SIG`: R275, Table 7.9. -/
def O.PROP_SIG : ObjInfo :=
  { name := "PROP_SIG", base := 0x4409, count := 8, ty := .u64, acc := .rw, dflt := 0, lo := 0, hi := 18446744073709551615, own := .module, rd := .custAdmin, wr := .custAdmin }

/-- `PROP_SUBMIT`: R275, Table 7.9. -/
def O.PROP_SUBMIT : ObjInfo :=
  { name := "PROP_SUBMIT", base := 0x440A, count := 1, ty := .cmd, acc := .cmd, dflt := 0, lo := 0, hi := 18446744073709551615, own := .module, rd := .std, wr := .custAdmin }

/-- `PROP_DIGEST`: R275, Table 7.9. -/
def O.PROP_DIGEST : ObjInfo :=
  { name := "PROP_DIGEST", base := 0x440B, count := 6, ty := .u64, acc := .ro, dflt := 0, lo := 0, hi := 18446744073709551615, own := .module, rd := .custAdmin, wr := .none }

/-- `PROP_STATUS`: R275, Table 7.9. -/
def O.PROP_STATUS : ObjInfo :=
  { name := "PROP_STATUS", base := 0x440C, count := 1, ty := .bits, acc := .ro, dflt := 0, lo := 0, hi := 18446744073709551615, own := .module, rd := .custAdmin, wr := .none }

/-- `CSIGN_SIG`: R275, Table 7.9. -/
def O.CSIGN_SIG : ObjInfo :=
  { name := "CSIGN_SIG", base := 0x440D, count := 8, ty := .u64, acc := .rw, dflt := 0, lo := 0, hi := 18446744073709551615, own := .module, rd := .custAdmin, wr := .custAdmin }

/-- `PROP_COUNTERSIGN`: R275, Table 7.9. -/
def O.PROP_COUNTERSIGN : ObjInfo :=
  { name := "PROP_COUNTERSIGN", base := 0x440E, count := 1, ty := .cmd, acc := .cmd, dflt := 0, lo := 0, hi := 18446744073709551615, own := .module, rd := .std, wr := .custAdmin }

/-- `PROP_CANCEL`: R275, Table 7.9. -/
def O.PROP_CANCEL : ObjInfo :=
  { name := "PROP_CANCEL", base := 0x440F, count := 1, ty := .cmd, acc := .cmd, dflt := 0, lo := 0, hi := 18446744073709551615, own := .module, rd := .std, wr := .custAdmin }

/-- `PROP_SEQ`: R275, Table 7.9. -/
def O.PROP_SEQ : ObjInfo :=
  { name := "PROP_SEQ", base := 0x4411, count := 1, ty := .u32, acc := .ro, dflt := 0, lo := 0, hi := 4294967295, own := .module, rd := .custAdmin, wr := .none }

/-- `POOL_MODE`: R312, Table 8.6. -/
def O.POOL_MODE : ObjInfo :=
  { name := "POOL_MODE", base := 0x7000, count := 1, ty := .enum, acc := .ro, dflt := 0, lo := 0, hi := 1, own := .module, rd := .std, wr := .none }

/-- `POOL_PARTITION_EXCL`: R312, Table 8.6. -/
def O.POOL_PARTITION_EXCL : ObjInfo :=
  { name := "POOL_PARTITION_EXCL", base := 0x7001, count := 1, ty := .bool, acc := .rw, dflt := 0, lo := 0, hi := 1, own := .module, rd := .std, wr := .admin }

/-- `POOL_FREE`: R312, Table 8.6. -/
def O.POOL_FREE : ObjInfo :=
  { name := "POOL_FREE", base := 0x7002, count := 1, ty := .u32, acc := .ro, dflt := 262144, lo := 0, hi := 4294967295, own := .module, rd := .std, wr := .none }

/-- `POOL_BANKS`: R312, Table 8.6. -/
def O.POOL_BANKS : ObjInfo :=
  { name := "POOL_BANKS", base := 0x7003, count := 1, ty := .bits, acc := .ro, dflt := 0, lo := 0, hi := 18446744073709551615, own := .module, rd := .std, wr := .none }

/-- `POOL_REPAIR`: R312, Table 8.6. -/
def O.POOL_REPAIR : ObjInfo :=
  { name := "POOL_REPAIR", base := 0x7004, count := 1, ty := .bits, acc := .ro, dflt := 0, lo := 0, hi := 18446744073709551615, own := .module, rd := .std, wr := .none }

/-- `STORE_BACKLOG`: R312, Table 8.6. -/
def O.STORE_BACKLOG : ObjInfo :=
  { name := "STORE_BACKLOG", base := 0x7005, count := 1, ty := .u16, acc := .rw, dflt := 256, lo := 64, hi := 4096, own := .module, rd := .std, wr := .admin }

/-- `Q_CLAIM`: R312, Table 8.6. -/
def O.Q_CLAIM : ObjInfo :=
  { name := "Q_CLAIM", base := 0x7010, count := 1024, ty := .cmd, acc := .cmd, dflt := 0, lo := 0, hi := 18446744073709551615, own := .bench 1, rd := .owner, wr := .owner }

/-- `Q_RELEASE`: R312, Table 8.6. -/
def O.Q_RELEASE : ObjInfo :=
  { name := "Q_RELEASE", base := 0x7014, count := 1024, ty := .cmd, acc := .cmd, dflt := 0, lo := 0, hi := 18446744073709551615, own := .bench 1, rd := .owner, wr := .owner }

/-- `EVENT_QUEUE`: R312, Table 8.6. -/
def O.EVENT_QUEUE : ObjInfo :=
  { name := "EVENT_QUEUE", base := 0x7018, count := 1024, ty := .u16, acc := .rw, dflt := 65535, lo := 0, hi := 65535, own := .bench 1, rd := .owner, wr := .owner }

/-- `BENCH_CELLS`: R312, Table 8.6. -/
def O.BENCH_CELLS : ObjInfo :=
  { name := "BENCH_CELLS", base := 0x701C, count := 1024, ty := .u32, acc := .ro, dflt := 0, lo := 0, hi := 4294967295, own := .bench 1, rd := .owner, wr := .none }

/-- `ALLOC_REFUSED`: R312, Table 8.6. -/
def O.ALLOC_REFUSED : ObjInfo :=
  { name := "ALLOC_REFUSED", base := 0x7020, count := 1024, ty := .u64, acc := .ro, dflt := 0, lo := 0, hi := 18446744073709551615, own := .bench 1, rd := .owner, wr := .none }

/-- `EVENT_MSG_LOST`: R312, Table 8.6. -/
def O.EVENT_MSG_LOST : ObjInfo :=
  { name := "EVENT_MSG_LOST", base := 0x7024, count := 1024, ty := .u64, acc := .ro, dflt := 0, lo := 0, hi := 18446744073709551615, own := .bench 1, rd := .owner, wr := .none }

/-- `Q_CONFIG`: R312, Table 8.6. -/
def O.Q_CONFIG : ObjInfo :=
  { name := "Q_CONFIG", base := 0x7100, count := 16384, ty := .bits, acc := .rw, dflt := 0, lo := 0, hi := 18446744073709551615, own := .queue, rd := .owner, wr := .owner }

/-- `Q_OWNER`: R312, Table 8.6. -/
def O.Q_OWNER : ObjInfo :=
  { name := "Q_OWNER", base := 0x7140, count := 16384, ty := .u16, acc := .ro, dflt := 65535, lo := 0, hi := 65535, own := .queue, rd := .owner, wr := .none }

/-- `Q_STATE`: R312, Table 8.6. -/
def O.Q_STATE : ObjInfo :=
  { name := "Q_STATE", base := 0x7180, count := 16384, ty := .bits, acc := .ro, dflt := 0, lo := 0, hi := 18446744073709551615, own := .queue, rd := .owner, wr := .none }

/-- `Q_PROD`: R312, Table 8.6. -/
def O.Q_PROD : ObjInfo :=
  { name := "Q_PROD", base := 0x71C0, count := 16384, ty := .u32, acc := .ro, dflt := 0, lo := 0, hi := 4294967295, own := .queue, rd := .owner, wr := .none }

/-- `Q_CONS`: R312, Table 8.6. -/
def O.Q_CONS : ObjInfo :=
  { name := "Q_CONS", base := 0x7200, count := 16384, ty := .u32, acc := .ro, dflt := 0, lo := 0, hi := 4294967295, own := .queue, rd := .owner, wr := .none }

/-- `Q_POP`: R312, Table 8.6. -/
def O.Q_POP : ObjInfo :=
  { name := "Q_POP", base := 0x7240, count := 16384, ty := .u64, acc := .rc, dflt := 0, lo := 0, hi := 18446744073709551615, own := .queue, rd := .owner, wr := .none }

/-- `Q_LOST`: R312, Table 8.6. -/
def O.Q_LOST : ObjInfo :=
  { name := "Q_LOST", base := 0x7280, count := 16384, ty := .u64, acc := .ro, dflt := 0, lo := 0, hi := 18446744073709551615, own := .queue, rd := .owner, wr := .none }

/-- `Q_FLUSH`: R312, Table 8.6. -/
def O.Q_FLUSH : ObjInfo :=
  { name := "Q_FLUSH", base := 0x72C0, count := 16384, ty := .cmd, acc := .cmd, dflt := 0, lo := 0, hi := 18446744073709551615, own := .queue, rd := .owner, wr := .owner }

/-- `Q_RESET`: R312, Table 8.6. -/
def O.Q_RESET : ObjInfo :=
  { name := "Q_RESET", base := 0x7300, count := 16384, ty := .cmd, acc := .cmd, dflt := 0, lo := 0, hi := 18446744073709551615, own := .queue, rd := .owner, wr := .owner }

/-- `Q_DISCARDED`: R312, Table 8.6. -/
def O.Q_DISCARDED : ObjInfo :=
  { name := "Q_DISCARDED", base := 0x7340, count := 16384, ty := .u64, acc := .ro, dflt := 0, lo := 0, hi := 18446744073709551615, own := .queue, rd := .owner, wr := .none }

/-- `STORE_STATE`: R351, Table 9.9. -/
def O.STORE_STATE : ObjInfo :=
  { name := "STORE_STATE", base := 0x8000, count := 1, ty := .enum, acc := .ro, dflt := 0, lo := 0, hi := 4, own := .module, rd := .std, wr := .none }

/-- `SPARE_COUNT`: R351, Table 9.9. -/
def O.SPARE_COUNT : ObjInfo :=
  { name := "SPARE_COUNT", base := 0x8001, count := 1, ty := .u8, acc := .rw, dflt := 2, lo := 0, hi := 4, own := .module, rd := .std, wr := .admin }

/-- `TRACE_INGOTS`: R351, Table 9.9. -/
def O.TRACE_INGOTS : ObjInfo :=
  { name := "TRACE_INGOTS", base := 0x8002, count := 1, ty := .u32, acc := .ro, dflt := 360448, lo := 0, hi := 4294967295, own := .module, rd := .std, wr := .none }

/-- `STORE_SPEED`: R351, Table 9.9. -/
def O.STORE_SPEED : ObjInfo :=
  { name := "STORE_SPEED", base := 0x8003, count := 1, ty := .enum, acc := .rw, dflt := 0, lo := 0, hi := 1, own := .module, rd := .std, wr := .admin }

/-- `RANK_IDLE_NS`: R351, Table 9.9. -/
def O.RANK_IDLE_NS : ObjInfo :=
  { name := "RANK_IDLE_NS", base := 0x8004, count := 1, ty := .u32, acc := .rw, dflt := 10000, lo := 1000, hi := 1000000, own := .module, rd := .std, wr := .admin }

/-- `CE_RETIRE_LIMIT`: R351, Table 9.9. -/
def O.CE_RETIRE_LIMIT : ObjInfo :=
  { name := "CE_RETIRE_LIMIT", base := 0x8005, count := 1, ty := .u32, acc := .rw, dflt := 1000, lo := 0, hi := 4294967295, own := .module, rd := .std, wr := .admin }

/-- `RANK_RETIRE`: R351, Table 9.9. -/
def O.RANK_RETIRE : ObjInfo :=
  { name := "RANK_RETIRE", base := 0x8006, count := 1, ty := .cmd, acc := .cmd, dflt := 0, lo := 0, hi := 18446744073709551615, own := .module, rd := .std, wr := .admin }

/-- `MIG_STATUS`: R351, Table 9.9. -/
def O.MIG_STATUS : ObjInfo :=
  { name := "MIG_STATUS", base := 0x8007, count := 1, ty := .bits, acc := .ro, dflt := 0, lo := 0, hi := 18446744073709551615, own := .module, rd := .std, wr := .none }

/-- `DELAY_TABLE_ID`: R351, Table 9.9. -/
def O.DELAY_TABLE_ID : ObjInfo :=
  { name := "DELAY_TABLE_ID", base := 0x8008, count := 1, ty := .u32, acc := .ro, dflt := 0, lo := 0, hi := 4294967295, own := .module, rd := .std, wr := .none }

/-- `NEIGHBOUR_REFRESHES`: R351, Table 9.9. -/
def O.NEIGHBOUR_REFRESHES : ObjInfo :=
  { name := "NEIGHBOUR_REFRESHES", base := 0x8009, count := 1, ty := .u64, acc := .ro, dflt := 0, lo := 0, hi := 18446744073709551615, own := .module, rd := .std, wr := .none }

/-- `POISON_COUNT`: R351, Table 9.9. -/
def O.POISON_COUNT : ObjInfo :=
  { name := "POISON_COUNT", base := 0x800A, count := 1, ty := .u64, acc := .ro, dflt := 0, lo := 0, hi := 18446744073709551615, own := .module, rd := .std, wr := .none }

/-- `POISON_LIST_CLEAR`: R351, Table 9.9. -/
def O.POISON_LIST_CLEAR : ObjInfo :=
  { name := "POISON_LIST_CLEAR", base := 0x800B, count := 1, ty := .cmd, acc := .cmd, dflt := 0, lo := 0, hi := 18446744073709551615, own := .module, rd := .std, wr := .admin }

/-- `DELAY_LOAD`: R351, Table 9.9. -/
def O.DELAY_LOAD : ObjInfo :=
  { name := "DELAY_LOAD", base := 0x800C, count := 1, ty := .cmd, acc := .cmd, dflt := 0, lo := 0, hi := 18446744073709551615, own := .module, rd := .std, wr := .service }

/-- `RANK_STATE`: R351, Table 9.9. -/
def O.RANK_STATE : ObjInfo :=
  { name := "RANK_STATE", base := 0x8020, count := 32, ty := .enum, acc := .ro, dflt := 0, lo := 0, hi := 5, own := .module, rd := .std, wr := .none }

/-- `RANK_CE`: R351, Table 9.9. -/
def O.RANK_CE : ObjInfo :=
  { name := "RANK_CE", base := 0x8040, count := 32, ty := .u64, acc := .ro, dflt := 0, lo := 0, hi := 18446744073709551615, own := .module, rd := .std, wr := .none }

/-- `RANK_UE`: R351, Table 9.9. -/
def O.RANK_UE : ObjInfo :=
  { name := "RANK_UE", base := 0x8060, count := 32, ty := .u64, acc := .ro, dflt := 0, lo := 0, hi := 18446744073709551615, own := .module, rd := .std, wr := .none }

/-- `RAW_COMPAT`: R351, Table 9.9. -/
def O.RAW_COMPAT : ObjInfo :=
  { name := "RAW_COMPAT", base := 0x80A0, count := 1024, ty := .bool, acc := .rw, dflt := 0, lo := 0, hi := 1, own := .func, rd := .owner, wr := .owner }

/-- `STORE_WRITE_DROPPED`: R351, Table 9.9. -/
def O.STORE_WRITE_DROPPED : ObjInfo :=
  { name := "STORE_WRITE_DROPPED", base := 0x80B0, count := 1024, ty := .u64, acc := .ro, dflt := 0, lo := 0, hi := 18446744073709551615, own := .bench 1, rd := .owner, wr := .none }

/-- `POISON_LIST`: R351, Table 9.9. -/
def O.POISON_LIST : ObjInfo :=
  { name := "POISON_LIST", base := 0x8100, count := 4096, ty := .u64, acc := .ro, dflt := 0, lo := 0, hi := 18446744073709551615, own := .module, rd := .std, wr := .none }

/-- `INGOT_DIR`: R351, Table 9.9. -/
def O.INGOT_DIR : ObjInfo :=
  { name := "INGOT_DIR", base := 0xE400, count := 770048, ty := .u64, acc := .ro, dflt := 0, lo := 0, hi := 18446744073709551615, own := .caller, rd := .every, wr := .none }

/-- `WIN_STATUS`: R365, Table 10.6. -/
def O.WIN_STATUS : ObjInfo :=
  { name := "WIN_STATUS", base := 0xE000, count := 1, ty := .bits, acc := .ro, dflt := 0, lo := 0, hi := 18446744073709551615, own := .caller, rd := .every, wr := .none }

/-- `LOCAL_BENCH`: R365, Table 10.6. -/
def O.LOCAL_BENCH : ObjInfo :=
  { name := "LOCAL_BENCH", base := 0xE001, count := 1, ty := .u16, acc := .ro, dflt := 0, lo := 0, hi := 65535, own := .caller, rd := .every, wr := .none }

/-- `CAS_EXPECT`: R365, Table 10.6. -/
def O.CAS_EXPECT : ObjInfo :=
  { name := "CAS_EXPECT", base := 0xE002, count := 1, ty := .bits, acc := .rw, dflt := 0, lo := 0, hi := 18446744073709551615, own := .caller, rd := .every, wr := .every }

/-- `CC_REF`: R365, Table 10.6. -/
def O.CC_REF : ObjInfo :=
  { name := "CC_REF", base := 0xE003, count := 1, ty := .addr, acc := .rw, dflt := 0, lo := 0, hi := 18446744073709551615, own := .caller, rd := .every, wr := .every }

/-- `CC_VALUE`: R365, Table 10.6. -/
def O.CC_VALUE : ObjInfo :=
  { name := "CC_VALUE", base := 0xE004, count := 1, ty := .u32, acc := .ro, dflt := 0, lo := 0, hi := 4294967295, own := .caller, rd := .every, wr := .none }

/-- `RELAY_REF`: R365, Table 10.6. -/
def O.RELAY_REF : ObjInfo :=
  { name := "RELAY_REF", base := 0xE008, count := 1, ty := .addr, acc := .rw, dflt := 0, lo := 0, hi := 18446744073709551615, own := .caller, rd := .every, wr := .every }

/-- `RELAY_DATA`: R365, Table 10.6. -/
def O.RELAY_DATA : ObjInfo :=
  { name := "RELAY_DATA", base := 0xE009, count := 1, ty := .u64, acc := .rw, dflt := 0, lo := 0, hi := 18446744073709551615, own := .caller, rd := .every, wr := .every }

/-- `RELAY_STEP`: R365, Table 10.6. -/
def O.RELAY_STEP : ObjInfo :=
  { name := "RELAY_STEP", base := 0xE00A, count := 1, ty := .u8, acc := .rw, dflt := 1, lo := 0, hi := 255, own := .caller, rd := .every, wr := .every }

/-- `MODULE_SERIAL`: R386, Table 10.12. -/
def O.MODULE_SERIAL : ObjInfo :=
  { name := "MODULE_SERIAL", base := 0x0002, count := 1, ty := .u64, acc := .ro, dflt := 0, lo := 0, hi := 18446744073709551615, own := .module, rd := .every, wr := .none }

/-- `DEVICE_KEY`: R386, Table 10.12. -/
def O.DEVICE_KEY : ObjInfo :=
  { name := "DEVICE_KEY", base := 0x0010, count := 8, ty := .u64, acc := .ro, dflt := 0, lo := 0, hi := 18446744073709551615, own := .module, rd := .every, wr := .none }

/-- `CAT_COUNT`: R386, Table 10.12. -/
def O.CAT_COUNT : ObjInfo :=
  { name := "CAT_COUNT", base := 0x0020, count := 1, ty := .u16, acc := .ro, dflt := 0, lo := 0, hi := 65535, own := .module, rd := .every, wr := .none }

/-- `CAT_ENTRY`: R386, Table 10.12. -/
def O.CAT_ENTRY : ObjInfo :=
  { name := "CAT_ENTRY", base := 0x0100, count := 16384, ty := .u64, acc := .ro, dflt := 0, lo := 0, hi := 18446744073709551615, own := .module, rd := .every, wr := .none }

/-- `MODULE_MODE`: R386, Table 10.12. -/
def O.MODULE_MODE : ObjInfo :=
  { name := "MODULE_MODE", base := 0x1000, count := 1, ty := .enum, acc := .ro, dflt := 0, lo := 0, hi := 11, own := .module, rd := .std, wr := .none }

/-- `NET_LINK_MODE`: R386, Table 10.12. -/
def O.NET_LINK_MODE : ObjInfo :=
  { name := "NET_LINK_MODE", base := 0xA000, count := 2, ty := .enum, acc := .rw, dflt := 2, lo := 0, hi := 2, own := .module, rd := .std, wr := .adminService }

/-- `NET_FEC`: R386, Table 10.12. -/
def O.NET_FEC : ObjInfo :=
  { name := "NET_FEC", base := 0xA001, count := 2, ty := .enum, acc := .rw, dflt := 2, lo := 0, hi := 2, own := .module, rd := .std, wr := .adminService }

/-- `NET_LINK_STATE`: R386, Table 10.12. -/
def O.NET_LINK_STATE : ObjInfo :=
  { name := "NET_LINK_STATE", base := 0xA002, count := 2, ty := .enum, acc := .ro, dflt := 0, lo := 0, hi := 1, own := .module, rd := .std, wr := .none }

/-- `NET_MAC`: R386, Table 10.12. -/
def O.NET_MAC : ObjInfo :=
  { name := "NET_MAC", base := 0xA003, count := 2, ty := .u64, acc := .ro, dflt := 0, lo := 0, hi := 18446744073709551615, own := .module, rd := .std, wr := .none }

/-- `NET_IPV4`: R386, Table 10.12. -/
def O.NET_IPV4 : ObjInfo :=
  { name := "NET_IPV4", base := 0xA004, count := 2, ty := .bits, acc := .rw, dflt := 0, lo := 0, hi := 18446744073709551615, own := .module, rd := .std, wr := .adminService }

/-- `NET_IPV4_GW`: R386, Table 10.12. -/
def O.NET_IPV4_GW : ObjInfo :=
  { name := "NET_IPV4_GW", base := 0xA005, count := 2, ty := .u32, acc := .rw, dflt := 0, lo := 0, hi := 4294967295, own := .module, rd := .std, wr := .adminService }

/-- `NET_IPV6`: R386, Table 10.12. -/
def O.NET_IPV6 : ObjInfo :=
  { name := "NET_IPV6", base := 0xA006, count := 4, ty := .u64, acc := .rw, dflt := 0, lo := 0, hi := 18446744073709551615, own := .module, rd := .std, wr := .adminService }

/-- `NET_IPV6_CFG`: R386, Table 10.12. -/
def O.NET_IPV6_CFG : ObjInfo :=
  { name := "NET_IPV6_CFG", base := 0xA007, count := 2, ty := .bits, acc := .rw, dflt := 0, lo := 0, hi := 18446744073709551615, own := .module, rd := .std, wr := .adminService }

/-- `NET_VDP_ENABLE`: R386, Table 10.12. -/
def O.NET_VDP_ENABLE : ObjInfo :=
  { name := "NET_VDP_ENABLE", base := 0xA008, count := 2, ty := .bool, acc := .rw, dflt := 1, lo := 0, hi := 1, own := .module, rd := .std, wr := .adminService }

/-- `NET_APPLY`: R386, Table 10.12. -/
def O.NET_APPLY : ObjInfo :=
  { name := "NET_APPLY", base := 0xA00F, count := 2, ty := .cmd, acc := .cmd, dflt := 0, lo := 0, hi := 18446744073709551615, own := .module, rd := .std, wr := .adminService }

/-- `VDP_SESSIONS`: R386, Table 10.12. -/
def O.VDP_SESSIONS : ObjInfo :=
  { name := "VDP_SESSIONS", base := 0xA010, count := 1, ty := .u16, acc := .ro, dflt := 0, lo := 0, hi := 65535, own := .module, rd := .std, wr := .none }

/-- `VDP_HELLO_DROPPED`: R386, Table 10.12. -/
def O.VDP_HELLO_DROPPED : ObjInfo :=
  { name := "VDP_HELLO_DROPPED", base := 0xA011, count := 1, ty := .u64, acc := .ro, dflt := 0, lo := 0, hi := 18446744073709551615, own := .module, rd := .std, wr := .none }

/-- `VDP_PKT_DROPPED`: R386, Table 10.12. -/
def O.VDP_PKT_DROPPED : ObjInfo :=
  { name := "VDP_PKT_DROPPED", base := 0xA012, count := 1, ty := .u64, acc := .ro, dflt := 0, lo := 0, hi := 18446744073709551615, own := .module, rd := .std, wr := .none }

/-- `VDP_IDLE_S`: R386, Table 10.12. -/
def O.VDP_IDLE_S : ObjInfo :=
  { name := "VDP_IDLE_S", base := 0xA013, count := 1, ty := .u16, acc := .rw, dflt := 30, lo := 5, hi := 600, own := .module, rd := .std, wr := .admin }

/-- `NET_DROPPED`: R386, Table 10.12. -/
def O.NET_DROPPED : ObjInfo :=
  { name := "NET_DROPPED", base := 0xA014, count := 2, ty := .u64, acc := .ro, dflt := 0, lo := 0, hi := 18446744073709551615, own := .module, rd := .std, wr := .none }

/-- `SESSION_INFO`: R386, Table 10.12. -/
def O.SESSION_INFO : ObjInfo :=
  { name := "SESSION_INFO", base := 0xA020, count := 64, ty := .bits, acc := .ro, dflt := 0, lo := 0, hi := 18446744073709551615, own := .module, rd := .std, wr := .none }

/-- `SESSION_CLOSE`: R386, Table 10.12. -/
def O.SESSION_CLOSE : ObjInfo :=
  { name := "SESSION_CLOSE", base := 0xA030, count := 1, ty := .cmd, acc := .cmd, dflt := 0, lo := 0, hi := 18446744073709551615, own := .module, rd := .std, wr := .admin }

/-- `HP_LINK`: R423, Table 11.8. -/
def O.HP_LINK : ObjInfo :=
  { name := "HP_LINK", base := 0x9000, count := 4, ty := .bits, acc := .ro, dflt := 0, lo := 0, hi := 18446744073709551615, own := .module, rd := .std, wr := .none }

/-- `SUBSYS_ID`: R423, Table 11.8. -/
def O.SUBSYS_ID : ObjInfo :=
  { name := "SUBSYS_ID", base := 0x9004, count := 4, ty := .u32, acc := .rw, dflt := 8091, lo := 0, hi := 4294967295, own := .module, rd := .std, wr := .admin }

/-- `INT_PENDING`: R423, Table 11.8. -/
def O.INT_PENDING : ObjInfo :=
  { name := "INT_PENDING", base := 0x9008, count := 4, ty := .bits, acc := .w1c, dflt := 0, lo := 0, hi := 18446744073709551615, own := .module, rd := .std, wr := .admin }

/-- `INT_MASK`: R423, Table 11.8. -/
def O.INT_MASK : ObjInfo :=
  { name := "INT_MASK", base := 0x900C, count := 4, ty := .bits, acc := .rw, dflt := 0, lo := 0, hi := 18446744073709551615, own := .module, rd := .std, wr := .admin }

/-- `EVENT_VECTOR`: R423, Table 11.8. -/
def O.EVENT_VECTOR : ObjInfo :=
  { name := "EVENT_VECTOR", base := 0x9010, count := 4, ty := .u16, acc := .rw, dflt := 2047, lo := 0, hi := 2047, own := .module, rd := .std, wr := .admin }

/-- `FUNC_STATE`: R423, Table 11.8. -/
def O.FUNC_STATE : ObjInfo :=
  { name := "FUNC_STATE", base := 0x9020, count := 1024, ty := .bits, acc := .ro, dflt := 0, lo := 0, hi := 18446744073709551615, own := .func, rd := .std, wr := .none }

/-- `MSIX_MIN_GAP_NS`: R423, Table 11.8. -/
def O.MSIX_MIN_GAP_NS : ObjInfo :=
  { name := "MSIX_MIN_GAP_NS", base := 0x9024, count := 1024, ty := .u32, acc := .rw, dflt := 0, lo := 0, hi := 4294967295, own := .func, rd := .owner, wr := .owner }

/-- `Q_HOST`: R423, Table 11.8. -/
def O.Q_HOST : ObjInfo :=
  { name := "Q_HOST", base := 0x9100, count := 16384, ty := .bits, acc := .rw, dflt := 40956, lo := 0, hi := 18446744073709551615, own := .queue, rd := .ownerService, wr := .ownerService }

/-- `RING_BASE`: R423, Table 11.8. -/
def O.RING_BASE : ObjInfo :=
  { name := "RING_BASE", base := 0x9140, count := 16384, ty := .u64, acc := .rw, dflt := 0, lo := 0, hi := 18446744073709551615, own := .queue, rd := .ownerService, wr := .ownerService }

/-- `RING_WB_ADDR`: R423, Table 11.8. -/
def O.RING_WB_ADDR : ObjInfo :=
  { name := "RING_WB_ADDR", base := 0x9180, count := 16384, ty := .u64, acc := .rw, dflt := 0, lo := 0, hi := 18446744073709551615, own := .queue, rd := .ownerService, wr := .ownerService }

/-- `RING_PROD`: R423, Table 11.8. -/
def O.RING_PROD : ObjInfo :=
  { name := "RING_PROD", base := 0x91C0, count := 16384, ty := .u32, acc := .ro, dflt := 0, lo := 0, hi := 4294967295, own := .queue, rd := .ownerService, wr := .none }

/-- `HOST_CONS`: R423, Table 11.8. -/
def O.HOST_CONS : ObjInfo :=
  { name := "HOST_CONS", base := 0x9200, count := 16384, ty := .u32, acc := .ro, dflt := 0, lo := 0, hi := 4294967295, own := .queue, rd := .ownerService, wr := .none }

/-- `DB_REJECTED`: R423, Table 11.8. -/
def O.DB_REJECTED : ObjInfo :=
  { name := "DB_REJECTED", base := 0x9240, count := 16384, ty := .u64, acc := .ro, dflt := 0, lo := 0, hi := 18446744073709551615, own := .queue, rd := .ownerService, wr := .none }

/-- `READOUT_RANGE`: R423, Table 11.8. -/
def O.READOUT_RANGE : ObjInfo :=
  { name := "READOUT_RANGE", base := 0x9280, count := 16384, ty := .bits, acc := .rw, dflt := 0, lo := 0, hi := 18446744073709551615, own := .queue, rd := .ownerService, wr := .ownerService }

/-- `READOUT_CMD`: R423, Table 11.8. -/
def O.READOUT_CMD : ObjInfo :=
  { name := "READOUT_CMD", base := 0x92C0, count := 16384, ty := .cmd, acc := .cmd, dflt := 0, lo := 0, hi := 18446744073709551615, own := .queue, rd := .ownerService, wr := .ownerService }

/-- `READOUT_STATUS`: R423, Table 11.8. -/
def O.READOUT_STATUS : ObjInfo :=
  { name := "READOUT_STATUS", base := 0x9300, count := 16384, ty := .bits, acc := .ro, dflt := 0, lo := 0, hi := 18446744073709551615, own := .queue, rd := .ownerService, wr := .none }

/-- `MBX_REQ`: R423, Table 11.8. -/
def O.MBX_REQ : ObjInfo :=
  { name := "MBX_REQ", base := 0xE010, count := 132, ty := .u64, acc := .rw, dflt := 0, lo := 0, hi := 18446744073709551615, own := .caller, rd := .every, wr := .every }

/-- `MBX_SUBMIT`: R423, Table 11.8. -/
def O.MBX_SUBMIT : ObjInfo :=
  { name := "MBX_SUBMIT", base := 0xE011, count := 1, ty := .cmd, acc := .cmd, dflt := 0, lo := 0, hi := 18446744073709551615, own := .caller, rd := .every, wr := .every }

/-- `MBX_RESP`: R423, Table 11.8. -/
def O.MBX_RESP : ObjInfo :=
  { name := "MBX_RESP", base := 0xE012, count := 132, ty := .u64, acc := .ro, dflt := 0, lo := 0, hi := 18446744073709551615, own := .caller, rd := .every, wr := .none }

/-- `STORE_WIN_BASE`: R423, Table 11.8. -/
def O.STORE_WIN_BASE : ObjInfo :=
  { name := "STORE_WIN_BASE", base := 0xE014, count := 1, ty := .u64, acc := .rw, dflt := 0, lo := 0, hi := 18446744073709551615, own := .caller, rd := .every, wr := .every }

/-- `FILL_HOST_ADDR`: R423, Table 11.8. -/
def O.FILL_HOST_ADDR : ObjInfo :=
  { name := "FILL_HOST_ADDR", base := 0xE018, count := 1, ty := .u64, acc := .rw, dflt := 0, lo := 0, hi := 18446744073709551615, own := .caller, rd := .every, wr := .every }

/-- `FILL_TARGET`: R423, Table 11.8. -/
def O.FILL_TARGET : ObjInfo :=
  { name := "FILL_TARGET", base := 0xE019, count := 1, ty := .u32, acc := .rw, dflt := 0, lo := 0, hi := 4294967295, own := .caller, rd := .every, wr := .every }

/-- `FILL_CELLS`: R423, Table 11.8. -/
def O.FILL_CELLS : ObjInfo :=
  { name := "FILL_CELLS", base := 0xE01A, count := 1, ty := .u32, acc := .rw, dflt := 0, lo := 0, hi := 4294967295, own := .caller, rd := .every, wr := .every }

/-- `FILL_CMD`: R423, Table 11.8. -/
def O.FILL_CMD : ObjInfo :=
  { name := "FILL_CMD", base := 0xE01B, count := 1, ty := .cmd, acc := .cmd, dflt := 0, lo := 0, hi := 18446744073709551615, own := .caller, rd := .every, wr := .every }

/-- `FILL_STATUS`: R423, Table 11.8. -/
def O.FILL_STATUS : ObjInfo :=
  { name := "FILL_STATUS", base := 0xE01C, count := 1, ty := .bits, acc := .ro, dflt := 0, lo := 0, hi := 18446744073709551615, own := .caller, rd := .every, wr := .none }

/-- `MODULE_TIME`: R455, Table 12.9. -/
def O.MODULE_TIME : ObjInfo :=
  { name := "MODULE_TIME", base := 0x2000, count := 2, ty := .time96, acc := .ro, dflt := 0, lo := 0, hi := 18446744073709551615, own := .module, rd := .std, wr := .none }

/-- `TIME_SET`: R455, Table 12.9. -/
def O.TIME_SET : ObjInfo :=
  { name := "TIME_SET", base := 0x2001, count := 2, ty := .time96, acc := .wo, dflt := 0, lo := 0, hi := 18446744073709551615, own := .module, rd := .std, wr := .adminService }

/-- `TIME_EPOCH`: R455, Table 12.9. -/
def O.TIME_EPOCH : ObjInfo :=
  { name := "TIME_EPOCH", base := 0x2002, count := 1, ty := .u32, acc := .ro, dflt := 0, lo := 0, hi := 4294967295, own := .module, rd := .std, wr := .none }

/-- `UTC_OFFSET`: R455, Table 12.9. -/
def O.UTC_OFFSET : ObjInfo :=
  { name := "UTC_OFFSET", base := 0x2004, count := 1, ty := .i32, acc := .rw, dflt := 37, lo := 0, hi := 1000, own := .module, rd := .std, wr := .adminService }

/-- `LEAP_PENDING`: R455, Table 12.9. -/
def O.LEAP_PENDING : ObjInfo :=
  { name := "LEAP_PENDING", base := 0x2005, count := 1, ty := .enum, acc := .rw, dflt := 0, lo := 0, hi := 2, own := .module, rd := .std, wr := .adminService }

/-- `CAL_UTC`: R455, Table 12.9. -/
def O.CAL_UTC : ObjInfo :=
  { name := "CAL_UTC", base := 0x2006, count := 1, ty := .bits, acc := .rw, dflt := 0, lo := 0, hi := 18446744073709551615, own := .module, rd := .std, wr := .adminService }

/-- `REF_PRIORITY`: R455, Table 12.9. -/
def O.REF_PRIORITY : ObjInfo :=
  { name := "REF_PRIORITY", base := 0x2010, count := 2, ty := .u8, acc := .rw, dflt := 0, lo := 0, hi := 255, own := .module, rd := .std, wr := .adminService }

/-- `REF_STATE`: R455, Table 12.9. -/
def O.REF_STATE : ObjInfo :=
  { name := "REF_STATE", base := 0x2011, count := 2, ty := .enum, acc := .ro, dflt := 0, lo := 0, hi := 2, own := .module, rd := .std, wr := .none }

/-- `REF_FREQ_PPB`: R455, Table 12.9. -/
def O.REF_FREQ_PPB : ObjInfo :=
  { name := "REF_FREQ_PPB", base := 0x2012, count := 2, ty := .i32, acc := .ro, dflt := 0, lo := 0, hi := 18446744073709551615, own := .module, rd := .std, wr := .none }

/-- `REVERTIVE`: R455, Table 12.9. -/
def O.REVERTIVE : ObjInfo :=
  { name := "REVERTIVE", base := 0x2013, count := 1, ty := .bool, acc := .rw, dflt := 1, lo := 0, hi := 1, own := .module, rd := .std, wr := .adminService }

/-- `QUAL_TIME_MS`: R455, Table 12.9. -/
def O.QUAL_TIME_MS : ObjInfo :=
  { name := "QUAL_TIME_MS", base := 0x2014, count := 1, ty := .u32, acc := .rw, dflt := 1000, lo := 1000, hi := 60000, own := .module, rd := .std, wr := .adminService }

/-- `LOOP_BW_MHZ`: R455, Table 12.9. -/
def O.LOOP_BW_MHZ : ObjInfo :=
  { name := "LOOP_BW_MHZ", base := 0x2015, count := 1, ty := .u32, acc := .rw, dflt := 1000, lo := 100, hi := 100000, own := .module, rd := .std, wr := .adminService }

/-- `LOCK_DELAY_MS`: R455, Table 12.9. -/
def O.LOCK_DELAY_MS : ObjInfo :=
  { name := "LOCK_DELAY_MS", base := 0x2016, count := 1, ty := .u32, acc := .rw, dflt := 200, lo := 10, hi := 10000, own := .module, rd := .std, wr := .adminService }

/-- `SEL_STATE`: R455, Table 12.9. -/
def O.SEL_STATE : ObjInfo :=
  { name := "SEL_STATE", base := 0x2017, count := 1, ty := .enum, acc := .ro, dflt := 0, lo := 0, hi := 4, own := .module, rd := .std, wr := .none }

/-- `HOLDOVER_S`: R455, Table 12.9. -/
def O.HOLDOVER_S : ObjInfo :=
  { name := "HOLDOVER_S", base := 0x2018, count := 1, ty := .u64, acc := .ro, dflt := 0, lo := 0, hi := 18446744073709551615, own := .module, rd := .std, wr := .none }

/-- `PLAN_FREQ_HZ`: R455, Table 12.9. -/
def O.PLAN_FREQ_HZ : ObjInfo :=
  { name := "PLAN_FREQ_HZ", base := 0x2020, count := 8, ty := .u64, acc := .rw, dflt := 10000000000, lo := 10000000000, hi := 12000000000, own := .module, rd := .std, wr := .adminService }

/-- `PLAN_STATE`: R455, Table 12.9. -/
def O.PLAN_STATE : ObjInfo :=
  { name := "PLAN_STATE", base := 0x2028, count := 8, ty := .bits, acc := .ro, dflt := 0, lo := 0, hi := 18446744073709551615, own := .module, rd := .std, wr := .none }

/-- `PLAN_ACTIVE`: R455, Table 12.9. -/
def O.PLAN_ACTIVE : ObjInfo :=
  { name := "PLAN_ACTIVE", base := 0x2030, count := 1, ty := .u8, acc := .ro, dflt := 0, lo := 0, hi := 255, own := .module, rd := .std, wr := .none }

/-- `PLAN_SELECT`: R455, Table 12.9. -/
def O.PLAN_SELECT : ObjInfo :=
  { name := "PLAN_SELECT", base := 0x2031, count := 1, ty := .cmd, acc := .cmd, dflt := 0, lo := 0, hi := 18446744073709551615, own := .module, rd := .std, wr := .adminService }

/-- `PLAN_AT`: R455, Table 12.9. -/
def O.PLAN_AT : ObjInfo :=
  { name := "PLAN_AT", base := 0x2032, count := 1, ty := .u64, acc := .rw, dflt := 0, lo := 0, hi := 18446744073709551615, own := .module, rd := .std, wr := .adminService }

/-- `PLAN_AT_SLOT`: R455, Table 12.9. -/
def O.PLAN_AT_SLOT : ObjInfo :=
  { name := "PLAN_AT_SLOT", base := 0x2033, count := 1, ty := .u8, acc := .rw, dflt := 0, lo := 0, hi := 7, own := .module, rd := .std, wr := .adminService }

/-- `PLAN_LATE_POLICY`: R455, Table 12.9. -/
def O.PLAN_LATE_POLICY : ObjInfo :=
  { name := "PLAN_LATE_POLICY", base := 0x2034, count := 1, ty := .enum, acc := .rw, dflt := 0, lo := 0, hi := 1, own := .module, rd := .std, wr := .adminService }

/-- `PLAN_SCHED_STATUS`: R455, Table 12.9. -/
def O.PLAN_SCHED_STATUS : ObjInfo :=
  { name := "PLAN_SCHED_STATUS", base := 0x2035, count := 1, ty := .bits, acc := .ro, dflt := 0, lo := 0, hi := 18446744073709551615, own := .module, rd := .std, wr := .none }

/-- `OUT_CFG`: R455, Table 12.9. -/
def O.OUT_CFG : ObjInfo :=
  { name := "OUT_CFG", base := 0x2040, count := 8, ty := .bits, acc := .rw, dflt := 100, lo := 0, hi := 18446744073709551615, own := .module, rd := .std, wr := .adminService }

/-- `OUT_ACTIVE`: R455, Table 12.9. -/
def O.OUT_ACTIVE : ObjInfo :=
  { name := "OUT_ACTIVE", base := 0x2048, count := 8, ty := .bits, acc := .ro, dflt := 100, lo := 0, hi := 18446744073709551615, own := .module, rd := .std, wr := .none }

/-- `OUT_APPLY`: R455, Table 12.9. -/
def O.OUT_APPLY : ObjInfo :=
  { name := "OUT_APPLY", base := 0x2050, count := 1, ty := .cmd, acc := .cmd, dflt := 0, lo := 0, hi := 18446744073709551615, own := .module, rd := .std, wr := .adminService }

/-- `APPLY_SOURCE`: R455, Table 12.9. -/
def O.APPLY_SOURCE : ObjInfo :=
  { name := "APPLY_SOURCE", base := 0x2051, count := 1, ty := .enum, acc := .rw, dflt := 0, lo := 0, hi := 1, own := .module, rd := .std, wr := .adminService }

/-- `SYNC_IN_COUNT`: R455, Table 12.9. -/
def O.SYNC_IN_COUNT : ObjInfo :=
  { name := "SYNC_IN_COUNT", base := 0x2052, count := 1, ty := .u64, acc := .ro, dflt := 0, lo := 0, hi := 18446744073709551615, own := .module, rd := .std, wr := .none }

/-- `PPS_OUT_WIDTH_US`: R455, Table 12.9. -/
def O.PPS_OUT_WIDTH_US : ObjInfo :=
  { name := "PPS_OUT_WIDTH_US", base := 0x2060, count := 1, ty := .u32, acc := .rw, dflt := 100000, lo := 1, hi := 500000, own := .module, rd := .std, wr := .adminService }

/-- `PPS_OUT_ENABLE`: R455, Table 12.9. -/
def O.PPS_OUT_ENABLE : ObjInfo :=
  { name := "PPS_OUT_ENABLE", base := 0x2061, count := 1, ty := .bool, acc := .rw, dflt := 1, lo := 0, hi := 1, own := .module, rd := .std, wr := .adminService }

/-- `TRIG_IO_CFG`: R455, Table 12.9. -/
def O.TRIG_IO_CFG : ObjInfo :=
  { name := "TRIG_IO_CFG", base := 0x2100, count := 4, ty := .bits, acc := .rw, dflt := 0, lo := 0, hi := 18446744073709551615, own := .pin, rd := .std, wr := .adminService }

/-- `EDGE_AT`: R455, Table 12.9. -/
def O.EDGE_AT : ObjInfo :=
  { name := "EDGE_AT", base := 0x2104, count := 4, ty := .u64, acc := .rw, dflt := 0, lo := 0, hi := 18446744073709551615, own := .pin, rd := .std, wr := .ownerService }

/-- `EDGE_OP`: R455, Table 12.9. -/
def O.EDGE_OP : ObjInfo :=
  { name := "EDGE_OP", base := 0x2105, count := 4, ty := .enum, acc := .rw, dflt := 2, lo := 0, hi := 2, own := .pin, rd := .std, wr := .ownerService }

/-- `EDGE_LATE_POLICY`: R455, Table 12.9. -/
def O.EDGE_LATE_POLICY : ObjInfo :=
  { name := "EDGE_LATE_POLICY", base := 0x2106, count := 4, ty := .enum, acc := .rw, dflt := 0, lo := 0, hi := 1, own := .pin, rd := .std, wr := .ownerService }

/-- `EDGE_SCHED_STATUS`: R455, Table 12.9. -/
def O.EDGE_SCHED_STATUS : ObjInfo :=
  { name := "EDGE_SCHED_STATUS", base := 0x2107, count := 4, ty := .bits, acc := .ro, dflt := 0, lo := 0, hi := 18446744073709551615, own := .pin, rd := .std, wr := .none }

/-- `TRIG_IN_TIME`: R455, Table 12.9. -/
def O.TRIG_IN_TIME : ObjInfo :=
  { name := "TRIG_IN_TIME", base := 0x2114, count := 8, ty := .time96, acc := .ro, dflt := 0, lo := 0, hi := 18446744073709551615, own := .module, rd := .std, wr := .none }

/-- `TRIG_IN_COUNT`: R455, Table 12.9. -/
def O.TRIG_IN_COUNT : ObjInfo :=
  { name := "TRIG_IN_COUNT", base := 0x211C, count := 4, ty := .u64, acc := .ro, dflt := 0, lo := 0, hi := 18446744073709551615, own := .pin, rd := .std, wr := .none }

/-- `AUX0_FTW`: R455, Table 12.9. -/
def O.AUX0_FTW : ObjInfo :=
  { name := "AUX0_FTW", base := 0x2200, count := 1, ty := .u64, acc := .rw, dflt := 2199023255552, lo := 219902326, hi := 8796093022208, own := .module, rd := .std, wr := .adminService }

/-- `AUX0_LEVEL`: R455, Table 12.9. -/
def O.AUX0_LEVEL : ObjInfo :=
  { name := "AUX0_LEVEL", base := 0x2201, count := 1, ty := .i32, acc := .rw, dflt := 100, lo := -100, hi := 100, own := .module, rd := .std, wr := .adminService }

/-- `AUX0_ENABLE`: R455, Table 12.9. -/
def O.AUX0_ENABLE : ObjInfo :=
  { name := "AUX0_ENABLE", base := 0x2202, count := 1, ty := .bool, acc := .rw, dflt := 1, lo := 0, hi := 1, own := .module, rd := .std, wr := .adminService }

/-- `AUX0_TABLE`: R455, Table 12.9. -/
def O.AUX0_TABLE : ObjInfo :=
  { name := "AUX0_TABLE", base := 0x2210, count := 4096, ty := .u16, acc := .rw, dflt := 0, lo := 0, hi := 65535, own := .module, rd := .std, wr := .adminService }

/-- `AUX1_SOURCE`: R455, Table 12.9. -/
def O.AUX1_SOURCE : ObjInfo :=
  { name := "AUX1_SOURCE", base := 0x2220, count := 1, ty := .enum, acc := .rw, dflt := 0, lo := 0, hi := 2, own := .module, rd := .std, wr := .adminService }

/-- `AUX1_SQ`: R455, Table 12.9. -/
def O.AUX1_SQ : ObjInfo :=
  { name := "AUX1_SQ", base := 0x2221, count := 1, ty := .u8, acc := .rw, dflt := 0, lo := 0, hi := 127, own := .module, rd := .std, wr := .adminService }

/-- `AUX1_DIV`: R455, Table 12.9. -/
def O.AUX1_DIV : ObjInfo :=
  { name := "AUX1_DIV", base := 0x2222, count := 1, ty := .u32, acc := .rw, dflt := 1280, lo := 2, hi := 65536, own := .module, rd := .std, wr := .adminService }

/-- `AUX1_PUSH`: R455, Table 12.9. -/
def O.AUX1_PUSH : ObjInfo :=
  { name := "AUX1_PUSH", base := 0x2223, count := 1, ty := .u64, acc := .wo, dflt := 0, lo := 0, hi := 18446744073709551615, own := .module, rd := .std, wr := .adminService }

/-- `AUX1_FILL`: R455, Table 12.9. -/
def O.AUX1_FILL : ObjInfo :=
  { name := "AUX1_FILL", base := 0x2224, count := 1, ty := .u32, acc := .ro, dflt := 0, lo := 0, hi := 4294967295, own := .module, rd := .std, wr := .none }

/-- `AUX1_UNDERRUN`: R455, Table 12.9. -/
def O.AUX1_UNDERRUN : ObjInfo :=
  { name := "AUX1_UNDERRUN", base := 0x2225, count := 1, ty := .u64, acc := .ro, dflt := 0, lo := 0, hi := 18446744073709551615, own := .module, rd := .std, wr := .none }

/-- `AUX1_FLUSH`: R455, Table 12.9. -/
def O.AUX1_FLUSH : ObjInfo :=
  { name := "AUX1_FLUSH", base := 0x2226, count := 1, ty := .cmd, acc := .cmd, dflt := 0, lo := 0, hi := 18446744073709551615, own := .module, rd := .std, wr := .adminService }

/-- `PTP_PORT_CFG`: R455, Table 12.9. -/
def O.PTP_PORT_CFG : ObjInfo :=
  { name := "PTP_PORT_CFG", base := 0x2300, count := 2, ty := .bits, acc := .rw, dflt := 261, lo := 0, hi := 18446744073709551615, own := .module, rd := .std, wr := .adminService }

/-- `PTP_DOMAIN`: R455, Table 12.9. -/
def O.PTP_DOMAIN : ObjInfo :=
  { name := "PTP_DOMAIN", base := 0x2302, count := 1, ty := .u8, acc := .rw, dflt := 0, lo := 0, hi := 127, own := .module, rd := .std, wr := .adminService }

/-- `PTP_PRIORITY1`: R455, Table 12.9. -/
def O.PTP_PRIORITY1 : ObjInfo :=
  { name := "PTP_PRIORITY1", base := 0x2303, count := 1, ty := .u8, acc := .rw, dflt := 128, lo := 0, hi := 255, own := .module, rd := .std, wr := .adminService }

/-- `PTP_PRIORITY2`: R455, Table 12.9. -/
def O.PTP_PRIORITY2 : ObjInfo :=
  { name := "PTP_PRIORITY2", base := 0x2304, count := 1, ty := .u8, acc := .rw, dflt := 128, lo := 0, hi := 255, own := .module, rd := .std, wr := .adminService }

/-- `PTP_CLOCK_CLASS`: R455, Table 12.9. -/
def O.PTP_CLOCK_CLASS : ObjInfo :=
  { name := "PTP_CLOCK_CLASS", base := 0x2305, count := 1, ty := .u8, acc := .ro, dflt := 248, lo := 0, hi := 255, own := .module, rd := .std, wr := .none }

/-- `PTP_PORT_STATE`: R455, Table 12.9. -/
def O.PTP_PORT_STATE : ObjInfo :=
  { name := "PTP_PORT_STATE", base := 0x2306, count := 2, ty := .enum, acc := .ro, dflt := 3, lo := 0, hi := 9, own := .module, rd := .std, wr := .none }

/-- `REFB_OFFSET_NS`: R455, Table 12.9. -/
def O.REFB_OFFSET_NS : ObjInfo :=
  { name := "REFB_OFFSET_NS", base := 0x2308, count := 1, ty := .i64, acc := .ro, dflt := 0, lo := 0, hi := 18446744073709551615, own := .module, rd := .std, wr := .none }

/-- `MODE_CMD`: R488, Table 13.12. -/
def O.MODE_CMD : ObjInfo :=
  { name := "MODE_CMD", base := 0x1001, count := 1, ty := .cmd, acc := .cmd, dflt := 0, lo := 0, hi := 18446744073709551615, own := .module, rd := .std, wr := .admin }

/-- `MODE_FLAGS`: R488, Table 13.12. -/
def O.MODE_FLAGS : ObjInfo :=
  { name := "MODE_FLAGS", base := 0x1002, count := 1, ty := .bits, acc := .ro, dflt := 0, lo := 0, hi := 18446744073709551615, own := .module, rd := .std, wr := .none }

/-- `WARM_RESET`: R488, Table 13.12. -/
def O.WARM_RESET : ObjInfo :=
  { name := "WARM_RESET", base := 0x1003, count := 1, ty := .cmd, acc := .cmd, dflt := 0, lo := 0, hi := 18446744073709551615, own := .module, rd := .std, wr := .admin }

/-- `IDLE_ENTRY_MS`: R488, Table 13.12. -/
def O.IDLE_ENTRY_MS : ObjInfo :=
  { name := "IDLE_ENTRY_MS", base := 0x1004, count := 1, ty := .u32, acc := .rw, dflt := 100, lo := 10, hi := 60000, own := .module, rd := .std, wr := .admin }

/-- `RESET_CAUSE`: R488, Table 13.12. -/
def O.RESET_CAUSE : ObjInfo :=
  { name := "RESET_CAUSE", base := 0x1005, count := 1, ty := .enum, acc := .ro, dflt := 0, lo := 0, hi := 1, own := .module, rd := .std, wr := .none }

/-- `TILE_RESET`: R488, Table 13.12. -/
def O.TILE_RESET : ObjInfo :=
  { name := "TILE_RESET", base := 0x5008, count := 16, ty := .cmd, acc := .cmd, dflt := 0, lo := 0, hi := 18446744073709551615, own := .module, rd := .std, wr := .admin }

/-- `TILE_FENCED`: R488, Table 13.12. -/
def O.TILE_FENCED : ObjInfo :=
  { name := "TILE_FENCED", base := 0x5009, count := 16, ty := .bool, acc := .ro, dflt := 0, lo := 0, hi := 1, own := .module, rd := .std, wr := .none }

/-- `TEMP_MC`: R488, Table 13.12. -/
def O.TEMP_MC : ObjInfo :=
  { name := "TEMP_MC", base := 0xB000, count := 11, ty := .i32, acc := .ro, dflt := 0, lo := 0, hi := 18446744073709551615, own := .module, rd := .std, wr := .none }

/-- `THERMAL_STATE`: R488, Table 13.12. -/
def O.THERMAL_STATE : ObjInfo :=
  { name := "THERMAL_STATE", base := 0xB001, count := 1, ty := .enum, acc := .ro, dflt := 0, lo := 0, hi := 4, own := .module, rd := .std, wr := .none }

/-- `VIN_MV`: R488, Table 13.12. -/
def O.VIN_MV : ObjInfo :=
  { name := "VIN_MV", base := 0xB002, count := 1, ty := .u32, acc := .ro, dflt := 0, lo := 0, hi := 4294967295, own := .module, rd := .std, wr := .none }

/-- `PIN_MW`: R488, Table 13.12. -/
def O.PIN_MW : ObjInfo :=
  { name := "PIN_MW", base := 0xB003, count := 1, ty := .u32, acc := .ro, dflt := 0, lo := 0, hi := 4294967295, own := .module, rd := .std, wr := .none }

/-- `TS_ENABLE`: R488, Table 13.12. -/
def O.TS_ENABLE : ObjInfo :=
  { name := "TS_ENABLE", base := 0xB010, count := 1, ty := .bits, acc := .rw, dflt := 15, lo := 0, hi := 18446744073709551615, own := .module, rd := .std, wr := .admin }

/-- `TS_PASSES`: R488, Table 13.12. -/
def O.TS_PASSES : ObjInfo :=
  { name := "TS_PASSES", base := 0xB011, count := 4, ty := .u64, acc := .ro, dflt := 0, lo := 0, hi := 18446744073709551615, own := .module, rd := .std, wr := .none }

/-- `TS_FAILS`: R488, Table 13.12. -/
def O.TS_FAILS : ObjInfo :=
  { name := "TS_FAILS", base := 0xB012, count := 4, ty := .u64, acc := .ro, dflt := 0, lo := 0, hi := 18446744073709551615, own := .module, rd := .std, wr := .none }

/-- `TS_LAST_FAIL`: R488, Table 13.12. -/
def O.TS_LAST_FAIL : ObjInfo :=
  { name := "TS_LAST_FAIL", base := 0xB013, count := 4, ty := .u32, acc := .ro, dflt := 0, lo := 0, hi := 4294967295, own := .module, rd := .std, wr := .none }

/-- `ERR_SUMMARY`: R488, Table 13.12. -/
def O.ERR_SUMMARY : ObjInfo :=
  { name := "ERR_SUMMARY", base := 0xC000, count := 1, ty := .bits, acc := .ro, dflt := 0, lo := 0, hi := 18446744073709551615, own := .module, rd := .std, wr := .none }

/-- `ERR_FIRST`: R488, Table 13.12. -/
def O.ERR_FIRST : ObjInfo :=
  { name := "ERR_FIRST", base := 0xC010, count := 64, ty := .bits, acc := .ro, dflt := 0, lo := 0, hi := 18446744073709551615, own := .module, rd := .std, wr := .none }

/-- `ERR_SECOND`: R488, Table 13.12. -/
def O.ERR_SECOND : ObjInfo :=
  { name := "ERR_SECOND", base := 0xC020, count := 64, ty := .bits, acc := .ro, dflt := 0, lo := 0, hi := 18446744073709551615, own := .module, rd := .std, wr := .none }

/-- `ERR_OVERFLOW`: R488, Table 13.12. -/
def O.ERR_OVERFLOW : ObjInfo :=
  { name := "ERR_OVERFLOW", base := 0xC030, count := 16, ty := .u32, acc := .ro, dflt := 0, lo := 0, hi := 4294967295, own := .module, rd := .std, wr := .none }

/-- `ERR_ACK`: R488, Table 13.12. -/
def O.ERR_ACK : ObjInfo :=
  { name := "ERR_ACK", base := 0xC031, count := 16, ty := .cmd, acc := .cmd, dflt := 0, lo := 0, hi := 18446744073709551615, own := .module, rd := .std, wr := .admin }

/-- `ERR_NOTIFIED`: R488, Table 13.12. -/
def O.ERR_NOTIFIED : ObjInfo :=
  { name := "ERR_NOTIFIED", base := 0xC032, count := 16, ty := .u8, acc := .ro, dflt := 0, lo := 0, hi := 255, own := .module, rd := .std, wr := .none }

/-- `ERR_LAST_FATAL`: R488, Table 13.12. -/
def O.ERR_LAST_FATAL : ObjInfo :=
  { name := "ERR_LAST_FATAL", base := 0xC040, count := 4, ty := .bits, acc := .ro, dflt := 0, lo := 0, hi := 18446744073709551615, own := .module, rd := .std, wr := .none }

/-- `FW_ACTIVE`: R488, Table 13.12. -/
def O.FW_ACTIVE : ObjInfo :=
  { name := "FW_ACTIVE", base := 0xD000, count := 1, ty := .u8, acc := .ro, dflt := 0, lo := 0, hi := 255, own := .module, rd := .std, wr := .none }

/-- `FW_SLOT`: R488, Table 13.12. -/
def O.FW_SLOT : ObjInfo :=
  { name := "FW_SLOT", base := 0xD001, count := 2, ty := .bits, acc := .ro, dflt := 0, lo := 0, hi := 18446744073709551615, own := .module, rd := .std, wr := .none }

/-- `FW_STATE`: R488, Table 13.12. -/
def O.FW_STATE : ObjInfo :=
  { name := "FW_STATE", base := 0xD002, count := 1, ty := .enum, acc := .ro, dflt := 0, lo := 0, hi := 4, own := .module, rd := .std, wr := .none }

/-- `FW_BEGIN`: R488, Table 13.12. -/
def O.FW_BEGIN : ObjInfo :=
  { name := "FW_BEGIN", base := 0xD003, count := 1, ty := .cmd, acc := .cmd, dflt := 0, lo := 0, hi := 18446744073709551615, own := .module, rd := .std, wr := .admin }

/-- `FW_PAGE`: R488, Table 13.12. -/
def O.FW_PAGE : ObjInfo :=
  { name := "FW_PAGE", base := 0xD004, count := 1, ty := .cmd, acc := .cmd, dflt := 0, lo := 0, hi := 18446744073709551615, own := .module, rd := .std, wr := .admin }

/-- `FW_FINISH`: R488, Table 13.12. -/
def O.FW_FINISH : ObjInfo :=
  { name := "FW_FINISH", base := 0xD005, count := 1, ty := .cmd, acc := .cmd, dflt := 0, lo := 0, hi := 18446744073709551615, own := .module, rd := .std, wr := .admin }

/-- `FW_SEC_VERSION`: R488, Table 13.12. -/
def O.FW_SEC_VERSION : ObjInfo :=
  { name := "FW_SEC_VERSION", base := 0xD006, count := 1, ty := .u16, acc := .ro, dflt := 0, lo := 0, hi := 65535, own := .module, rd := .std, wr := .none }

/-- `JOURNAL_STATE`: R488, Table 13.12. -/
def O.JOURNAL_STATE : ObjInfo :=
  { name := "JOURNAL_STATE", base := 0xD008, count := 1, ty := .bits, acc := .ro, dflt := 0, lo := 0, hi := 18446744073709551615, own := .module, rd := .std, wr := .none }

/-- `FW_BUFFER`: R488, Table 13.12. -/
def O.FW_BUFFER : ObjInfo :=
  { name := "FW_BUFFER", base := 0xD100, count := 4096, ty := .u64, acc := .wo, dflt := 0, lo := 0, hi := 18446744073709551615, own := .module, rd := .std, wr := .admin }

/-- `LANE_FAULT_POLICY`: R47, Table 1.11. -/
def O.LANE_FAULT_POLICY : ObjInfo :=
  { name := "LANE_FAULT_POLICY", base := 0x40C0, count := 1024, ty := .enum, acc := .rw, dflt := 0, lo := 0, hi := 1, own := .bench 1, rd := .owner, wr := .owner }

/-- `ARM_LANE_REPORT`: R45, Table 1.11. -/
def O.ARM_LANE_REPORT : ObjInfo :=
  { name := "ARM_LANE_REPORT", base := 0x40C4, count := 4096, ty := .u64, acc := .ro, dflt := 0, lo := 0, hi := 18446744073709551615, own := .bench 4, rd := .owner, wr := .none }

/-- Part 0 of the catalogue, in the manual's order. -/
def catalogue0 : List ObjInfo :=
  [O.PORT_ENABLE, O.EQ_PRESET, O.TX_FFE_PRESET, O.RX_POLARITY, O.TX_POLARITY, O.PRECODE, O.FEC_MODE, O.DEGRADE_SYM_PER_S, O.UNCORR_LIMIT, O.CLEAR_COUNTERS, O.SEND_DESC_REQ, O.LANE_STATE, O.FAULT_CAUSE, O.FEC_CORR_SYM, O.FEC_UNCORR_CW, O.FRAME_ERR, O.STAMP_ERR, O.CREDIT_OVERRUN, O.CREDIT_WAIT_NS, O.TIME_OFFSET, O.LINK_DELAY, O.LANE_FLAGS, O.DESIGN_ID, O.BUILD_HASH, O.MAP_VERSION, O.CORE_IDENT, O.QUENCH_SKID, O.LANE_GROUP_MAP, O.REALIGN, O.ALIGN_STATE, O.ALIGN_REFUSE_CAUSE, O.PATH_LATENCY, O.MISSING_PARTS, O.ROW_WAIT_NS, O.ROWS_EMITTED, O.ROWS_INCOMPLETE, O.CLOCK_FREQ_HZ, O.ROUTE_REFUSED, O.UNOWNED_WORDS, O.TILE_POWER]

/-- Part 1 of the catalogue, in the manual's order. -/
def catalogue1 : List ObjInfo :=
  [O.TILE_STATE, O.GATED_DISCARD, O.CU_CONFIG, O.CU_GROUP, O.CU_PATTERN, O.CU_MASK, O.CU_LOW, O.CU_HIGH, O.CU_LEVEL, O.CU_HYST, O.CU_EXPORT, O.CU_STATUS, O.CU_HITS, O.CU_OWNER, O.SQ_CONFIG, O.SQ_STATUS, O.SQ_OWNER, O.SQ_TRIGGERS, O.SQ_STEPS, O.HOLDOFF_KIND, O.HOLDOFF_VALUE, O.HOLDOFF_SEL, O.TRIG_STATE, O.COMMIT_CLOCK, O.COMMIT_STAMP, O.COMMIT, O.COMMIT_STATUS, O.ARM_AT, O.DISARM_AT, O.ARM_LATE_POLICY, O.DISARM_LATE_POLICY, O.SCHED_STATUS, O.QUENCH_CMD, O.RESUME_CMD, O.QUENCH_LAST, O.QUENCH_LAST_STAMP, O.SQ_BRANCH_INPUTS, O.SQ_BRANCH_ACTION, O.SQ_LEVEL_BRANCH, O.SQ_LEVEL_TIMEOUT]

/-- Part 2 of the catalogue, in the manual's order. -/
def catalogue2 : List ObjInfo :=
  [O.SQ_MARK, O.SQ_CNT_CONFIG, O.SQ_CNT_LIMIT, O.SQ_CNT_VALUE, O.TRIG_PULSE_NS, O.STORE_MODE, O.PRE_COUNT, O.POST_COUNT, O.SEGMENT_LIMIT, O.SEG_FULL_POLICY, O.SYNC_INTERVAL, O.SEG_INDEX, O.GATE_STATE, O.SEG_SELECT, O.ACQ_END_CAUSE, O.STREAM_WEIGHT, O.STREAM_STATUS, O.STREAM_ROWS_LOST, O.STREAM_CELLS, O.STREAM_EVENTS_LOST, O.SEG_ENTRY, O.GOLD_INGOTS, O.GOLD_WRITE_DROPPED, O.AE_OWNER, O.AE_CONFIG, O.ALIGN_STAMP, O.ALIGN_OFFSET, O.GOLD_FIRST, O.GOLD_CELLS, O.GOLD_SEAL, O.GOLD_STATE, O.AE_STATE, O.AE_STATUS, O.AE_ROWS_COMPARED, O.AE_WORDS_COMPARED, O.AE_WORDS_UNCOMPARED, O.AE_DIVERGENT_ROWS, O.AE_LIST_LEN, O.AE_GROUP_LIST, O.AE_MASK]

/-- Part 3 of the catalogue, in the manual's order. -/
def catalogue3 : List ObjInfo :=
  [O.AE_REPORT, O.BENCH_DEFINED, O.INGOT_QUOTA, O.CELL_RESERVE, O.CELL_LIMIT, O.QUEUE_QUOTA, O.PRIORITY, O.BENCH_RIGHTS, O.TRIG_PIN_OWNER, O.GROUP_OWNER, O.PORT_OWNER, O.FUNC_BINDING, O.PRINC_IDENT, O.PRINC_RIGHTS, O.PRINC_KEY, O.LOCK_BENCH, O.PROP_EXPIRY_S, O.BENCH_STATE, O.BENCH_CMD, O.BENCH_STATUS, O.FUNC_LOSS_POLICY, O.ARMED_COUNT, O.LOCK_STATE, O.LOCK_ACQUIRE, O.LOCK_RELEASE, O.LOCK_RENEW, O.LOCK_BREAK, O.PROP_BODY, O.PROP_LEN, O.PROP_SIG, O.PROP_SUBMIT, O.PROP_DIGEST, O.PROP_STATUS, O.CSIGN_SIG, O.PROP_COUNTERSIGN, O.PROP_CANCEL, O.PROP_SEQ, O.POOL_MODE, O.POOL_PARTITION_EXCL, O.POOL_FREE]

/-- Part 4 of the catalogue, in the manual's order. -/
def catalogue4 : List ObjInfo :=
  [O.POOL_BANKS, O.POOL_REPAIR, O.STORE_BACKLOG, O.Q_CLAIM, O.Q_RELEASE, O.EVENT_QUEUE, O.BENCH_CELLS, O.ALLOC_REFUSED, O.EVENT_MSG_LOST, O.Q_CONFIG, O.Q_OWNER, O.Q_STATE, O.Q_PROD, O.Q_CONS, O.Q_POP, O.Q_LOST, O.Q_FLUSH, O.Q_RESET, O.Q_DISCARDED, O.STORE_STATE, O.SPARE_COUNT, O.TRACE_INGOTS, O.STORE_SPEED, O.RANK_IDLE_NS, O.CE_RETIRE_LIMIT, O.RANK_RETIRE, O.MIG_STATUS, O.DELAY_TABLE_ID, O.NEIGHBOUR_REFRESHES, O.POISON_COUNT, O.POISON_LIST_CLEAR, O.DELAY_LOAD, O.RANK_STATE, O.RANK_CE, O.RANK_UE, O.RAW_COMPAT, O.STORE_WRITE_DROPPED, O.POISON_LIST, O.INGOT_DIR, O.WIN_STATUS]

/-- Part 5 of the catalogue, in the manual's order. -/
def catalogue5 : List ObjInfo :=
  [O.LOCAL_BENCH, O.CAS_EXPECT, O.CC_REF, O.CC_VALUE, O.RELAY_REF, O.RELAY_DATA, O.RELAY_STEP, O.MODULE_SERIAL, O.DEVICE_KEY, O.CAT_COUNT, O.CAT_ENTRY, O.MODULE_MODE, O.NET_LINK_MODE, O.NET_FEC, O.NET_LINK_STATE, O.NET_MAC, O.NET_IPV4, O.NET_IPV4_GW, O.NET_IPV6, O.NET_IPV6_CFG, O.NET_VDP_ENABLE, O.NET_APPLY, O.VDP_SESSIONS, O.VDP_HELLO_DROPPED, O.VDP_PKT_DROPPED, O.VDP_IDLE_S, O.NET_DROPPED, O.SESSION_INFO, O.SESSION_CLOSE, O.HP_LINK, O.SUBSYS_ID, O.INT_PENDING, O.INT_MASK, O.EVENT_VECTOR, O.FUNC_STATE, O.MSIX_MIN_GAP_NS, O.Q_HOST, O.RING_BASE, O.RING_WB_ADDR, O.RING_PROD]

/-- Part 6 of the catalogue, in the manual's order. -/
def catalogue6 : List ObjInfo :=
  [O.HOST_CONS, O.DB_REJECTED, O.READOUT_RANGE, O.READOUT_CMD, O.READOUT_STATUS, O.MBX_REQ, O.MBX_SUBMIT, O.MBX_RESP, O.STORE_WIN_BASE, O.FILL_HOST_ADDR, O.FILL_TARGET, O.FILL_CELLS, O.FILL_CMD, O.FILL_STATUS, O.MODULE_TIME, O.TIME_SET, O.TIME_EPOCH, O.UTC_OFFSET, O.LEAP_PENDING, O.CAL_UTC, O.REF_PRIORITY, O.REF_STATE, O.REF_FREQ_PPB, O.REVERTIVE, O.QUAL_TIME_MS, O.LOOP_BW_MHZ, O.LOCK_DELAY_MS, O.SEL_STATE, O.HOLDOVER_S, O.PLAN_FREQ_HZ, O.PLAN_STATE, O.PLAN_ACTIVE, O.PLAN_SELECT, O.PLAN_AT, O.PLAN_AT_SLOT, O.PLAN_LATE_POLICY, O.PLAN_SCHED_STATUS, O.OUT_CFG, O.OUT_ACTIVE, O.OUT_APPLY]

/-- Part 7 of the catalogue, in the manual's order. -/
def catalogue7 : List ObjInfo :=
  [O.APPLY_SOURCE, O.SYNC_IN_COUNT, O.PPS_OUT_WIDTH_US, O.PPS_OUT_ENABLE, O.TRIG_IO_CFG, O.EDGE_AT, O.EDGE_OP, O.EDGE_LATE_POLICY, O.EDGE_SCHED_STATUS, O.TRIG_IN_TIME, O.TRIG_IN_COUNT, O.AUX0_FTW, O.AUX0_LEVEL, O.AUX0_ENABLE, O.AUX0_TABLE, O.AUX1_SOURCE, O.AUX1_SQ, O.AUX1_DIV, O.AUX1_PUSH, O.AUX1_FILL, O.AUX1_UNDERRUN, O.AUX1_FLUSH, O.PTP_PORT_CFG, O.PTP_DOMAIN, O.PTP_PRIORITY1, O.PTP_PRIORITY2, O.PTP_CLOCK_CLASS, O.PTP_PORT_STATE, O.REFB_OFFSET_NS, O.MODE_CMD, O.MODE_FLAGS, O.WARM_RESET, O.IDLE_ENTRY_MS, O.RESET_CAUSE, O.TILE_RESET, O.TILE_FENCED, O.TEMP_MC, O.THERMAL_STATE, O.VIN_MV, O.PIN_MW]

/-- Part 8 of the catalogue, in the manual's order. -/
def catalogue8 : List ObjInfo :=
  [O.TS_ENABLE, O.TS_PASSES, O.TS_FAILS, O.TS_LAST_FAIL, O.ERR_SUMMARY, O.ERR_FIRST, O.ERR_SECOND, O.ERR_OVERFLOW, O.ERR_ACK, O.ERR_NOTIFIED, O.ERR_LAST_FATAL, O.FW_ACTIVE, O.FW_SLOT, O.FW_STATE, O.FW_BEGIN, O.FW_PAGE, O.FW_FINISH, O.FW_SEC_VERSION, O.JOURNAL_STATE, O.FW_BUFFER]

/-- The objects of the dictionary (R352, R384): the rows of the manual's object tables. LANE_FAULT_POLICY and
ARM_LANE_REPORT stand before GROUP_OWNER, whose reservation they lie in (see log entry 16). -/
def catalogue : List ObjInfo :=
  [O.LANE_FAULT_POLICY, O.ARM_LANE_REPORT] ++ catalogue0 ++ catalogue1 ++ catalogue2 ++ catalogue3 ++ catalogue4 ++ catalogue5 ++ catalogue6 ++ catalogue7 ++ catalogue8

/-- The objects whose elements do not all reset to zero, with the common default. -/
def nonZeroDefaults : List (Nat × Nat) :=
  [(0x3001, 8), (0x3002, 4), (0x3003, 2), (0x3007, 1000000), (0x3008, 16), (0x3880, 1000), (0x5100, 20480), (0x5160, 1099511627775), (0x51A0, 1099511627775), (0x5260, 65535), (0x5005, 65535), (0x5028, 16384), (0x5064, 4611756388245323776), (0x50C4, 281474976710655), (0x50D4, 16384), (0x50D6, 281474976710655), (0x50DA, 20), (0x6004, 1099511627775), (0x600C, 1), (0x6014, 65536), (0x6100, 1), (0x6300, 65535), (0x630E, 1), (0x6320, 1099511627775), (0x4024, 4), (0x4030, 65535), (0x4040, 65535), (0x4140, 65535), (0x4180, 65535), (0x4305, 65535), (0x4410, 60), (0x7002, 262144), (0x7005, 256), (0x7018, 65535), (0x7140, 65535), (0x8001, 2), (0x8002, 360448), (0x8004, 10000), (0x8005, 1000), (0xE00A, 1), (0xA000, 2), (0xA001, 2), (0xA008, 1), (0xA013, 30), (0x9004, 8091), (0x9010, 2047), (0x9100, 40956), (0x2004, 37), (0x2013, 1), (0x2014, 1000), (0x2015, 1000), (0x2016, 200), (0x2020, 10000000000), (0x2040, 100), (0x2048, 100), (0x2060, 100000), (0x2061, 1), (0x2105, 2), (0x2200, 2199023255552), (0x2201, 100), (0x2202, 1), (0x2222, 1280), (0x2300, 261), (0x2303, 128), (0x2304, 128), (0x2305, 248), (0x2306, 3), (0x1004, 100), (0xB010, 15)]

/-- Defaults that differ between the elements of one object: B0000 and the physical functions (Table 7.1, Table 7.9), the
principals of the factory (Table 7.3), and REFB's rank (Table 12.9). -/
def elementDefaults : List (Nat × Nat) :=
  [(O.BENCH_DEFINED.key 0, 1), (O.BENCH_RIGHTS.key 0, 2), (O.BENCH_STATE.key 0, 1),
   (O.FUNC_BINDING.key 0, 0), (O.FUNC_BINDING.key 256, 0), (O.FUNC_BINDING.key 512, 0), (O.FUNC_BINDING.key 768, 0),
   (O.PRINC_IDENT.key 0, 3), (O.PRINC_IDENT.key 1, 1), (O.PRINC_IDENT.key 2, 0x0100_0001),
   (O.PRINC_IDENT.key 3, 0x0200_0001), (O.PRINC_IDENT.key 4, 0x0300_0001),
   (O.PRINC_RIGHTS.key 0, 4), (O.PRINC_RIGHTS.key 1, 1), (O.PRINC_RIGHTS.key 2, 1), (O.PRINC_RIGHTS.key 3, 1),
   (O.PRINC_RIGHTS.key 4, 1), (O.REF_PRIORITY.key 1, 1), (O.RANK_STATE.key 31, 1), (O.RANK_STATE.key 15, 1)]

/-- The value listed for a number, `d` where it is not listed. -/
def lookupNat (d : Nat) : List (Nat × Nat) → Nat → Nat
  | [], _ => d
  | p :: t, k => if p.1 = k then p.2 else lookupNat d t k

/-- The elements set at manufacture (R306, R386, R453, R480), by object and element. -/
def factoryDefault (base e : Nat) : Option W64 :=
  if base = 0x0002 then some Config.moduleSerial
  else if base = 0x0010 then some (Config.deviceKey e)
  else if base = 0x7004 then some (Config.poolRepair &&& 0xFFFFFFFF#64)
  else if base = 0xA003 then some (Config.netMac e &&& 0xFFFFFFFFFFFF#64)
  else if base = 0xD006 then some (Config.fwSecVersion.setWidth 64)
  else if base = 0x2210 then some ((sineEntry e).setWidth 64)
  else none

/-- The default of the element with this key: what the manual's object tables give for reset. -/
def elemDefault (k : Nat) : W64 :=
  (factoryDefault (k / 2 ^ 28) (k % 2 ^ 28)).getD
    (BitVec.ofNat 64 (lookupNat (lookupNat 0 nonZeroDefaults (k / 2 ^ 28)) elementDefaults k))

/-- The object numbers an object reserves (R6); a family of Table 1.11 has one number per port. -/
def ObjInfo.objects (o : ObjInfo) : Nat := if o.fam then 32 else (o.count + 255) / 256

/-- The object of the catalogue that holds object number `obj` (area × 4,096 + number). -/
def findObj (obj : Nat) : Option ObjInfo :=
  catalogue.find? (fun o => decide (o.base ≤ obj) && decide (obj < o.base + o.objects))

/-- The object and element that object number `obj` and index `e` name, none where no object holds the number or the
element lies beyond the object's last (R6, R352). -/
def resolveRef (obj e : Nat) : Option (ObjInfo × Nat) :=
  match findObj obj with
  | none => none
  | some o =>
    if o.fam then (if e < 8 then some (o, 8 * (obj - o.base) + e) else none)
    else
      let i := 256 * (obj - o.base) + e
      if i < o.count then some (o, i) else none

/-- The number of an element of an object that is indexed relative to a bench (R370). -/
def benchEl (b e : Nat) : Nat := b * 2 ^ 20 + e

/-- Whether an object is caller-local: E.000-E.03F (R365). -/
def ObjInfo.isLocal (o : ObjInfo) : Bool := decide (0xE000 ≤ o.base) && decide (o.base < 0xE040)

/-- The object number of an element's object: a family of Table 1.11 has one per port. -/
def ObjInfo.objOf (o : ObjInfo) (e : Nat) : Nat := if o.fam then o.base + e / 8 else o.base

/-- The number under which the change counter of an element's object stands: families have one object per port, caller-local
objects one per caller (R365; their elements are numbered caller × 1,024 + element), those relative to a bench one per bench (R370). -/
def ObjInfo.ccKey (o : ObjInfo) (e : Nat) : Nat :=
  if o.fam then o.base + e / 8
  else if o.isLocal then o.base + 65536 * (1 + e / 1024)
  else if o.own = .caller then o.base + 65536 * (1 + e / 2 ^ 20)
  else o.base

end Sys2Proof.Machine
end

