-- ==== Sys2Proof/Machine/Tab.lean ====
section
/-! DEFINITION. Sparse tables: a list of (key, value) pairs in one canonical form, keys strictly rising and no value equal
to what an unlisted key reads as. The capture store's memory and every large array of the module (dictionary elements,
lanes, benches, queues ...) are such tables, so that equal contents are equal data. -/

namespace Sys2Proof

/-- A sparse table of values, by key. -/
abbrev Tab (α : Type) := List (Nat × α)

/-- The value at a key; `d k` is what an unlisted key reads as. -/
def Tab.get {α : Type} (d : Nat → α) : Tab α → Nat → α
  | [], k => d k
  | p :: t, k => if p.1 = k then p.2 else Tab.get d t k

/-- The table without any entry for a key. -/
def Tab.erase {α : Type} : Tab α → Nat → Tab α
  | [], _ => []
  | p :: t, k => if p.1 = k then Tab.erase t k else p :: Tab.erase t k

/-- The table with one more entry, before the first entry of a higher key. -/
def Tab.insert {α : Type} : Tab α → Nat → α → Tab α
  | [], k, v => [(k, v)]
  | p :: t, k, v => if k < p.1 then (k, v) :: p :: t else p :: Tab.insert t k v

/-- The table with a key's value replaced; writing what an unlisted key reads as removes the entry. -/
def Tab.set {α : Type} [DecidableEq α] (d : Nat → α) (t : Tab α) (k : Nat) (v : α) : Tab α :=
  if v = d k then t.erase k else (t.erase k).insert k v

/-- Every key of the table is above `m`, keys rise strictly and no value is the default. -/
def Tab.wfFrom {α : Type} [DecidableEq α] (d : Nat → α) : Nat → Tab α → Bool
  | _, [] => true
  | m, p :: t => decide (m ≤ p.1) && decide (p.2 ≠ d p.1) && Tab.wfFrom d (p.1 + 1) t

/-- The canonical form. -/
def Tab.wf {α : Type} [DecidableEq α] (d : Nat → α) (t : Tab α) : Bool := Tab.wfFrom d 0 t

/-- The listed keys from `lo` up to but not including `hi`. -/
def Tab.keysIn {α : Type} (t : Tab α) (lo hi : Nat) : List Nat :=
  (t.map Prod.fst).filter (fun k => decide (lo ≤ k) && decide (k < hi))

end Sys2Proof
end

