-- ==== Sys2Proof/Machine/State.lean ====
section
/-! DEFINITION. The state of the module as plain data, the reasons a command can stop, and the state after reset (power-on,
R458, R465). Instants of the module's clock and of module time are counts of 1/65,536 ns (R424); row times are signed,
because a path latency may be negative (R52). -/

namespace Sys2Proof.Machine

/-- Reasons for a fault. The module reports every error in its own registers (R468-R471) and goes on, so no command of this
model raises one; nothing here is safe or unsafe. -/
inductive Fault where
  deriving DecidableEq, Repr

/-- Reasons for a refusal. -/
inductive Refusal where
  /-- Raised by an arm of `exec` whose command has no meaning yet, under the row's mnemonic; safe. -/
  | notModelled (mnemonic : String)
  deriving DecidableEq, Repr

/-- Dictionary status codes (Table 10.4). -/
inductive Status where
  | ok | denied | invalid | busy | late | duplicate | mismatch | stale | noResource
  deriving DecidableEq, Repr

/-- The base states of Table 13.3. -/
inductive Base where
  | cold | boot | bringup | idle | service | quiesce | factory
  deriving DecidableEq, Repr

/-- Lane states (Table 1.9). -/
inductive LaneState where
  | off | hunt | framed | described | up | fault | absent
  deriving DecidableEq, Repr

/-- Fault causes of a lane (Table 1.11). -/
inductive LaneCause where
  | none | cwLock | fecBurst | frame | stamp | credit | protocol
  deriving DecidableEq, Repr

/-- Alignment states (Table 2.3). -/
inductive AlignState where
  | idle | calibrating | aligned | stalled | refused
  deriving DecidableEq, Repr

/-- Tile power states (Table 2.3). -/
inductive TileState where
  | on | gating | gated | ungating
  deriving DecidableEq, Repr

/-- Trigger states of a bench (R143). -/
inductive TrigState where
  | idle | waiting | triggered | holdoff | ended
  deriving DecidableEq, Repr

/-- Bench states (Table 7.4). -/
inductive BenchState where
  | free | defined | armed | faulted | resetting
  deriving DecidableEq, Repr

/-- Engine states (Table 6.4). -/
inductive EngineState where
  | idle | aligning | comparing | passed | failed | aborted | missed | stopped
  deriving DecidableEq, Repr

/-- Golden trace states (Table 6.7). -/
inductive GoldState where
  | empty | unsealed | sealing | sealed | bad
  deriving DecidableEq, Repr

/-- Rank states (Table 9.2). -/
inductive RankState where
  | inService | spare | retiring | filling | retired | parked
  deriving DecidableEq, Repr

/-- Selector states (Table 12.3). -/
inductive SelState where
  | freerun | acquiring | locked | switching | holdover
  deriving DecidableEq, Repr

/-- Proposal states (R268). -/
inductive PropState where
  | none | draft | open_ | applying | applied | void
  deriving DecidableEq, Repr

/-- A return frame (R24): its header word and its 31 payload words. -/
structure LaneMsg where
  header : W40
  payload : List W40
  deriving DecidableEq, Repr

/-- A line of the text log (R498): what it says; its wording is not given. -/
inductive UartLine where
  | boot (b : Base)
  | error (w0 w1 w2 : W64)
  deriving DecidableEq, Repr

/-- What the module sends to the outside. -/
inductive Out where
  /-- A message on a lane's return direction (R24). -/
  | lane (l : Nat) (m : LaneMsg)
  /-- The completion of a read, with its status and value (R363). -/
  | read (via : Via) (st : Status) (v : W64)
  /-- An Unsupported Request completion (R399). -/
  | unsupported (f : Nat)
  /-- The completion of a read of W-STORE, W-DBL or W-ROM (R395, R398, R406, R419). -/
  | storeData (f : Nat) (bytes : List Byte)
  /-- The completion of a configuration request; a write completes with zero data. -/
  | config (f : Nat) (v : BitVec 32)
  /-- A write to host memory: function, address, bytes, Relaxed Ordering (R402, R404). -/
  | hostWrite (f : Nat) (addr : Nat) (bytes : List Byte) (relaxed : Bool)
  /-- A read request of the fill engine (R412). -/
  | hostRead (f : Nat) (addr : Nat) (len : Nat)
  /-- An MSI-X message of a vector: the address and data of its table entry (R419). -/
  | msix (f : Nat) (vec : Nat) (addr : W64) (data : BitVec 32)
  /-- Assert_INTA or Deassert_INTA (R421). -/
  | intx (h : Nat) (assert : Bool)
  /-- A VDP response: session, request ID, status, original status, change counter, subscription, values (Table 10.10), and the `DATA`
  packet that carries it. -/
  | response (slot : Nat) (reqId : BitVec 32) (st : Status) (orig : Status) (counter : BitVec 32) (sub : Nat) (vals : List W64)
      (pkt : List Byte)
  /-- A VDP notice: session, sequence, subscription, final, counter, values (R381, R382), and its `DATA` packet. -/
  | notify (slot : Nat) (seq : Nat) (sub : Nat) (denied : Bool) (counter : BitVec 32) (vals : List W64) (pkt : List Byte)
  /-- A packet on a management port: HELLO_REPLY or REJECT (R376). -/
  | packet (m : Nat) (bytes : List Byte)
  /-- An answer to ARP, neighbour discovery or an echo request (R372). -/
  | netAnswer (m : Nat) (frame : EthFrame)
  /-- An Announce of a port with its domain, transport and dataset (R447-R449). -/
  | announce (m domain transport : Nat) (a : Announce)
  /-- A Sync (with its Follow_Up under `TWO_STEP`) or a delay message of a port: domain, transport, and the clock identity and port number of
  the sender (R447, R448). -/
  | ptp (m : Nat) (kind : PtpKind) (twoStep : Bool) (domain transport : Nat) (source : W64 × Nat)
  /-- The level of a TRIG_IO pin after a change (R135, R442). -/
  | trigIo (n : Nat) (level : Bool)
  /-- The level of PPS_OUT (R441). -/
  | pps (level : Bool)
  /-- One sample of AUX1_OUT (R454). -/
  | aux1 (code : Nat)
  /-- The open-drain output ALERT_N changes: `low`, or released (R463, R464). -/
  | alert (low : Bool)
  /-- A line of the text log on UART_TX (R498): boot progress, the base state entered, or an error record. -/
  | uart (line : UartLine)
  /-- The clock outputs restart at an instant of the module's clock: every enabled one with the instant of its first rising edge (R439). -/
  | outputsRestart (at_ : Nat) (edges : List (Nat × Nat))
  deriving DecidableEq, Repr

/-- A lane's descriptor (Table 1.6). -/
structure Descr where
  designId : W64
  buildHash : W64
  mapVersion : Nat
  coreVersion : Nat
  coreId : Nat
  epoch : Nat
  clocks : Nat
  groups : Nat
  deriving DecidableEq, Repr

/-- A lane's map: for each design clock its list of groups, clocks ascending. -/
abbrev LaneMap := List (Nat × List Nat)

/-- Map entries received for one clock: last position (`LIST_LEN`) and (position, group) pairs (Table 1.7). -/
structure MapBuild where
  dclk : Nat
  listLen : Nat
  entries : List (Nat × Nat)
  deriving DecidableEq, Repr

/-- The part of a row on one lane (R59): `words` in list order, `time` the part time (R60), `lost` when any of its words was
lost (R62), `groups` the clock's list in the map its frames were decoded with (R21). -/
structure Part where
  design : W64
  dclk : Nat
  stamp : W40
  time : Int
  words : List W40
  lost : Bool
  groups : List Nat := []
  deriving DecidableEq, Repr

/-- A probe lane beyond its dictionary elements. Instants are of the module's clock, unless said otherwise. `quenchReqs` holds the
requests whose `QUENCH` has yet to leave on the lane and the latest one that has, newest first: instant, request and deciding clock.
`midRow` holds the clocks whose latest data frame ended within a row, `straddled` the rows that were so cut by the join marker, and `early`
the parts received since then that lie before the join time (R56). -/
structure Lane where
  signal : Bool := false
  since : Nat := 0
  signalAt : Nat := 0
  good : Nat := 0
  lastSeq : Option (BitVec 10) := none
  inverted : Bool := false
  txState : BitVec 2 := 0#2
  badRun : Nat := 0
  uncorrTimes : List Nat := []
  frameErrTimes : List Nat := []
  corrWindow : Nat := 0
  corrTimes : List (Nat × Nat) := []
  windowStart : Nat := 0
  held : List (Nat × W40) := []
  lastData : List (Nat × Nat) := []
  midRow : List Nat := []
  build : List MapBuild := []
  pendDesc : Option (Descr × LaneMap) := none
  desc : Option Descr := none
  map : LaneMap := []
  descReqOut : Bool := false
  descReqAt : Nat := 0
  creditLimit : Nat := 0
  frames : Nat := 0
  creditSent : Nat := 0
  creditAt : Nat := 0
  waitFrom : Option Nat := none
  txSince : Option Nat := none
  busyUntil : Nat := 0
  timeSeq : Nat := 0
  timeAt : Nat := 0
  sinceEcho : Nat := 0
  echoes : List (Nat × Nat) := []
  delays : List Int := []
  exchanges : Nat := 0
  goodEchoes : Nat := 0
  calib : List Int := []
  admitted : Bool := false
  joinTime : Option Int := none
  straddled : List (Nat × W40) := []
  early : List (Nat × W40 × Int) := []
  lastCw : Int := 0
  lastCwClock : Nat := 0
  partsAsm : List Part := []
  parts : List Part := []
  lastStamp : List (Nat × W40) := []
  missCounted : List (Nat × W40) := []
  leftClocks : List (W64 × Nat × List Nat) := []
  marks : List (Nat × W40 × Int) := []
  quenchReqs : List (Nat × BitVec 16 × Nat) := []
  skidDelay : Nat := 0
  deriving DecidableEq, Repr

/-- One group of a row: the lane that carries it, and its word, none where it is missing (R62, R23). -/
structure RowWord where
  group : Nat
  lane : Nat
  word : Option W40
  deriving DecidableEq, Repr

/-- A row as the swage emits it (R63), with the groups of its expected lanes, the tiles to which the router delivers no
word of it (R77), and the benches that hold a lane of it under `HOLD` with that lane (R75). -/
structure Row where
  design : W64
  dclk : Nat
  stamp : W40
  time : Int
  incomplete : Bool
  words : List RowWord
  off : List Nat := []
  held : List (Nat × Nat) := []
  deriving DecidableEq, Repr

/-- An EVENT record to be written (Table 5.3): `rank` is its place in the order of R507, `tile` the one stream it goes to,
none for every stream of the bench. -/
structure Event where
  kind : Nat
  sq : Nat
  level : Nat
  arg : W40
  tile : Option Nat
  rank : Nat
  deriving DecidableEq, Repr

/-- What was decided on a row for a bench (Table 4.3), in the order of performance. -/
inductive Act where
  | trigger (sq level : Nat)
  | mark (sq level m : Nat)
  | resolve (sq level m : Nat) (row : Option (W40 × Int))
  | storeStart
  | storeStop
  | ev (e : Event)
  | assayTrigger (a : Nat)
  | assayStop
  deriving DecidableEq, Repr

/-- A row of a bench whose verdicts have not all arrived (R166, R237): what its sequencers and its engines decided, and the
pre-trigger and post-trigger counts, the hold-off (kind, value) and the SYNC interval in force on it. -/
structure RowDec where
  row : Row
  acts : List Act
  engines : Tab (List Act) := []
  post : W40
  hold : Nat × Nat
  leadStep : Bool
  holdBit : Bool
  slotStart : Bool
  lead : Nat × Nat
  pre : Nat := 0
  sync : Nat := 65536
  deriving DecidableEq, Repr

/-- An accepted trigger (R128, R170): clock, stamp and time of A, sequencer and whether an engine triggered. -/
structure Trig where
  dclk : Nat
  stamp : W40
  time : Int
  sq : Nat
  engine : Bool
  post : W40
  deriving DecidableEq, Repr

/-- What the closing of a segment fixes (R171, R174, R175): the reason, the accepted trigger, the trigger point and the mark of
an applied RESOLVE, the pre-trigger start's stamp and time, the closing row, and the rows of the trigger clock. -/
structure Closing where
  reason : Nat
  trig : Option Trig
  point : W40
  resolved : Option Nat
  start : W40
  startTime : Int
  dclk : Nat
  stamp : W40
  rows : List (W40 × Int)
  deriving DecidableEq, Repr

/-- A row of a bench on its way to the planisher, with the decisions that govern it: whether it is stored, whether a segment
opens on it and with which gate, what closes on it, the segment, from when rows must be kept (R177), its EVENT records, the
reason of an END after it, and the SYNC interval in force on it. -/
structure PlanRow where
  row : Row
  stored : Bool
  opens : Bool
  gateOpens : Bool
  snap : Bool
  closes : Option Closing
  segment : Nat
  keepFrom : Option Int
  events : List Event
  lead : Nat × Nat
  last : Option Nat
  sync : Nat := 65536
  deriving DecidableEq, Repr

/-- Words w0-w3 of a segment table entry (Table 5.2). -/
structure SegEntry where
  w0 : W64 := 0#64
  w1 : W64 := 0#64
  w2 : W64 := 0#64
  w3 : W64 := 0#64
  deriving DecidableEq, Repr

/-- The segment state machine of a bench (R165-R180). `hist` holds the rows of the domain since the segment opened. -/
structure Seg where
  open_ : Bool := false
  first : Bool := true
  openTime : Int := 0
  hist : List (Nat × W40 × Int) := []
  trig : Option Trig := none
  point : W40 := 0#40
  resolved : Option Nat := none
  closeTime : Int := 0
  closeKey : Option (Nat × W40) := none
  holdCount : Nat := 0
  gate : Bool := false
  pend : Option Bool := none
  stopFrom : Option Int := none
  assayStopped : Bool := false
  after : Option Int := none
  endAfter : Bool := false
  gapped : Bool := false
  last : Option (Nat × W40 × Int) := none
  deriving DecidableEq, Repr

/-- A quench report of one lane (R38): the deciding clock's skid, or none when the report does not name it, and the last cycle
that ran. -/
structure Report where
  skid : Option Nat
  last : W40
  deriving DecidableEq, Repr

/-- The running quench request of a bench (R136, R138, R139); `sends`: lane, the instant the `QUENCH` leaves on it, and its `LINK_DELAY` at
the decision (R38). -/
structure Quench where
  req : BitVec 16
  src : Nat
  dclk : Nat
  stamp : W40
  lanes : List (Nat × Option Report)
  sends : List (Nat × Nat × Nat) := []
  closeAt : Nat
  deriving DecidableEq, Repr

/-- A bench beyond its dictionary elements. -/
structure Bench where
  armKind : Nat := 0
  startAt : Option Int := none
  stopAt : Option Int := none
  armed : Bool := false
  armEvent : Bool := false
  triple : Option (W64 × W64 × Nat) := none
  design : Option W64 := none
  lastReq : Option (BitVec 16) := none
  lanes : List Nat := []
  withheld : List Nat := []
  foreign : List Nat := []
  quench : Option Quench := none
  acks : List (Nat × Option Nat) := []
  ackReq : BitVec 16 := 0#16
  undecided : List RowDec := []
  plan : List PlanRow := []
  seg : Seg := {}
  segs : Tab SegEntry := []
  commit : Option (Nat × W40) := none
  commitSeen : Bool := false
  commitLate : Bool := false
  commitSkip : List (Nat × W40) := []
  fault : Option FaultCause := none
  events : List Event := []
  gapped : List Nat := []
  deriving DecidableEq, Repr

/-- A sequencer beyond its dictionary elements: level entry time (R124), none before its first step row; the row times of its marks
(R131). -/
structure SeqX where
  entry : Option Int := none
  marks : List (Nat × Int) := []
  deriving DecidableEq, Repr

/-- A TRIG_IO pin (R135, R442, R443). -/
structure Pin where
  setState : Bool := false
  pulseEnd : Option Nat := none
  level : Bool := false
  deriving DecidableEq, Repr

/-- Rows of one clock a stream has lost for one cause (R199). -/
structure Gap where
  dclk : Nat
  cause : Nat
  first : W40
  last : W40
  rows : Nat
  deriving DecidableEq, Repr

/-- A lane-loss gap in progress (R200, R201). -/
structure LaneGap where
  dclk : Nat
  first : W40
  last : W40
  rows : Nat
  groups : List Nat
  deriving DecidableEq, Repr

/-- The span of row times in an ingot of a stream's ring, with its directory position (R176, R177). -/
structure IngotSpan where
  pos : Nat
  lo : Int
  hi : Int
  deriving DecidableEq, Repr

/-- A record stream (R159-R162, R183-R201). `seg` is the segment of the row it records; `starts` and `startAt` what is left of an
ingot's start block: clocks, and the next group of the first one's snapshot once its SYNC is written (R196); `doneGaps` the lane-loss
gaps that have ended and are not written yet (R201); `noDrain`: a reset of the drain queue released the link of the cell in hand (R301);
`refused`: the allocator gave its request for a cell "no cell" in a round (R298); `noIngot`: it found no ingot under `SEG_FULL_POLICY`
`END`, and loses rows until its segment closes (R177). -/
structure Stream where
  open_ : Bool := false
  groups : List (Nat × Nat) := []
  clocks : List Nat := []
  ctxs : List (Nat × W40) := []
  cur : Option Nat := none
  latest : List (Nat × W40 × Int) := []
  synced : List (Nat × W40) := []
  recv : List (Nat × W40) := []
  snapDue : List Nat := []
  syncDue : List Nat := []
  gaps : List Gap := []
  laneGaps : List LaneGap := []
  doneGaps : List LaneGap := []
  resetGap : Bool := false
  seg : Nat := 0
  starts : List Nat := []
  startAt : Option Nat := none
  cell : List W40 := []
  inHand : Option Nat := none
  noDrain : Bool := false
  refused : Bool := false
  noIngot : Bool := false
  seq : Nat := 0
  alloc : Nat × Nat := (0, 0)
  ingot : Option Nat := none
  fillSeq : Nat := 0
  spans : List IngotSpan := []
  lostTo : Option Int := none
  deriving DecidableEq, Repr

/-- One position of an ingot directory (Table 9.4); `state`: 0 UNUSED, 1 GOLDEN, 2 RING, 3 SEALED, 4 OPEN. `holds`: the standing
segments it is sealed to (R176). -/
structure DirEntry where
  ingot : Nat
  tile : Nat := 0
  state : Nat := 0
  poisoned : Bool := false
  segment : Nat := 0
  firstSeq : Nat := 0
  fillSeq : BitVec 32 := 0xFFFFFFFF#32
  cells : Nat := 0
  sealed_ : Bool := false
  holds : List Nat := []
  deriving DecidableEq, Repr

/-- An assay engine beyond its dictionary elements (R216-R239): rows to decide, S0, the place in the trace and the golden row that
comes next, row times until which it reads and compares (R230), cells read ahead with their packets, the sealed header. -/
structure Engine where
  rows : List Row := []
  s0 : Option W40 := none
  pos : Nat := 0
  values : List W40 := []
  maskSet : Nat := 0
  goldRow : Nat := 0
  holdLeft : Nat := 0
  skipLeft : Nat := 0
  readFree : Int := 0
  cmpFree : Int := 0
  asked : Nat := 0
  ahead : List (Nat × Nat) := []
  header : Option (W64 × W64 × Nat) := none
  verdict : Bool := false
  begun : Bool := false
  deriving DecidableEq, Repr

/-- The kinds of packet (Table 8.1). -/
inductive PktKind where
  | storeCell | event | golden | staging | service
  deriving DecidableEq, Repr

/-- A packet in the pool (R277): the bench it is charged to, its pool cells by number (R276), its content, how many link slots
hold it (R279), and the vector of the notice it keeps for its write-back (R405). -/
structure Packet where
  kind : PktKind
  bench : Option Nat
  cells : List Nat
  words : List W64 := []
  cell : List W40 := []
  bytes : List Byte := []
  links : Nat := 1
  complete : Bool := true
  notice : Option Nat := none
  deriving DecidableEq, Repr

/-- A hardware queue beyond its dictionary elements (R282-R303); `record`: the error record of a forced reset is due at its end. -/
structure Queue where
  pkts : List Nat := []
  popAt : Nat := 0
  inTransfer : Bool := false
  flushing : Bool := false
  flushPkt : Option Nat := none
  resetting : Bool := false
  gen : Nat := 0
  forced : Bool := false
  record : Bool := false
  sent : Nat := 0
  resetAt : Nat := 0
  readAt : Option (Nat × Nat × Nat) := none
  deriving DecidableEq, Repr

/-- What a store request does (Table 9.6). -/
inductive StoreOp where
  /-- Write a store-cell packet of a stream's list (R294). -/
  | write (pkt : Nat) (stream : Nat)
  /-- Write a host staging packet whole, or merge its bytes by offset (R331). -/
  | hostWrite (pkt : Nat) (bytes : List (Nat × Byte)) (whole : Bool)
  /-- A golden read-ahead of an engine into a packet. -/
  | goldRead (a : Nat) (pkt : Nat)
  /-- The scrub of a whole golden ingot (R215): a background job's writes, in the order of R329. -/
  | scrub
  deriving DecidableEq, Repr

/-- A request waiting in a pseudo-channel controller (R324). -/
structure StoreReq where
  cls : Nat
  bench : Nat
  func : Option Nat
  ingot : Nat
  cell : Nat
  op : StoreOp
  deriving DecidableEq, Repr

/-- A pseudo-channel: the bank it last activated (of the 32 banks of its four ranks), banks and the instant each is free, the start
of the next pin slot (R323, R324), the temperature band whose delays it applies and the one it is to apply (R336). -/
structure Chan where
  lastBank : Nat := 127
  busy : List (Nat × Nat) := []
  slotAt : Nat := 0
  band : Nat := 0
  bandDue : Option Nat := none
  deriving DecidableEq, Repr

/-- A rank: last request, self-refresh, corrected errors of the last 24 h (R332, R342). -/
structure Rank where
  lastReq : Nat := 0
  selfRef : Bool := false
  ceTimes : List Nat := []
  retireDue : Bool := false
  deriving DecidableEq, Repr

/-- A rank migration (R344-R350). `held`: it is to stop at its next chunk boundary (R461); it has stopped once `MIGRATING` is
clear. -/
structure Mig where
  src : Nat
  tgt : Nat
  chunks : Nat
  sealedChunks : Nat
  held : Bool
  done : Bool
  resumed : Bool
  deriving DecidableEq, Repr

/-- A host staging cell being filled by a function (R305, R331), and its packet. -/
structure Staging where
  ingot : Nat
  cell : Nat
  bench : Nat
  pkt : Nat
  bytes : List (Nat × Byte)
  since : Nat
  deriving DecidableEq, Repr

/-- An access of a function that waits behind its held writes (R401): a write of W-STORE; a read of W-STORE or W-ROM; a write in W-CTL by
its place; a write of an element by its object's number; a read in W-CTL; an access in W-DBL. -/
inductive HostAccess where
  | storeWrite (off : Nat) (bytes : List Byte)
  | windowRead (off : StoreOffset) (len : Nat)
  | ctlWrite (off : Nat) (bytes : List Byte)
  | element (via : Via) (obj e : Nat) (v : W64)
  | ctlRead (via : Via) (obj : Nat) (p : ElemPart)
  | doorbell (off : Nat) (acc : DblAccess)
  deriving DecidableEq, Repr

/-- What the host port complex holds for a function (R298, R401): bytes for one store cell by offset, from W-STORE or from the fill
engine, that wait for pool cells; a W-STORE read that the store does not take yet, with its byte enables; an access behind held writes. -/
inductive HeldOp where
  | write (ingot cell pos : Nat) (bytes : List (Nat × Byte)) (fill : Bool)
  | read (addr len : Nat) (errs : List (List Nat)) (enables : List Bool)
  | access (a : HostAccess)
  deriving DecidableEq, Repr

/-- One held access of a function. -/
structure Held where
  func : Nat
  bench : Nat
  op : HeldOp
  deriving DecidableEq, Repr

/-- A host port (R387-R390, R421): `perst` is the level of its PERST_N land, low while the port is held in reset; `vfBars` the VF BARs of
its SR-IOV capability (R392). -/
structure Port where
  up : Bool := false
  perst : Bool := false
  linkAt : Nat := 0
  flit : Bool := false
  rate : Nat := 0
  width : Nat := 0
  numVfs : Nat := 0
  vfEnable : Bool := false
  inta : Bool := false
  evLevel : Bool := false
  rotor : List (Nat × Nat) := []
  vfBars : Tab (BitVec 32) := []
  paceUntil : Nat := 0
  deriving DecidableEq, Repr

/-- One MSI-X vector (R419). -/
structure Vec where
  addr : W64 := 0#64
  data : BitVec 32 := 0#32
  masked : Bool := true
  pending : Bool := false
  sentAt : Option Nat := none
  deriving DecidableEq, Repr

/-- A stored response of the replay rule (R379, R418); `ref` is the reference it repeats (Table 10.10). -/
structure Replay where
  reqId : BitVec 32
  ref : W64
  at_ : Nat
  orig : Status
  counter : BitVec 32
  sub : Nat
  vals : List W64
  deriving DecidableEq, Repr

/-- A fill in progress (R412, R413): host address, first target cell, cells in all and written, the bytes read of the cell in hand, and
whether a read of it is out. -/
structure Fill where
  addr : Nat
  target : Nat
  total : Nat
  done : Nat
  masterOff : Bool
  aborting : Bool
  buf : List Byte
  asked : Bool := false
  deriving DecidableEq, Repr

/-- A function's configuration and engines (R388, R390, R392, R412-R419): `bars` holds its BARs and, as the seventh, its expansion ROM BAR;
`stale` counts the reads sent whose completions are to be discarded (R414). -/
structure Func where
  bme : Bool := false
  mse : Bool := false
  intDisable : Bool := false
  msixEnable : Bool := false
  msixMask : Bool := false
  relaxed : Bool := true
  mps : Nat := 0
  mrrs : Nat := 2
  d3hot : Bool := false
  vecs : Tab Vec := []
  replay : List Replay := []
  fill : Option Fill := none
  stale : Nat := 0
  bars : Tab (BitVec 32) := []
  deriving DecidableEq, Repr

/-- A subscription of a session (R381). -/
structure Sub where
  id : Nat
  ref : Nat × Nat
  count : Nat
  interval : Nat
  periodic : Bool
  dueAt : Nat
  counter : BitVec 32
  deriving DecidableEq, Repr

/-- A VDP session (R375-R383): ID, principal, port, the module's address, key material, packet numbers received (the highest, and those
seen among the 64 below it) and sent, the last accepted packet, replay store, subscriptions, notices sent, and the messages
decrypted and not yet executed. -/
structure Session where
  id : Nat
  princ : Nat
  port : Nat
  addr : Nat
  keys : List Byte
  high : Nat
  seen : List Nat
  sendNum : Nat
  lastAt : Nat
  replay : List Replay
  subs : List Sub
  notice : Nat
  inbox : List (List Byte)
  deriving DecidableEq, Repr

/-- The network settings of a port in force (R373), as staged elements A.004 to A.008. -/
structure NetCfg where
  ipv4 : W64 := 0#64
  gw : W64 := 0#64
  ip6hi : W64 := 0#64
  ip6lo : W64 := 0#64
  ip6cfg : W64 := 0#64
  vdp : Bool := true
  deriving DecidableEq, Repr

/-- A hardware lock: lease end and last lease written (R259-R262), and the CTL cycle in which the latest lease ran out with its owner
(R261); the rest of Table 7.5 is in LOCK_STATE. -/
structure Lock where
  leaseEnd : Nat := 0
  lease : Nat := 0
  lapsed : Option (Nat × Nat × Nat) := none
  deriving DecidableEq, Repr

/-- A line of the service memory: who holds it, a write-back in flight, the core a memory read is for, the requests that wait, and the
cores told to retry (R272). -/
structure Holding where
  owner : Option Nat := none
  wb : Option Nat := none
  reading : Option Nat := none
  waiting : List Nat := []
  retry : List Nat := []
  deriving DecidableEq, Repr

/-- A line with what came for it in its latest CTL cycle: the cycle, how the line stood before, the requests, the write-back (R272). -/
structure Line extends Holding where
  cycle : Nat := 0
  before : Holding := {}
  asked : List Nat := []
  back : Option Nat := none
  deriving DecidableEq, Repr

/-- An external reference (R428, R429): the good measurements of the qualification in progress, when the measurement in progress
began, and the last PPS_IN edge; instants of the module's clock. -/
structure Ref where
  good : Nat := 0
  since : Nat := 0
  ppsAt : Option Nat := none
  deriving DecidableEq, Repr

/-- PTP data of the instance (R447-R450): the dataset of the upstream master's last Announce, whether it is current, the last servo offset
in nanoseconds, when the last Announce and the last Sync came, and when each port last sent a message of a kind (3 × port + kind); instants
of the module's clock. -/
structure Ptp where
  up : Announce := { source := (0, 0), gm := 0, prio1 := 128, clockClass := 248, accuracy := 0xFE, variance := 0, prio2 := 128,
                     steps := 0, timeSource := 0xA0, utcOffset := 37, leap := 0, ptpTimescale := true }
  offset : Int := 0
  haveAnnounce : Bool := false
  announceAt : Nat := 0
  syncAt : Option Nat := none
  sentAt : List (Nat × Nat) := []
  deriving DecidableEq, Repr

/-- What last restarted the clock outputs in a TMB cycle (R440). -/
inductive Restart where
  | none | apply | sync | hop
  deriving DecidableEq, Repr

/-- The timing subsystem beyond its elements (R430-R454): references; the selected or target reference (255: none) and the start
of the selector's state; the frozen control value; `HOLDOVER`'s start, its time in earlier periods and whether 4 h have passed;
the TAI second at which the UTC day of a pending leap second ends; the plan hop, the one delayed behind it and what is held
for its end; the waveforms of PPS_OUT and of the converters. Instants are of the module's clock. -/
structure Timing where
  refs : Tab Ref := []
  target : Nat := 255
  since : Nat := 0
  frozen : Option Int := none
  freezes : Nat := 0
  holdAt : Nat := 0
  holdTotal : Nat := 0
  holdLate : Bool := false
  ptp : Ptp := {}
  leapAt : Int := 0
  hop : Option Nat := none
  hopDue : Option Nat := none
  heldApply : Bool := false
  heldSync : Bool := false
  restartAt : Nat := 0
  restartBy : Restart := .none
  ppsHigh : Bool := false
  ppsAt : Nat := 0
  aux0Base : Nat := 0
  aux0Phase : Nat := 0
  aux1Queue : List Nat := []
  aux1Code : Nat := 0
  aux1At : Nat := 0
  deriving DecidableEq, Repr

/-- Entries of the flash journal (R477). -/
inductive JEntry where
  | protection (set : Tab W64)
  | propReserve (n : Nat)
  | checkpoint (src tgt chunks : Nat)
  | settings (spare : Nat) (subsys : List W64)
  | activeSlot (slot : Nat)
  | fatal (w : List W64)
  deriving DecidableEq, Repr

/-- What the sealed journal entries hold (R478). -/
structure Flash where
  prot : Tab W64 := []
  propReserved : Nat := 0
  mig : Option (Nat × Nat × Nat) := none
  spare : Nat := 2
  subsys : List W64 := [0x1F9B#64, 0x1F9B#64, 0x1F9B#64, 0x1F9B#64]
  active : Nat := 0
  fatal : List W64 := []
  deriving DecidableEq, Repr

/-- The journal at work: entries not yet sealed, oldest first; whether the first one's content is programmed; whether a new
program may start (R464, R476, R478); `stopped`: the one in progress is over since then. -/
structure Journal where
  pending : List JEntry := []
  content : Bool := false
  blocked : Bool := false
  stopped : Bool := false
  deriving DecidableEq, Repr

/-- Firmware update and slots (R480-R483): the image length announced, the page being programmed with its data, which slots are not
marked invalid, and the pages written to each slot since it left the factory. -/
structure Firmware where
  len : Nat := 0
  page : Option (Nat × List W64) := none
  valid0 : Bool := true
  valid1 : Bool := true
  image0 : List (Nat × List W64) := []
  image1 : List (Nat × List W64) := []
  deriving DecidableEq, Repr

/-- The operating mode (R457, `MODE_FLAGS`). -/
structure Mode where
  base : Base := .cold
  exclusive : Option Nat := none
  rankRetired : Bool := false
  noSpare : Bool := false
  tileFenced : Bool := false
  poolBank : Bool := false
  migrating : Bool := false
  recovery : Option Nat := none
  safe : Bool := false
  safeTemp : Bool := false
  safeInput : Bool := false
  safeRail : Bool := false
  offReady : Bool := false
  quiesceOff : Bool := false
  deriving DecidableEq, Repr

/-- Health beyond its elements: throttles and the instants of Table 13.10. -/
structure Health where
  assayThrottle : Bool := false
  drainThrottle : Bool := false
  hotSince : Nat := 0
  coolSince : Option Nat := none
  safePend : Bool := false
  readAt : Nat := 0
  warned : Bool := false
  inletWarned : Bool := false
  deriving DecidableEq, Repr

/-- The module. -/
structure State where
  /-- The commands that wait, oldest first. -/
  pending : List Instr
  /-- Every element of the object dictionary (R352-R353). -/
  elems : Tab W64
  /-- The shadow copies (R148). -/
  shadow : Tab (Option W64)
  /-- The change counters (R358). -/
  cc : Tab (BitVec 32)
  /-- The free values drawn so far (the model's own). -/
  fresh : Nat
  /-- Time since power-on. -/
  clock : Nat
  /-- Module time, and whether the time base runs (R424). -/
  mtime : Nat
  tmbOn : Bool
  /-- The offset still to be slewed away (R425), and the clock instant of the last step (R49). -/
  slew : Int
  /-- What the fraction accumulator carries of a slew's correction, in millionths of 1/65,536 ns (R424). -/
  slewFrac : Nat
  steppedAt : Option Nat
  mode : Mode
  everIdle : Bool
  warmPass : Bool
  svcDown : Bool
  quiesceSince : Nat
  idleSince : Nat
  /-- What the module has sent, oldest first. -/
  out : List Out
  lanes : Tab Lane
  /-- Delivered parts, by lane, of lanes that have left `ALIGNED` since (R62, R63). -/
  leftParts : List (Nat × Part)
  /-- Rows of each domain's slot in emission (R64), by position in the list. -/
  slots : List (W64 × List Row)
  /-- The latest emitted row of each design clock of a design since power-on (R136, R151): stamp and row time. -/
  lastRow : List ((W64 × Nat) × (W40 × Int))
  /-- Tiles whose return to `ON` waits for the end of gating (R80), and tiles under test (R472). -/
  tileTurn : List Nat
  tileTest : List Nat
  cuPrev : Tab (Option W40)
  seqs : Tab SeqX
  /-- Changes of each cross-signal line with their effective row times, newest first (R133). -/
  xs : Tab (List (Int × Bool))
  pins : Tab Pin
  benches : Tab Bench
  nextReq : BitVec 16
  streams : Tab Stream
  dirs : Tab (List DirEntry)
  /-- Ingots: the bench that holds one, 1,024 for one that is free and scrubbed; an unlisted one has yet to be scrubbed. -/
  ingotOwner : Tab Nat
  engines : Tab Engine
  locks : Tab Lock
  /-- The halves of TIME96 objects latched by a caller's read, and held by its write (R354): caller, element. -/
  latched : List ((Nat × Nat) × W64)
  heldHalf : List ((Nat × Nat) × W64)
  propReserved : Nat
  lines : Tab Line
  packets : Tab Packet
  nextPkt : Nat
  bankUsed : List Nat
  fencedBanks : List Nat
  movedGroup : Option Nat
  rotor : List (Nat × Nat)
  /-- Packets that an allocator round has granted and their requesters have not used yet (R296). -/
  granted : List (AllocReq × Nat)
  /-- What waits in the host port complex for pool cells (R298). -/
  held : List Held
  queues : Tab Queue
  /-- The module warm resets since power-on: what they add to every queue's `GENERATION` (R311). -/
  queueGen : Nat
  /-- The capture store's trace ingots (R320). -/
  mem : List Host.Cell
  poison : Tab Bool
  poisonUsed : Nat
  storeReqs : List StoreReq
  chans : Tab Chan
  /-- The activate tables, by bank, with the refresh window each belongs to (R328). -/
  rowTabs : Tab (List (Nat × Nat))
  rowWindow : Tab Nat
  /-- `NEIGHBOUR_REFRESHES` (R328). -/
  neighbours : Nat
  ranks : Tab Rank
  /-- The ranks that hold the cells placed on a stack; those of the stack itself before any substitution (R317, R350). -/
  homes : Tab (List Nat)
  mig : Option Mig
  /-- The stacks whose controller is frozen (Table 9.7). -/
  frozen : List Nat
  calibrated : Bool
  speedChange : Bool
  staging : Tab (Option Staging)
  ports : Tab Port
  funcs : Tab Func
  /-- `SUBSYS_ID` of each port as in force since power-on (Table 11.8). -/
  subsys : List W64
  sessions : Tab (Option Session)
  sessionCount : Nat
  net : Tab NetCfg
  timing : Timing
  flash : Flash
  journal : Journal
  fw : Firmware
  health : Health
  /-- The touchstone's last slots, by kind: the unit tested, and the start (R485). -/
  testing : List (Nat × Nat × Nat)
  deriving DecidableEq, Repr

/-- The module right after power is applied, before the 48 V input has been in its range for 20 ms: COLD (R458, Table 13.5). -/
def State.reset : State where
  pending := []
  elems := []
  shadow := []
  cc := []
  fresh := 0
  clock := 0
  mtime := 0
  tmbOn := false
  slew := 0
  slewFrac := 0
  steppedAt := none
  mode := {}
  everIdle := false
  warmPass := false
  svcDown := false
  quiesceSince := 0
  idleSince := 0
  out := []
  lanes := []
  leftParts := []
  slots := []
  lastRow := []
  tileTurn := []
  tileTest := []
  cuPrev := []
  seqs := []
  xs := []
  pins := []
  benches := []
  nextReq := 1#16
  streams := []
  dirs := []
  ingotOwner := []
  engines := []
  locks := []
  latched := []
  heldHalf := []
  propReserved := 0
  lines := []
  packets := []
  nextPkt := 0
  bankUsed := [0, 0, 0, 0, 0, 0, 0, 0]
  fencedBanks := []
  movedGroup := none
  rotor := []
  granted := []
  held := []
  queues := []
  queueGen := 0
  mem := []
  poison := []
  poisonUsed := 0
  storeReqs := []
  chans := []
  rowTabs := []
  rowWindow := []
  neighbours := 0
  ranks := []
  homes := []
  mig := none
  frozen := []
  calibrated := false
  speedChange := false
  staging := []
  ports := []
  funcs := []
  subsys := [0x1F9B#64, 0x1F9B#64, 0x1F9B#64, 0x1F9B#64]
  sessions := []
  sessionCount := 0
  net := []
  timing := {}
  flash := {}
  journal := {}
  fw := {}
  health := {}
  testing := []

end Sys2Proof.Machine
end

