-- ==== Sys2Proof/Machine/Ops.lean ====
section
/-! DEFINITION. The named operations that the commands share: reading and writing dictionary elements and hidden state, time,
what the module sends, error records (R468-R470), interrupts (R419-R421), the operating mode (R457, R461, R476) and the
flash journal's queue (R477). -/

namespace Sys2Proof.Machine

/-! ## Elements of the dictionary -/

/-- The value of element e of an object. -/
def State.el (s : State) (o : ObjInfo) (e : Nat) : W64 := Tab.get elemDefault s.elems (o.key e)

/-- The same as a number. -/
def State.elN (s : State) (o : ObjInfo) (e : Nat) : Nat := (s.el o e).toNat

/-- The same as a truth value: bit 0. -/
def State.elB (s : State) (o : ObjInfo) (e : Nat) : Bool := (s.el o e).getLsbD 0

/-- The change counter of the object of an element (R358): 0 at power-on. -/
def State.counter (s : State) (o : ObjInfo) (e : Nat) : BitVec 32 := Tab.get (fun _ => 0#32) s.cc (o.ccKey e)

/-- The change counters with one advanced by 1 modulo 2^32 (R358). -/
def bumpCc (cc : Tab (BitVec 32)) (k : Nat) : Tab (BitVec 32) :=
  Tab.set (fun _ => 0#32) cc k (Tab.get (fun _ => 0#32) cc k + 1#32)

/-- An element takes a value and the object's counter stays: used where the write itself advances the counter once. -/
def State.put (s : State) (o : ObjInfo) (e : Nat) (v : W64) : State :=
  { s with elems := Tab.set elemDefault s.elems (o.key e) v }

/-- The object's change counter advances by 1. -/
def State.bump (s : State) (o : ObjInfo) (e : Nat) : State := { s with cc := bumpCc s.cc (o.ccKey e) }

/-- The objects that the manual says are sampled when they are read (R113, Tables 4.15 and 8.1), and those that show running time, which
the model counts among them (DESIGN CHOICE, log entry 87). -/
def statedSampled : List ObjInfo :=
  [O.CU_STATUS, O.CU_HITS, O.SQ_CNT_VALUE, O.POOL_FREE, O.MODULE_TIME, O.CAL_UTC, O.HOLDOVER_S, O.CREDIT_WAIT_NS]

/-- Whether the catalogue marks the object of an element `SAMPLED` (R384): each object of a lane family has its own entry. -/
def isSampled (o : ObjInfo) (e : Nat) : Bool :=
  let n := o.objOf e
  statedSampled.any (fun p => decide (p.base ≤ n) && decide (n < p.base + p.objects)) || Config.sampled n

/-- The change counters after a change made by the module (R358). -/
def State.ccTouched (s : State) (o : ObjInfo) (e : Nat) : Tab (BitVec 32) :=
  if isSampled o e then s.cc else bumpCc s.cc (o.ccKey e)

/-- A value that is computed at a read has changed, or not. -/
def State.touchIf (s : State) (changed : Bool) (o : ObjInfo) (e : Nat) : State :=
  { s with cc := if changed then s.ccTouched o e else s.cc }

/-- A change made by the module: the element takes the value, and the object's counter advances when the value differs and
the catalogue does not mark the object `SAMPLED` (R358). -/
def State.setEl (s : State) (o : ObjInfo) (e : Nat) (v : W64) : State :=
  { s with
    elems := Tab.set elemDefault s.elems (o.key e) v
    cc := if s.el o e = v then s.cc else s.ccTouched o e }

/-- A change made by the module, by number. -/
def State.setN (s : State) (o : ObjInfo) (e : Nat) (n : Nat) : State := s.setEl o e (BitVec.ofNat 64 n)

/-- A cumulative counter rises by k, saturating at 2^64 - 1. -/
def State.count (s : State) (o : ObjInfo) (e : Nat) (k : Nat) : State := s.setEl o e (satAdd (s.el o e) k)

/-- A cumulative counter rises by 1. -/
def State.inc (s : State) (o : ObjInfo) (e : Nat) : State := s.count o e 1

/-- Elements `[e, e + n)` of an object return to their defaults. -/
def State.clearEls (s : State) (o : ObjInfo) (e : Nat) : Nat → State
  | 0 => s
  | n + 1 => (s.clearEls o e n).setEl o (e + n) (elemDefault (o.key (e + n)))

/-- The counter numbers of the objects of some keys, but for `SAMPLED` ones (R358). -/
def changedCounters (ks : List Nat) : List Nat :=
  (ks.filterMap (fun k =>
    match findObj (k / 2 ^ 28) with
    | none => none
    | some o => if isSampled o (k % 2 ^ 28) then none else some (o.ccKey (k % 2 ^ 28)))).eraseDups

/-- Replace what is listed for keys of an interval by nothing: those elements read as their defaults, and their objects' counters advance. -/
def State.dropKeys (s : State) (lo hi : Nat) : State :=
  { s with
    elems := s.elems.filter (fun p => !(decide (lo ≤ p.1) && decide (p.1 < hi)))
    cc := (changedCounters (Tab.keysIn s.elems lo hi)).foldl bumpCc s.cc }

/-! ## Free values, and what the module sends -/

/-- The next free value: nothing constrains it; the step that reads it advances the counter. -/
def State.freeNext (s : State) : W64 := Config.freeValue s.fresh

/-- One free value has been used. -/
def State.drawn (s : State) : State := { s with fresh := s.fresh + 1 }

/-- The module sends something to the outside. -/
def State.send (s : State) (o : Out) : State := { s with out := s.out ++ [o] }

/-! ## Hidden state by number -/

def State.lane (s : State) (l : Nat) : Lane := Tab.get (fun _ => {}) s.lanes l
def State.setLane (s : State) (l : Nat) (x : Lane) : State := { s with lanes := Tab.set (fun _ => {}) s.lanes l x }
def State.modLane (s : State) (l : Nat) (f : Lane → Lane) : State := s.setLane l (f (s.lane l))

def State.bench (s : State) (b : Nat) : Bench := Tab.get (fun _ => {}) s.benches b
def State.setBench (s : State) (b : Nat) (x : Bench) : State := { s with benches := Tab.set (fun _ => {}) s.benches b x }
def State.modBench (s : State) (b : Nat) (f : Bench → Bench) : State := s.setBench b (f (s.bench b))

/-- The segment entry that a bench's `SEG_SELECT` names (R181). -/
def State.segShown (s : State) (b : Nat) : SegEntry := Tab.get (fun _ => {}) (s.bench b).segs (s.elN O.SEG_SELECT b)

/-- A change from `s` to `t` of the entry that `SEG_ENTRY` shows of a bench advances its counter (R358). -/
def noteSeg (s : State) (b : Nat) (t : State) : State :=
  t.touchIf (!decide (s.segShown b = t.segShown b)) O.SEG_ENTRY (4 * b)

def State.seqx (s : State) (q : Nat) : SeqX := Tab.get (fun _ => {}) s.seqs q
def State.setSeqx (s : State) (q : Nat) (x : SeqX) : State := { s with seqs := Tab.set (fun _ => {}) s.seqs q x }

def State.pin (s : State) (n : Nat) : Pin := Tab.get (fun _ => {}) s.pins n
def State.setPin (s : State) (n : Nat) (x : Pin) : State := { s with pins := Tab.set (fun _ => {}) s.pins n x }

def State.stream (s : State) (n : Nat) : Stream := Tab.get (fun _ => {}) s.streams n
def State.setStream (s : State) (n : Nat) (x : Stream) : State :=
  { s with streams := Tab.set (fun _ => {}) s.streams n x }
def State.modStream (s : State) (n : Nat) (f : Stream → Stream) : State := s.setStream n (f (s.stream n))

def State.dir (s : State) (b : Nat) : List DirEntry := Tab.get (fun _ => []) s.dirs b
/-- A bench's directory; its `INGOT_DIR` changes with it (R358). -/
def State.setDir (s : State) (b : Nat) (x : List DirEntry) : State :=
  { s with
    dirs := Tab.set (fun _ => []) s.dirs b x
    cc := if s.dir b = x then s.cc else s.ccTouched O.INGOT_DIR (benchEl b 0) }

def State.engine (s : State) (a : Nat) : Engine := Tab.get (fun _ => {}) s.engines a
def State.setEngine (s : State) (a : Nat) (x : Engine) : State :=
  { s with engines := Tab.set (fun _ => {}) s.engines a x }
def State.modEngine (s : State) (a : Nat) (f : Engine → Engine) : State := s.setEngine a (f (s.engine a))

def State.lock (s : State) (k : Nat) : Lock := Tab.get (fun _ => {}) s.locks k
def State.setLock (s : State) (k : Nat) (x : Lock) : State := { s with locks := Tab.set (fun _ => {}) s.locks k x }

def State.line (s : State) (k : Nat) : Line := Tab.get (fun _ => {}) s.lines k
def State.setLine (s : State) (k : Nat) (x : Line) : State := { s with lines := Tab.set (fun _ => {}) s.lines k x }

/-- What an unlisted packet number reads as. -/
def noPacket : Packet := { kind := .service, bench := none, cells := [] }

def State.packet (s : State) (p : Nat) : Packet := Tab.get (fun _ => noPacket) s.packets p
def State.setPacket (s : State) (p : Nat) (x : Packet) : State :=
  { s with packets := Tab.set (fun _ => noPacket) s.packets p x }

def State.queue (s : State) (q : Nat) : Queue := Tab.get (fun _ => {}) s.queues q
/-- What `Q_STATE` shows of a queue itself (Table 8.6). -/
def Queue.shown (x : Queue) : Bool × Bool × Bool × Nat × Nat := (x.resetting, x.flushing, x.forced, x.pkts.length, x.gen)

/-- A queue; `Q_STATE` changes with what it shows of it (R358). -/
def State.setQueue (s : State) (q : Nat) (x : Queue) : State :=
  { s with
    queues := Tab.set (fun _ => {}) s.queues q x
    cc := if (s.queue q).shown = x.shown then s.cc else s.ccTouched O.Q_STATE q }
def State.modQueue (s : State) (q : Nat) (f : Queue → Queue) : State := s.setQueue q (f (s.queue q))

def State.chan (s : State) (c : Nat) : Chan := Tab.get (fun _ => {}) s.chans c
def State.setChan (s : State) (c : Nat) (x : Chan) : State := { s with chans := Tab.set (fun _ => {}) s.chans c x }

def State.rank (s : State) (r : Nat) : Rank := Tab.get (fun _ => {}) s.ranks r
def State.setRank (s : State) (r : Nat) (x : Rank) : State := { s with ranks := Tab.set (fun _ => {}) s.ranks r x }

def State.stage (s : State) (f : Nat) : Option Staging := Tab.get (fun _ => none) s.staging f
def State.setStage (s : State) (f : Nat) (x : Option Staging) : State :=
  { s with staging := Tab.set (fun _ => none) s.staging f x }

def State.port (s : State) (h : Nat) : Port := Tab.get (fun _ => {}) s.ports h
def State.setPort (s : State) (h : Nat) (x : Port) : State := { s with ports := Tab.set (fun _ => {}) s.ports h x }
def State.modPort (s : State) (h : Nat) (f : Port → Port) : State := s.setPort h (f (s.port h))

def State.func (s : State) (f : Nat) : Func := Tab.get (fun _ => {}) s.funcs f
def State.setFunc (s : State) (f : Nat) (x : Func) : State := { s with funcs := Tab.set (fun _ => {}) s.funcs f x }
def State.modFunc (s : State) (i : Nat) (f : Func → Func) : State := s.setFunc i (f (s.func i))

def State.session (s : State) (k : Nat) : Option Session := Tab.get (fun _ => none) s.sessions k
def State.setSession (s : State) (k : Nat) (x : Option Session) : State :=
  { s with sessions := Tab.set (fun _ => none) s.sessions k x }

def State.netCfg (s : State) (m : Nat) : NetCfg := Tab.get (fun _ => {}) s.net m
def State.setNetCfg (s : State) (m : Nat) (x : NetCfg) : State := { s with net := Tab.set (fun _ => {}) s.net m x }

def State.ref (s : State) (r : Nat) : Ref := Tab.get (fun _ => {}) s.timing.refs r
def State.setRef (s : State) (r : Nat) (x : Ref) : State :=
  { s with timing := { s.timing with refs := Tab.set (fun _ => {}) s.timing.refs r x } }

/-! ## Time -/

/-- One nanosecond in units of 1/65,536 ns. -/
def ns : Nat := 65536
/-- One microsecond, one millisecond and one second in those units. -/
def us : Nat := 1000 * ns
def ms : Nat := 1000 * us
def sec : Nat := 1000 * ms

/-- The corrections of a slew that fall due while `d` units of time pass, and what the fraction accumulator then carries: one part in a
million, so that 40 ns are gone within 40 ms (R424, R425, R432, Table 12.4; that the full rate is used is DEDUCED, log entry 82). -/
def State.slewStep (s : State) (d : Nat) : Int × Nat :=
  let k := (s.slewFrac + d) / 1000000
  if s.slew.natAbs ≤ k then (s.slew, 0) else (if s.slew < 0 then -(k : Int) else k, (s.slewFrac + d) % 1000000)

/-- How often `LEASE_LEFT_MS` of some lock changes while `d` units of time pass. -/
def State.leaseSteps (s : State) (d : Nat) : Nat :=
  (s.locks.map (fun p => (p.2.leaseEnd - s.clock) / ms - (p.2.leaseEnd - (s.clock + d)) / ms)).sum

/-- The change counters after that: `LOCK_STATE` shows what is left of the leases (R358). -/
def State.leaseCc (s : State) (d : Nat) : Tab (BitVec 32) :=
  if s.leaseSteps d = 0 || isSampled O.LOCK_STATE 0 then s.cc
  else
    let k := O.LOCK_STATE.ccKey 0
    Tab.set (fun _ => 0#32) s.cc k (Tab.get (fun _ => 0#32) s.cc k + BitVec.ofNat 32 (s.leaseSteps d))

/-- `d` units of time pass: the module's clock and, once the TMB domain runs, module time advance; a slew moves module time
by at most 1 ppm and never backwards (R424, R425). -/
def advance (d : Nat) (s : State) : State :=
  let k := if s.tmbOn then s.slewStep d else (0, s.slewFrac)
  { s with
    clock := s.clock + d
    cc := s.leaseCc d
    mtime := if s.tmbOn then ((s.mtime : Int) + d + k.1).toNat else s.mtime
    slew := s.slew - k.1
    slewFrac := k.2 }

/-- Time passes until the module's clock has reached an instant (not at all where it has). -/
def advanceTo (t : Nat) (s : State) : State := advance (t - s.clock) s

/-- The CTL cycle at hand: cycles of 0.5 ns (Table 7.8). -/
def State.ctlCycle (s : State) : Nat := s.clock / (ns / 2)

/-- The time that passes until module time has reached an instant: under a slew that adds to it, less than what is missing; under one that
takes from it, more. -/
def State.untilMod (s : State) (t : Nat) : Nat :=
  let g := t - s.mtime
  if g = 0 || !s.tmbOn then g
  else if s.slew < 0 then g + min s.slew.natAbs ((g + s.slewFrac - 1) / 999999)
  else g - min s.slew.natAbs ((g + s.slewFrac) / 1000001)

/-- Time passes until module time has reached an instant (not at all where it has). -/
def advanceMod (t : Nat) (s : State) : State := advance (s.untilMod t) s

/-- What happens on an empty queue: one cycle of the time base, 1 ns, passes (R424, log entry 1). -/
def tick (s : State) : State := advance ns s

/-! ## Interrupts (R419-R421) -/

/-- Whether a message of a vector may leave: vector and function unmasked, MSI-X enabled, Bus Master Enable set and the
minimum gap passed (R419). -/
def vecReady (f vec : Nat) (s : State) : Bool :=
  let x := s.func f
  let v := Tab.get (fun _ => {}) x.vecs vec
  x.msixEnable && !x.msixMask && !v.masked && x.bme && !x.d3hot &&
    (match v.sentAt with
     | none => true
     | some t => decide (t + s.elN O.MSIX_MIN_GAP_NS f * ns ≤ s.clock))

def State.vec (s : State) (f vec : Nat) : Vec := Tab.get (fun _ => {}) (s.func f).vecs vec
def State.setVec (s : State) (f vec : Nat) (v : Vec) : State :=
  s.modFunc f (fun x => { x with vecs := Tab.set (fun _ => {}) x.vecs vec v })

/-- One message of a vector leaves, and its pending bit clears. -/
def sendVec (f vec : Nat) (s : State) : State :=
  (s.setVec f vec { s.vec f vec with pending := false, sentAt := some s.clock }).send (.msix f vec (s.vec f vec).addr (s.vec f vec).data)

/-- A notice for a vector: a message, or the pending bit (R419). -/
def raiseVec (f vec : Nat) (s : State) : State :=
  if vecReady f vec s then sendVec f vec s
  else s.setVec f vec { s.vec f vec with pending := true }

/-- The interrupt level of a port's physical function without the MSI-X condition (R421). -/
def evLevel (h : Nat) (s : State) : Bool :=
  decide (s.el O.INT_PENDING h &&& ~~~ s.el O.INT_MASK h ≠ 0#64) && !(s.func (256 * h)).intDisable

/-- The port's interrupt level after a change: Assert_INTA and Deassert_INTA on its edges with MSI-X disabled; one message on
`EVENT_VECTOR` each time the level rises with MSI-X enabled (R421). -/
def intUpdate (h : Nat) (s : State) : State :=
  let lvl := evLevel h s
  let en := (s.func (256 * h)).msixEnable
  let inta := lvl && !en
  let p := s.port h
  let s1 := if inta = p.inta then s else s.send (.intx h inta)
  let s2 := s1.setPort h { p with inta := inta, evLevel := lvl }
  if en && lvl && !p.evLevel then raiseVec (256 * h) (s.elN O.EVENT_VECTOR h % 2048) s2 else s2

/-- A source of Table 11.6 is set in the `INT_PENDING` of one port. -/
def setInt1 (src h : Nat) (s : State) : State := intUpdate h (s.setEl O.INT_PENDING h (setBit (s.el O.INT_PENDING h) src true))

/-- A source of Table 11.6 is set in the `INT_PENDING` of every port. -/
def setInt (src : Nat) (s : State) : State := setInt1 src 3 (setInt1 src 2 (setInt1 src 1 (setInt1 src 0 s)))

/-- A notice reaches a function: vector `vec`; with MSI-X Enable 0 a virtual function drops it and a physical function sets
`NOTICE` (R419, R420). -/
def notice (f vec : Nat) (s : State) : State :=
  if (s.func f).msixEnable then raiseVec f vec s
  else if f % 256 = 0 then setInt1 0 (f / 256) s
  else s

/-! ## The flash journal's queue (R477) -/

/-- `JOURNAL_STATE` shows the writes pending and the entries sealed since power-on. -/
def refreshJournal (s : State) : State :=
  s.setEl O.JOURNAL_STATE 0 (setFld (s.el O.JOURNAL_STATE 0) 15 0 (s.journal.pending.length % 65536))

/-- A journal entry is requested: it waits behind the entries requested before it. -/
def journalAdd (j : JEntry) (s : State) : State :=
  refreshJournal { s with journal := { s.journal with pending := s.journal.pending ++ [j] } }

/-! ## Operating mode (R457) -/

/-- The number of a base state (Table 13.3). -/
def Base.num : Base → Nat
  | .cold => 0 | .boot => 1 | .bringup => 2 | .idle => 3 | .service => 4 | .quiesce => 8 | .factory => 10

/-- Whether `DEGRADED` is set: any cause of Table 13.4. -/
def Mode.degraded (m : Mode) : Bool := m.rankRetired || m.noSpare || m.tileFenced || m.poolBank

/-- `MODULE_MODE` (R457): the first condition set in the order `SAFE`, `RECOVERY`, `MIGRATING`, `DEGRADED`, `EXCLUSIVE`, with
`QUIESCE` before the last three; else the base. -/
def Mode.shown (m : Mode) : Nat :=
  if m.safe then 11
  else if m.recovery.isSome then 9
  else if m.base = .quiesce then 8
  else if m.migrating then 7
  else if m.degraded then 6
  else if m.exclusive.isSome then 5
  else m.base.num

/-- `MODE_FLAGS` (Table 13.12). -/
def Mode.flags (m : Mode) : W64 :=
  put m.base.num 0 ||| put m.exclusive.isSome.toNat 4 ||| put m.degraded.toNat 5 ||| put m.migrating.toNat 6
    ||| put m.recovery.isSome.toNat 7 ||| put m.safe.toNat 8 ||| put m.offReady.toNat 9
    ||| put (m.exclusive.getD 0 % 1024) 16
    ||| put m.rankRetired.toNat 32 ||| put m.noSpare.toNat 33 ||| put m.tileFenced.toNat 34 ||| put m.poolBank.toNat 35
    ||| put m.safeTemp.toNat 40 ||| put m.safeInput.toNat 41 ||| put m.safeRail.toNat 42
    ||| put (m.recovery.getD 0 % 256) 48

/-- Whether ALERT_N is low: while `SAFE`, `RECOVERY` or `OFF_READY` is set (R463, R464). -/
def Mode.alertLow (m : Mode) : Bool := m.safe || m.recovery.isSome || m.offReady

/-- ALERT_N follows the mode: a change against the mode before is put out. -/
def noteAlert (before : Mode) (s : State) : State :=
  if before.alertLow = s.mode.alertLow then s else s.send (.alert s.mode.alertLow)

/-- The mode changes: `MODULE_MODE`, `MODE_FLAGS` and ALERT_N follow, and a change of `MODULE_MODE` sets `MODE` in `INT_PENDING`. -/
def State.setMode (s : State) (m : Mode) : State :=
  let s1 := ((noteAlert s.mode { s with mode := m }).setN O.MODULE_MODE 0 m.shown).setEl O.MODE_FLAGS 0 m.flags
  if s.elN O.MODULE_MODE 0 = m.shown then s1 else setInt 2 s1

/-- A bench arms, a store request arrives or a background job is due: `IDLE` becomes `SERVICE` (Table 13.4). -/
def toService (s : State) : State :=
  let s1 := { s with idleSince := s.clock }
  if s.mode.base = .idle then s1.setMode { s.mode with base := .service } else s1

/-! ## Benches: state and pending faults -/

/-- The state of a bench from its number (Table 7.4). -/
def BenchState.of : Nat → BenchState
  | 1 => .defined | 2 => .armed | 3 => .faulted | 4 => .resetting | _ => .free

/-- The number of a bench state (Table 7.4). -/
def BenchState.num : BenchState → Nat
  | .free => 0 | .defined => 1 | .armed => 2 | .faulted => 3 | .resetting => 4

/-- `BENCH_STATE`[b]. -/
def State.benchState (s : State) (b : Nat) : BenchState := BenchState.of (s.elN O.BENCH_STATE b)

/-- Whether a bench is `ARMED`. -/
def State.isArmed (s : State) (b : Nat) : Bool := decide (s.benchState b = .armed)

/-- The benches in `ARMED`, ascending. -/
def State.armedBenches (s : State) : List Nat :=
  (s.elems.filter (fun p => decide (O.BENCH_STATE.key 0 ≤ p.1) && decide (p.1 < O.BENCH_STATE.key 1024)
    && decide (p.2 = 2#64))).map (fun p => p.1 - O.BENCH_STATE.key 0)

/-- The bench takes a state; a bench that enters `FAULTED` sets `BENCH_FAULT` in `INT_PENDING` (Table 11.6); `ARMED_COUNT`
counts the benches in `ARMED`; the time without activity starts anew (R458). -/
def State.setBenchState (s : State) (b : Nat) (x : BenchState) : State :=
  let s1 := s.setN O.BENCH_STATE b x.num
  let s2 := ({ s1 with idleSince := s1.clock }).setN O.ARMED_COUNT 0 s1.armedBenches.length
  if x = .faulted && !decide (s.benchState b = .faulted) then setInt 4 s2 else s2

/-- An armed bench is to fault at its fault row; a second cause is ignored (R254). From here its units process no row. -/
def faultBench (b : Nat) (c : FaultCause) (s : State) : State :=
  if s.isArmed b && (s.bench b).fault.isNone then s.modBench b (fun x => { x with fault := some c }) else s

/-- Every armed bench is to fault with cause `MODE` (R461). -/
def faultAll (s : State) : State := s.armedBenches.foldl (fun t b => faultBench b .mode t) s

/-- Entry to `RECOVERY` (R461): the class that set it stays, benches fault, a running migration is held at its next chunk
boundary. -/
def enterRecovery (cls : Nat) (s : State) : State :=
  let s1 := s.setMode { s.mode with recovery := some (s.mode.recovery.getD cls) }
  faultAll { s1 with mig := s1.mig.map (fun m => { m with held := true }) }

/-- Every tile is gated, with none to turn on again: `ON` and `UNGATING` become `GATING`. `TILE_STATE` values (Table 2.3): 0 `ON`,
1 `GATING`, 2 `GATED`, 3 `UNGATING`. -/
def gateAllTiles (s : State) : State :=
  (List.range 16).foldl (fun t k => if t.elN O.TILE_STATE k = 0 || decide (t.elN O.TILE_STATE k = 3) then t.setN O.TILE_STATE k 1 else t)
    { s with tileTurn := [] }

/-- `SAFE` is set with its causes (R461, R476): benches fault, a migration is held, every tile is gated and the lane receivers
stop. -/
def enterSafe (s : State) : State :=
  let s1 := s.setMode { s.mode with safe := true }
  let s2 : State := { s1 with mig := s1.mig.map (fun m => { m with held := true }), health := { s1.health with safePend := false } }
  gateAllTiles (faultAll (s2.setN O.THERMAL_STATE 0 (if s1.mode.safeTemp then 4 else s2.elN O.THERMAL_STATE 0)))

/-- A `SAFE` trigger: no new flash program starts; `SAFE` is set once the program in progress, and the seal of its entry where
that program completes the content, are complete (R476). -/
def safeTrigger (s : State) : State :=
  let s1 := { s with journal := { s.journal with blocked := true } }
  if s.journal.pending.isEmpty && s.fw.page.isNone then enterSafe s1
  else if s.mode.safe then s1
  else { s1 with health := { s1.health with safePend := true } }

/-! ## Error records (R468-R470) -/

/-- Word 0 of an error record (Table 13.8). -/
def errWord (cls sev src unit bench : Nat) : W64 :=
  put (cls % 256) 0 ||| put (sev % 4) 8 ||| put (src % 16) 10 ||| put (unit % 65536) 16 ||| put (bench % 65536) 32
    ||| put 1 63

/-- A record of four words is written at a source's place. -/
def putRecord (o : ObjInfo) (src : Nat) (w0 w1 w2 : W64) (s : State) : State :=
  (((s.setEl o (4 * src) w0).setEl o (4 * src + 1) w1).setEl o (4 * src + 2) w2).setEl o (4 * src + 3) 0#64

/-- The largest `ERR_NOTIFIED` of the sixteen sources. -/
def maxNotified (s : State) : Nat := listMax 0 ((List.range 16).map (fun k => s.elN O.ERR_NOTIFIED k))

/-- `ERR_SUMMARY` follows the records (Table 13.12). -/
def refreshSummary (s : State) : State :=
  s.setEl O.ERR_SUMMARY 0
    (BitVec.ofNat 64 (((List.range 16).map (fun k => if bit (s.el O.ERR_FIRST (4 * k)) 63 then 2 ^ k else 0)).sum)
      ||| put (maxNotified s % 4) 16)

/-- A notification (R470). -/
def notifyError (sev src : Nat) (w0 w1 w2 : W64) (s : State) : State :=
  let s1 := s.setN O.ERR_NOTIFIED src (max sev (s.elN O.ERR_NOTIFIED src))
  let s2 := setInt 1 s1
  if sev = 3 then journalAdd (.fatal [w0, w1, w2, 0#64]) (putRecord O.ERR_LAST_FATAL 0 w0 w1 w2 s2) else s2

/-- A record's `UNIT` where the class names none of the units of Table 13.8: it stands for a free value. -/
def noUnit : Nat := 65536

/-- How many low bits of `DETAIL` the manual gives for a class: ingot and cell for the errors of a store cell (Table 13.8), the
kind of test for `TEST_FAIL` (R487). -/
def detailBits (cls : Nat) : Nat :=
  if decide (0x60 ≤ cls) && decide (cls ≤ 0x62) then 29 else if cls = 0xE0 then 4 else 0

/-- A complete record reaches its source (R469): the record, the overflow count, the notification of R470, and a line of the log (R498). -/
def placeError (cls sev src : Nat) (w0 detail : W64) (s : State) : State :=
  let w1 := BitVec.ofNat 64 (s.mtime / ns)
  let first := s.el O.ERR_FIRST (4 * src)
  let emptyFirst := !bit first 63
  let more := s.setN O.ERR_OVERFLOW src (sat 32 (s.elN O.ERR_OVERFLOW src + 1))
  let s1 :=
    if emptyFirst then putRecord O.ERR_FIRST src w0 w1 detail s
    else if fld first 7 0 = cls then more
    else if !bit (s.el O.ERR_SECOND (4 * src)) 63 then putRecord O.ERR_SECOND src w0 w1 detail s
    else more
  let s2 := if emptyFirst || decide (s.elN O.ERR_NOTIFIED src < sev) then notifyError sev src w0 w1 detail s1 else s1
  (refreshSummary s2).send (.uart (.error w0 w1 detail))

/-- An error reaches its source. `bench` 0xFFFF names no bench, `noUnit` no unit. `UNIT` of a class that names none, and what
the manual leaves open of `DETAIL`, are free values. The action of Table 13.7 is its caller's (R468). -/
def raiseError (cls sev src unit bench : Nat) (detail : W64) (s : State) : State :=
  let u := if unit < noUnit then unit else fld s.freeNext 15 0
  let s1 := if unit < noUnit then s else s.drawn
  let n := detailBits cls
  let d := if n = 0 then s1.freeNext else setFld s1.freeNext (n - 1) 0 (fld detail (n - 1) 0)
  placeError cls sev src (errWord cls sev src u bench) d s1.drawn

end Sys2Proof.Machine
end

