-- ==== Sys2Proof/Machine/Operands.lean ====
section
/-! DEFINITION. Operand forms: the fields of frame headers and payloads (Tables 1.3 to 1.7), stamps modulo 2^40, instants
carried by cores, the ADDR layout (Table 10.2) and offsets in the control window (R5), and the layouts of the registers that
commands read as operands. -/

namespace Sys2Proof.Machine

/-! ## Frames of the probe link -/

/-- Word i of a payload; zero beyond the words delivered. -/
def payWord (pay : List W40) (i : Nat) : W40 := pay.getD i 0#40

/-- Header [39:38] (R13): 0 data, 1 marker, 2 control, 3 idle. -/
def hdrKind (h : W40) : Nat := fld h 39 38

/-- Data frame header (Table 1.3). -/
def hdrDclk (h : W40) : Nat := fld h 37 30
def hdrOffset (h : W40) : Nat := fld h 29 20
def hdrCount (h : W40) : Nat := fld h 19 15
def hdrStampLo (h : W40) : Nat := fld h 14 0

/-- Control frame header (Table 1.5): type, and the fields of its low 32 bits. -/
def hdrType (h : W40) : Nat := fld h 37 32
def hdrReqId (h : W40) : Nat := fld h 31 16
def hdrMid (h : W40) : Nat := fld h 15 8
def hdrStatus (h : W40) : Nat := fld h 7 0

/-! ## Return frames (R24, Table 1.8) -/

/-- A message of a type, with the low 32 bits of its header and its first payload words; the others are zero. -/
def laneFrame (type low : Nat) (ws : List W40) : LaneMsg where
  header := put40 type 32 ||| put40 low 0
  payload := ws ++ List.replicate (31 - ws.length) 0#40

/-- `TIME`: sequence number, `ECHO_REQ`, module time in seconds, nanoseconds and 1/65,536 ns, `DELAY`, `TIME_EPOCH`. -/
def LaneMsg.time (seq : Nat) (echoReq : Bool) (t delay epoch : Nat) : LaneMsg :=
  laneFrame 0x01 (seq % 65536 * 65536 + echoReq.toNat * 32768)
    [put40 (t / sec) 0, put40 (t / sec / 2 ^ 40 % 256) 32 ||| put40 (t % sec / ns) 0, put40 (t % ns) 24, put40 delay 0,
     put40 (epoch % 2 ^ 32) 0]

/-- `CREDIT`. -/
def LaneMsg.credit (limit : Nat) : LaneMsg := laneFrame 0x02 (limit % 2 ^ 32) []

/-- `QUENCH`: request ID, deciding clock, decision row stamp. -/
def LaneMsg.quench (req : BitVec 16) (dclk : Nat) (stamp : W40) : LaneMsg :=
  laneFrame 0x03 (req.toNat * 65536) [put40 (dclk % 256) 32, stamp]

/-- `RESUME`. -/
def LaneMsg.resume (req : BitVec 16) : LaneMsg := laneFrame 0x04 (req.toNat * 65536) []

/-- `DESC_REQ`. -/
def LaneMsg.descReq (restart : Bool) : LaneMsg := laneFrame 0x05 restart.toNat []

/-- An idle frame: zero but for its kind bits. -/
def LaneMsg.idle : LaneMsg where
  header := put40 3 38
  payload := List.replicate 31 0#40

/-- The 40-bit stamp a data frame's `STAMP_LO` stands for, from the held stamp of its clock (R17). -/
def extendStamp (held : W40) (lo : Nat) : W40 :=
  let base := held.toNat / 2 ^ 15 * 2 ^ 15 + lo
  BitVec.ofNat 40 (if lo < fld held 14 0 then base + 2 ^ 15 else base)

/-- Whether stamp `a` comes after stamp `b`, modulo 2^40. -/
def stampLater (a b : W40) : Bool := decide (a ≠ b) && decide ((a - b).toNat < 2 ^ 39)

/-- The instant carried by a marker's w0-w1 or an echo's pair of words, in 1/65,536 ns: seconds, nanoseconds and 1/1,024 ns
(Table 1.4). -/
def coreTime (w0 w1 : W40) : Int := ((w0.toNat * 1000000000 + fld w1 39 10) * ns + fld w1 9 0 * 64 : Nat)

/-- The time for `k` link words of 40 bits at 112 Gb/s, rounded down to 1/65,536 ns (Table 1.1, log entry 21). -/
def wordTime (k : Nat) : Nat := k * ns * 5 / 14

/-- The fixed latency from the lane contacts to the FEC decoder's output, 160.000 ns (R504). -/
def decoderLatency : Nat := 160 * ns

/-- The clock entries of a marker frame: clock and stamp (Table 1.4). -/
def markerEntries (pay : List W40) : List (Nat × W40) :=
  (List.range (fld (payWord pay 2) 39 36)).map
    (fun j => (fld (payWord pay (3 + 2 * j)) 39 32, payWord pay (4 + 2 * j)))

/-- The descriptor of a `DESCRIPTOR` payload (Table 1.6). -/
def descrOf (pay : List W40) : Descr where
  designId := BitVec.ofNat 64 (fld (payWord pay 0) 31 0 * 2 ^ 32 + fld (payWord pay 1) 31 0)
  buildHash := BitVec.ofNat 64 (fld (payWord pay 2) 31 0 * 2 ^ 32 + fld (payWord pay 3) 31 0)
  mapVersion := fld (payWord pay 4) 31 0
  coreVersion := fld (payWord pay 5) 31 16
  coreId := fld (payWord pay 5) 15 0
  epoch := fld (payWord pay 6) 31 0
  clocks := fld (payWord pay 7) 39 36
  groups := fld (payWord pay 7) 10 0

/-- Entry i of a `GROUP_MAP` payload (Table 1.7): the upper half of a word first. -/
def mapEntry (pay : List W40) (i : Nat) : Nat :=
  let w := payWord pay (1 + i / 2)
  if i % 2 = 0 then fld w 31 16 else fld w 15 0

/-- The clock entries of a quench report: clock, skid and last stamp (R35). -/
def reportEntries (n : Nat) (pay : List W40) : List (Nat × Nat × W40) :=
  (List.range n).map (fun j =>
    (fld (payWord pay (2 + 2 * j)) 39 32, fld (payWord pay (2 + 2 * j)) 31 0, payWord pay (3 + 2 * j)))

/-- A lane's triple (R44). -/
def Descr.triple (d : Descr) : W64 × W64 × Nat := (d.designId, d.buildHash, d.mapVersion)

/-- The groups of a clock in a lane's map, in list order. -/
def LaneMap.groupsOf (m : LaneMap) (d : Nat) : List Nat :=
  match m.find? (fun p => decide (p.1 = d)) with
  | none => []
  | some p => p.2

/-- Whether a clock is in a lane's map. -/
def LaneMap.hasClock (m : LaneMap) (d : Nat) : Bool := m.any (fun p => decide (p.1 = d))

/-- All groups of a lane's map, through the clocks in ascending order. -/
def LaneMap.groups (m : LaneMap) : List Nat := m.flatMap Prod.snd

/-! ## References to elements -/

/-- The object number of an ADDR value: area × 4,096 + object. -/
def addrObj (v : W64) : Nat := fld v 63 48
/-- The element index of an ADDR value. -/
def addrElem (v : W64) : Nat := fld v 27 0
/-- Whether an ADDR value's other bits are zero (Table 10.2). -/
def addrLayout (v : W64) : Bool := decide (fld v 47 28 = 0)

/-- The object number and element at an offset of the control window (R5). -/
def windowRef (off : Nat) : Nat × Nat := (off / 2048, off % 2048 / 8)

/-! ## Registers read as operands -/

/-- The seconds part of an instant in 1/65,536 ns. -/
def secondsOf (t : Nat) : Nat := t / sec
/-- Element 2i + 1 of a TIME96 value: nanoseconds and 1/65,536 ns. -/
def fracWord (t : Nat) : W64 := put (t % sec / ns) 0 ||| put (t % ns) 32
/-- The instant a TIME96 pair stands for. -/
def time96 (w0 w1 : W64) : Nat := fld w0 47 0 * sec + fld w1 31 0 * ns + fld w1 47 32

end Sys2Proof.Machine
end

