-- ==== Sys2Proof/Machine/Mem.lean ====
section
/-! DEFINITION. The capture store's trace ingots as memory (R317-R322, R337-R340): bytes, store cells, poison marks, and the entries
of ingot directories. -/

namespace Sys2Proof.Machine

/-- What a byte that nothing has written reads as: a scrub writes zeros (R273), and no ingot is handed out unscrubbed. -/
def unwritten : Nat → Byte := fun _ => 0#8

/-- The canonical form of the memory. -/
def memWf (m : List Host.Cell) : Bool := Tab.wf unwritten m

/-- The address of a cell of a physical ingot. -/
def cellAddr (ingot cell : Nat) : Nat := ingot * 2 ^ 20 + cell * 2 ^ 10

/-- One byte. -/
def State.byteAt (s : State) (a : Nat) : Byte := Tab.get unwritten s.mem a

/-- Bytes from an address on are replaced in a memory. -/
def memWrite : List Host.Cell → Nat → List Byte → List Host.Cell
  | m, _, [] => m
  | m, a, b :: t => memWrite (Tab.set unwritten m a b) (a + 1) t

/-- Bytes from an address on are replaced. -/
def State.writeBytes (s : State) (a : Nat) (bs : List Byte) : State := { s with mem := memWrite s.mem a bs }

/-- `n` bytes from an address on. -/
def State.readBytes (s : State) (a n : Nat) : List Byte := (List.range n).map (fun i => s.byteAt (a + i))

/-- Every byte of an ingot reads as zero again (R273). -/
def State.zeroIngot (s : State) (ingot : Nat) : State :=
  { s with mem := s.mem.filter (fun p => !(decide (cellAddr ingot 0 ≤ p.1) && decide (p.1 < cellAddr (ingot + 1) 0))) }

/-! ## Poison (R338-R340) -/

/-- The number of a physical cell in the table of poison marks. -/
def cellNo (ingot cell : Nat) : Nat := ingot * 1024 + cell

/-- Whether a cell carries the poison mark. -/
def State.poisoned (s : State) (ingot cell : Nat) : Bool := Tab.get (fun _ => false) s.poison (cellNo ingot cell)

/-- The mark takes a value. -/
def State.setPoison (s : State) (ingot cell : Nat) (v : Bool) : State :=
  { s with poison := Tab.set (fun _ => false) s.poison (cellNo ingot cell) v }

/-- The form of an entry of `POISON_LIST` (R340). -/
def poisonEntry (ingot cell : Nat) : W64 := put ingot 0 ||| put cell 19 ||| put 1 63

/-- A cell becomes poisoned: a newly poisoned one is counted and listed while there is room. -/
def poisonCell (ingot cell : Nat) (s : State) : State :=
  if s.poisoned ingot cell then s
  else
    let s1 := (s.setPoison ingot cell true).inc O.POISON_COUNT 0
    if s1.poisonUsed < 4096 then
      { s1.setEl O.POISON_LIST s1.poisonUsed (poisonEntry ingot cell) with poisonUsed := s1.poisonUsed + 1 }
    else s1

/-! ## Directories (R318, R321) -/

/-- The value of `ingotOwner` for an ingot that is free and scrubbed, and for one that is not scrubbed. -/
def ownerFree : Nat := 1024
def ownerDirty : Nat := 1025

/-- Who holds an ingot. -/
def State.ingotHolder (s : State) (ingot : Nat) : Nat := Tab.get (fun _ => ownerDirty) s.ingotOwner ingot
def State.setHolder (s : State) (ingot v : Nat) : State :=
  { s with ingotOwner := Tab.set (fun _ => ownerDirty) s.ingotOwner ingot v }

/-- The directory position of an ingot in a bench. -/
def State.posOf (s : State) (b ingot : Nat) : Option Nat := (s.dir b).findIdx? (fun e => decide (e.ingot = ingot))

/-- `POISONED` in the directory entry of an ingot (R339). -/
def notePoison (ingot : Nat) (s : State) : State :=
  let b := s.ingotHolder ingot
  if b < 1024 then
    s.setDir b ((s.dir b).map (fun e => if e.ingot = ingot then { e with poisoned := true } else e))
  else s

/-- The physical cell at a byte address of a bench's store space (R320): ingot, cell; none beyond its directory. -/
def State.spaceCell (s : State) (b addr : Nat) : Option (Nat × Nat) :=
  ((s.dir b)[addr / 2 ^ 20]?).map (fun e => (e.ingot, addr % 2 ^ 20 / 2 ^ 10))

/-! ## Whole cells -/

/-- The bytes of a cell as stored. -/
def State.cellRaw (s : State) (ingot cell : Nat) : List Byte := s.readBytes (cellAddr ingot cell) 1024

/-- What a reader gets (R339): of a poisoned cell the trailer's CRC is complemented. -/
def State.cellRead (s : State) (ingot cell : Nat) : List Byte :=
  let raw := s.cellRaw ingot cell
  if s.poisoned ingot cell then raw.take 1020 ++ bytesLE 2 (~~~ (crc16 (raw.take 1020))).toNat ++ raw.drop 1022 else raw

/-- A read of a cell by any reader: a poisoned one is noted in the directory. -/
def readCell (ingot cell : Nat) (s : State) : List Byte × State :=
  (s.cellRead ingot cell, if s.poisoned ingot cell then notePoison ingot s else s)

/-- A whole cell is written: its poison mark clears (R338). -/
def writeCell (ingot cell : Nat) (bs : List Byte) (s : State) : State :=
  (s.writeBytes (cellAddr ingot cell) bs).setPoison ingot cell false

/-- Bytes of a cell are merged into it (R331); a poisoned cell stays poisoned. -/
def mergeCell (ingot cell : Nat) (bs : List (Nat × Byte)) (s : State) : State :=
  bs.foldl (fun t p => t.writeBytes (cellAddr ingot cell + p.1) [p.2]) s

/-- The 40-bit word i of a cell's bytes (R190). -/
def wordAt (bs : List Byte) (i : Nat) : W40 := BitVec.ofNat 40 (natLE ((bs.drop (5 * i)).take 5))

/-- The trailer of a cell's bytes: CRC and sequence number or index (R191, R217). -/
def trailerCrc (bs : List Byte) : Nat := natLE ((bs.drop 1020).take 2)
def trailerSeq (bs : List Byte) : Nat := natLE ((bs.drop 1022).take 2)

/-- Whether a cell's bytes pass the CRC check and carry a trailer number. -/
def cellOk (bs : List Byte) (n : Nat) : Bool :=
  decide (trailerCrc bs = (crc16 (bs.take 1020)).toNat) && decide (trailerSeq bs = n % 65536)

/-! ## Placement (R317, Table 9.1) -/

/-- The stack on which a cell is placed: cells 8m to 8m + 7 of an ingot lie in eight different stacks (R317). -/
def placeStack (ingot cell : Nat) : Nat := (cell + Config.cellStack ingot (cell / 8)) % 8

/-- The ranks in service for the cells placed on a stack, in the place of which they lie. -/
def State.homeRanks (s : State) (st : Nat) : List Nat := Tab.get (fun k => (List.range 4).map (fun i => 4 * k + i)) s.homes st
def State.setHomeRanks (s : State) (st : Nat) (l : List Nat) : State :=
  { s with homes := Tab.set (fun k => (List.range 4).map (fun i => 4 * k + i)) s.homes st l }

/-- The rank 4s + k that holds a cell. -/
def State.rankOf (s : State) (ingot cell : Nat) : Nat :=
  let l := s.homeRanks (placeStack ingot cell)
  l.getD (Config.cellRank ingot cell % l.length) (4 * placeStack ingot cell)

/-- The pseudo-channel, the bank among those of its four ranks, and the row of a cell in a rank. -/
def chanOf (rank ingot cell : Nat) : Nat := 32 * (rank / 4) + Config.cellChannel ingot cell % 32
def bankOf (rank ingot cell : Nat) : Nat := 32 * (rank % 4) + Config.cellBank ingot cell % 32
def rowOf (ingot cell : Nat) : Nat := Config.cellRow ingot cell % 12288

/-- The chunk of 64 MiB of its rank in which a cell lies: 64 of the 12,288 rows of every bank (R344). -/
def chunkOf (ingot cell : Nat) : Nat := rowOf ingot cell / 64

/-- The rank a read of a cell is served from: the target for a cell in a copied chunk of the source of a migration (R346). -/
def State.readRank (s : State) (ingot cell : Nat) : Nat :=
  let r := s.rankOf ingot cell
  match s.mig with
  | none => r
  | some m => if !m.done && decide (m.src = r) && decide (chunkOf ingot cell < m.chunks) then m.tgt else r

/-- The ranks a write of a cell goes to: source and target while a migration runs (R345). -/
def State.writeRanks (s : State) (ingot cell : Nat) : List Nat :=
  let r := s.rankOf ingot cell
  match s.mig with
  | none => [r]
  | some m => if !m.done && decide (m.src = r) then [r, m.tgt] else [r]

/-! ## Requests (R324, R332) -/

/-- Whether a request writes its cell. -/
def StoreReq.writes (r : StoreReq) : Bool :=
  match r.op with
  | .goldRead .. => false
  | _ => true

/-- Whether a request is the scrub of an ingot. -/
def StoreReq.scrubs (r : StoreReq) : Bool :=
  match r.op with
  | .scrub => true
  | _ => false

/-- The ranks that the cells of an ingot are written to. -/
def State.scrubRanks (s : State) (ingot : Nat) : List Nat := ((List.range 1024).flatMap (fun c => s.writeRanks ingot c)).foldl addNew []

/-- The ranks a request goes to. -/
def State.reqRanks (s : State) (r : StoreReq) : List Nat :=
  if r.scrubs then s.scrubRanks r.ingot else if r.writes then s.writeRanks r.ingot r.cell else [s.readRank r.ingot r.cell]

/-- A rank has a request now. -/
def noteRequest (s : State) (r : Nat) : State := s.setRank r { s.rank r with lastReq := s.clock }

/-- A request is accepted behind the earlier ones; it leaves `IDLE` (Table 13.4). -/
def acceptReq (r : StoreReq) (s : State) : State :=
  let s1 := toService s
  (s1.reqRanks r).foldl noteRequest { s1 with storeReqs := s1.storeReqs ++ [r] }

end Sys2Proof.Machine
end

