-- ==== Sys2Proof/Machine/Lanes.lean ====
section
/-! DEFINITION. Probe lanes as the commands of several families see them: lane and alignment states, domains (R51), the lanes
of a bench (R44), map conflicts (R23), lane faults of armed benches (R46-R48), and a lane's way out of `UP` and `ALIGNED`
(Table 1.9, R57, R59). -/

namespace Sys2Proof.Machine

/-! ## States -/

/-- The number of a lane state (Table 1.9). -/
def LaneState.num : LaneState → Nat
  | .off => 0 | .hunt => 1 | .framed => 2 | .described => 3 | .up => 4 | .fault => 5 | .absent => 6

/-- The lane state a number stands for. -/
def LaneState.of : Nat → LaneState
  | 1 => .hunt | 2 => .framed | 3 => .described | 4 => .up | 5 => .fault | 6 => .absent | _ => .off

/-- The number of a fault cause (Table 1.11, R509). -/
def LaneCause.num : LaneCause → Nat
  | .none => 0 | .cwLock => 1 | .fecBurst => 2 | .frame => 3 | .stamp => 4 | .credit => 5 | .protocol => 6

/-- The number of an alignment state (Table 2.3, R509). -/
def AlignState.num : AlignState → Nat
  | .idle => 0 | .calibrating => 1 | .aligned => 2 | .stalled => 3 | .refused => 4

/-- The alignment state a number stands for. -/
def AlignState.of : Nat → AlignState
  | 1 => .calibrating | 2 => .aligned | 3 => .stalled | 4 => .refused | _ => .idle

/-- `LANE_STATE` of a lane. -/
def State.laneState (s : State) (l : Nat) : LaneState := LaneState.of (s.elN O.LANE_STATE l)

/-- `ALIGN_STATE` of a lane. -/
def State.alignState (s : State) (l : Nat) : AlignState := AlignState.of (s.elN O.ALIGN_STATE l)

/-- The lane enters a state at this instant. -/
def State.setLaneState (s : State) (l : Nat) (x : LaneState) : State :=
  (s.setN O.LANE_STATE l x.num).modLane l (fun y => { y with since := s.clock })

/-- The lane's `ALIGN_STATE` changes. -/
def State.setAlign (s : State) (l : Nat) (x : AlignState) : State := s.setN O.ALIGN_STATE l x.num

/-- Whether the lane is in `UP`. -/
def State.isUp (s : State) (l : Nat) : Bool := decide (s.laneState l = .up)

/-- Whether the lane is `ALIGNED`. -/
def State.isAligned (s : State) (l : Nat) : Bool := decide (s.alignState l = .aligned)

/-- Whether the lane's receiver works on frames: codeword lock is held, and the receivers run (R17, R461). -/
def State.isLocked (s : State) (l : Nat) : Bool :=
  !s.mode.safe &&
    (match s.laneState l with
     | .framed | .described | .up => true
     | _ => false)

/-- A flag of `LANE_FLAGS` (Table 1.11): 0 `DEGRADED`, 1 `TIME_SUSPECT`, 2 `MAP_CONFLICT`, 3 `FOREIGN`. -/
def State.laneFlag (s : State) (l i : Nat) : Bool := bit (s.el O.LANE_FLAGS l) i

/-- A flag of `LANE_FLAGS` takes a value. -/
def State.setLaneFlag (s : State) (l i : Nat) (b : Bool) : State :=
  s.setEl O.LANE_FLAGS l (setBit (s.el O.LANE_FLAGS l) i b)

/-! ## Domains and benches -/

/-- All lanes. -/
def allLanes : List Nat := List.range 256

/-- The lanes the state lists: every other lane is as after reset. -/
def State.knownLanes (s : State) : List Nat := (s.lanes.map Prod.fst).filter (fun l => decide (l < 256))

/-- The `DESIGN_ID` of a lane's adopted descriptor. -/
def State.laneDesign (s : State) (l : Nat) : Option W64 := (s.lane l).desc.map (fun d => d.designId)

/-- The lanes of a domain: in `UP` with the design's descriptor (R51). -/
def State.domainLanes (s : State) (design : W64) : List Nat :=
  s.knownLanes.filter (fun l => s.isUp l && decide (s.laneDesign l = some design))

/-- The `ALIGNED` lanes of a domain. -/
def State.alignedLanes (s : State) (design : W64) : List Nat :=
  (s.domainLanes design).filter (fun l => s.isAligned l)

/-- Whether the lane's current map holds a group the bench owns (R44). -/
def State.laneOfBench (s : State) (b l : Nat) : Bool :=
  (s.lane l).map.groups.any (fun g => decide (s.elN O.GROUP_OWNER g = b))

/-- A bench's lanes (R44): those whose current map holds at least one group the bench owns. -/
def State.benchLanes (s : State) (b : Nat) : List Nat := s.knownLanes.filter (fun l => s.laneOfBench b l)

/-- Whether a lane concerns an armed bench: one of its lanes at ARM, or by its current map. That a lane of ARM whose map has lost the
bench's groups still counts is a DESIGN CHOICE (log entry 139). -/
def State.usesLane (s : State) (b l : Nat) : Bool :=
  s.isArmed b && (decide (l ∈ (s.bench b).lanes) || s.laneOfBench b l)

/-- Whether an armed bench uses one of the eight lanes of a port (R257). -/
def State.portArmed (s : State) (p : Nat) : Bool :=
  s.armedBenches.any (fun b => (List.range 8).any (fun k => s.usesLane b (8 * p + k)))

/-- The latest emitted row of a design clock of a design. -/
def State.lastOf (s : State) (design : W64) (d : Nat) : Option (W40 × Int) :=
  (s.lastRow.find? (fun p => decide (p.1 = (design, d)))).map Prod.snd

/-- The path latency of a lane as a number (R52). -/
def State.latency (s : State) (l : Nat) : Int := w64Int (s.el O.PATH_LATENCY l)

/-- The lowest and highest of a list of integers. -/
def minInt : List Int → Int
  | [] => 0
  | x :: t => t.foldl min x
def maxInt : List Int → Int
  | [] => 0
  | x :: t => t.foldl max x

/-- Whether path latencies span no more than a number of nanoseconds (R54, R55). -/
def spanWithin (n : Nat) (l : List Int) : Bool := decide (maxInt l - minInt l ≤ ((n * ns : Nat) : Int))

/-! ## Sequencers of a bench -/

/-- The fields of `SQ_CONFIG` (Table 4.15). -/
def sqEnable (c : W64) : Bool := bit c 0
def sqStepClock (c : W64) : Nat := fld c 8 1
def sqStartLevel (c : W64) : Nat := fld c 12 9
def sqLevelEvents (c : W64) : Bool := bit c 13

/-- The enabled sequencers of a bench, ascending. -/
def State.enabledSqs (s : State) (b : Nat) : List Nat :=
  (List.range 128).filter (fun q => decide (s.elN O.SQ_OWNER q = b) && sqEnable (s.el O.SQ_CONFIG q))

/-- The level of a sequencer. -/
def State.sqLevel (s : State) (q : Nat) : Nat := fld (s.el O.SQ_STATUS q) 3 0

/-- The lead sequencer of a bench and its level, as bench events carry them (R118); 0 where it has none. -/
def State.lead (s : State) (b : Nat) : Nat × Nat :=
  match (s.enabledSqs b).head? with
  | none => (0, 0)
  | some q => (q, s.sqLevel q)

/-! ## Events of a bench that no decision of a row raised (R507) -/

/-- Such an event waits for the row the bench's streams record next. Event kinds are those of Table 5.4. -/
def benchEvent (b kind : Nat) (sq level : Nat) (arg : W40) (s : State) : State :=
  s.modBench b (fun x => { x with events := x.events ++ [{ kind := kind, sq := sq, level := level, arg := arg, tile := none, rank := 0 }] })

/-! ## Lane faults of armed benches (R46-R48) -/

/-- A lane of an armed bench leaves `UP` (cause 0), adopts a differing triple (1) or acquires `MAP_CONFLICT` (2): the
LANE_FAULT event, `FOREIGN` for a differing triple, and the bench's `LANE_FAULT_POLICY`. -/
def laneTrouble1 (l cause b : Nat) (s : State) : State :=
  let s1 := benchEvent b 9 (s.lead b).1 (s.lead b).2 (put40 cause 8 ||| put40 l 0) s
  let s2 := if cause = 1 then
      (s1.setLaneFlag l 3 true).modBench b (fun x => { x with foreign := addNew x.foreign l })
    else s1
  if s2.elN O.LANE_FAULT_POLICY b = 0 then faultBench b .lane s2
  else s2.modBench b (fun x => { x with withheld := addNew x.withheld l })

/-- The same for every armed bench that uses the lane. -/
def laneTrouble (l cause : Nat) (s : State) : State :=
  (s.armedBenches.filter (fun b => s.usesLane b l)).foldl (fun t b => laneTrouble1 l cause b t) s

/-- Whether a lane may rejoin a bench under `HOLD`: in `UP`, with the recorded triple, without `MAP_CONFLICT` and not marked
`FOREIGN` by this bench (R48). -/
def mayRejoin (b l : Nat) (s : State) : Bool :=
  s.isUp l && !s.laneFlag l 2 && !decide (l ∈ (s.bench b).foreign)
    && decide ((s.lane l).desc.map Descr.triple = (s.bench b).triple)

/-- Under `HOLD` a lane rejoins every bench it may rejoin (R48). -/
def laneRejoin (l : Nat) (s : State) : State :=
  s.armedBenches.foldl (fun t b =>
    if mayRejoin b l t then t.modBench b (fun x => { x with withheld := x.withheld.filter (fun k => !decide (k = l)) })
    else t) s

/-- The bench's acquisition has ended: `FOREIGN` clears on the lanes for which no other armed bench set it (R48). -/
def clearForeign (b : Nat) (s : State) : State :=
  let ls := (s.bench b).foreign
  let s1 := s.modBench b (fun x => { x with foreign := [], withheld := [] })
  ls.foldl (fun t l =>
    if t.armedBenches.any (fun c => decide (l ∈ (t.bench c).foreign)) then t else t.setLaneFlag l 3 false) s1

/-! ## Map conflicts (R23) -/

/-- The lanes that share a group with a lane. -/
def State.conflictsWith (s : State) (l : Nat) : List Nat :=
  let gs := (s.lane l).map.groups
  s.knownLanes.filter (fun k => !decide (k = l) && (s.lane k).map.groups.any (fun g => decide (g ∈ gs)))

/-- One lane's `MAP_CONFLICT` follows the maps; a lane that acquires it concerns its armed benches, one that loses it may
rejoin them (R23, R46, R48). -/
def refreshConflict1 (l : Nat) (s : State) : State :=
  let c := !(s.conflictsWith l).isEmpty
  if c = s.laneFlag l 2 then s
  else if c then laneTrouble l 2 (s.setLaneFlag l 2 true)
  else laneRejoin l (s.setLaneFlag l 2 false)

/-- Every lane's `MAP_CONFLICT` follows the maps. -/
def refreshConflicts (s : State) : State := s.knownLanes.foldl (fun t l => refreshConflict1 l t) s

/-- The groups that lie in the maps of two lanes: no word of theirs is delivered (R23). -/
def State.groupConflict (s : State) (g : Nat) : Bool :=
  decide (2 ≤ (s.knownLanes.filter (fun l => decide (g ∈ (s.lane l).map.groups))).length)

/-! ## Messages to the core -/

/-- Whether the return transmitter of the lane's port sends (R39). -/
def State.txOn (s : State) (l : Nat) : Bool := s.elB O.PORT_ENABLE (l / 8)

/-- `DESC_REQ`: `RESTART` is 1 while the lane is not in `UP` (Table 1.8, R29); it stays unanswered until a descriptor comes. -/
def sendDescReq (l : Nat) (s : State) : State :=
  if s.txOn l then
    (s.modLane l (fun x => { x with descReqOut := true, descReqAt := s.clock })).send (.lane l (.descReq (!s.isUp l)))
  else s

/-- The parts a lane delivered before it left `ALIGNED`, which wait for their rows (R62, R63). -/
def State.leftOf (s : State) (l : Nat) : List Part := (s.leftParts.filter (fun p => decide (p.1 = l))).map Prod.snd

/-- The deskew words the swage holds for a lane (R26). -/
def State.occupancy (s : State) (l : Nat) : Nat :=
  (((s.lane l).parts ++ (s.lane l).partsAsm ++ s.leftOf l).map (fun p => p.words.length)).sum

/-- The limit rises as the swage frees deskew space: frames received plus the free words over 31 (R26, log entry 22). -/
def State.limitNow (s : State) (l : Nat) : Nat := max (s.lane l).creditLimit ((s.lane l).frames + (8192 - s.occupancy l) / 31)

/-- `CREDIT_WAIT_NS` as it stands: the waits that have ended, and the one that runs (Table 1.10). -/
def State.creditWait (s : State) (l : Nat) : W64 :=
  match (s.lane l).waitFrom with
  | none => s.el O.CREDIT_WAIT_NS l
  | some w => satAdd (s.el O.CREDIT_WAIT_NS l) ((s.clock - w) / ns)

/-- A wait of a lane ends or is cut: the time its limit has stood reached is in `CREDIT_WAIT_NS` (Table 1.10). -/
def countWait (l : Nat) (s : State) : State := s.setEl O.CREDIT_WAIT_NS l (s.creditWait l)

/-- The lane's limit after space has been freed; a wait at the old one ends (Table 1.10). -/
def raiseLimit (l : Nat) (s : State) : State :=
  let lim := s.limitNow l
  if (s.lane l).creditLimit < lim then (countWait l s).modLane l (fun y => { y with creditLimit := lim, waitFrom := none })
  else s

/-- `CREDIT` with the current limit (R26). -/
def sendCredit (l : Nat) (s : State) : State :=
  (s.modLane l (fun y => { y with creditSent := y.creditLimit, creditAt := s.clock })).send
    (.lane l (.credit ((s.lane l).creditLimit % 2 ^ 32)))

/-- `CREDIT` when the limit has advanced by 32 frames since the last one, in `UP` only (Table 1.8). -/
def creditAfterFree (l : Nat) (s : State) : State :=
  let s1 := raiseLimit l s
  let x := s1.lane l
  if s1.isUp l && decide (x.creditSent + 32 ≤ x.creditLimit) then sendCredit l s1 else s1

/-! ## Alignment -/

/-- The lane starts deskew calibration from its first step (R53): none of its words reach a row. `ALIGN_REFUSE_CAUSE` stays until a set of
16 passes or the lane is admitted (DESIGN CHOICE, log entry 163). -/
def startCalibration (l : Nat) (s : State) : State :=
  (s.setAlign l .calibrating).modLane l (fun x =>
    { x with calib := [], admitted := false, joinTime := none, partsAsm := [], lastStamp := [], straddled := [], early := [] })

/-- Whether a lane of this latency may be added to the domain's `ALIGNED` lanes (R55). -/
def admits (design : W64) (l : Nat) (s : State) : Bool :=
  spanWithin 3200 (s.latency l :: ((s.alignedLanes design).filter (fun k => !decide (k = l))).map (fun k => s.latency k))

/-- The lane is admitted, or refused with cause `SKEW` and an error record (R55, Table 13.7). An admitted lane joins at its
next marker (R56); it stops being expected for clocks its map no longer carries (R59). -/
def admitOrRefuse (l : Nat) (s : State) : State :=
  match s.laneDesign l with
  | none => s
  | some design =>
    if admits design l s then
      ((s.setAlign l .calibrating).setN O.ALIGN_REFUSE_CAUSE l 0).modLane l (fun x =>
        { x with admitted := true, joinTime := none,
                 leftClocks := x.leftClocks.filter (fun p => x.map.hasClock p.2.1) })
    else
      raiseError 0x10 1 1 l 0xFFFF 0#64 ((s.setAlign l .refused).setN O.ALIGN_REFUSE_CAUSE l 2)

/-- A lane of the domain has left `ALIGNED`: each `REFUSED` lane of the domain is re-evaluated with its measured latency
(R57). A lane refused again keeps its state. -/
def reevaluate (design : W64) (s : State) : State :=
  (s.domainLanes design).foldl (fun t l =>
    if t.alignState l = .refused && admits design l t then admitOrRefuse l t else t) s

/-- A clock that a lane has left is noted with its list, over an earlier note. -/
def noteLeft (l : List (W64 × Nat × List Nat)) (p : W64 × Nat × List Nat) : List (W64 × Nat × List Nat) :=
  l.filter (fun q => !(decide (q.1 = p.1) && decide (q.2.1 = p.2.1))) ++ [p]

/-- A lane leaves `ALIGNED` for another alignment state: it stays expected for the clocks it carried (R59); its parts in assembly are
missing, those it has delivered stay for their rows (R62, R63, log entry 55); `REFUSED` lanes of its domain are re-evaluated (R57). -/
def leaveAligned (l : Nat) (next : AlignState) (s : State) : State :=
  if s.isAligned l then
    match s.laneDesign l with
    | none => s.setAlign l next
    | some design =>
      let s1 := (s.setAlign l next).modLane l (fun x =>
        { x with leftClocks := (x.map.map (fun p => (design, p.1, p.2))).foldl noteLeft x.leftClocks
                 admitted := false, partsAsm := [], parts := [] })
      let s2 : State := { s1 with leftParts := s1.leftParts ++ (((s.lane l).parts.filter (fun p => !p.lost)).map (fun p => (l, p))) }
      reevaluate design (if next = .idle then s2 else creditAfterFree l s2)
  else s.setAlign l next

/-! ## Ways between lane states (Table 1.9) -/

/-- The lane leaves `UP`: it leaves `ALIGNED`, its `TIME_SUSPECT` clears (R49), a wait for credit ends (R42), and its armed benches are
concerned (R46). -/
def leaveUp (l : Nat) (s : State) : State :=
  if s.isUp l then
    let s1 := leaveAligned l .idle s
    let s2 := (countWait l (s1.setLaneFlag l 1 false)).modLane l (fun x =>
      { x with pendDesc := none, frameErrTimes := [], admitted := false, calib := [], joinTime := none, waitFrom := none })
    laneTrouble l 0 s2
  else s

/-- The lane enters `HUNT`: the held stamps are cleared (R17); the delays measured on it stay (R28). -/
def enterHunt (l : Nat) (s : State) : State :=
  ((leaveUp l s).setLaneState l .hunt).modLane l (fun x =>
    { x with signal := false, signalAt := s.clock, good := 0, lastSeq := none, badRun := 0, uncorrTimes := [], held := [],
             lastData := [], build := [], pendDesc := none, descReqOut := false, echoes := [], exchanges := 0,
             goodEchoes := 0, calib := [], admitted := false, joinTime := none, marks := [] })

/-- The lane enters `FAULT` with a cause, and a warning record is raised (Table 1.9, Table 13.7). The record's bench is the
first armed bench that uses the lane. -/
def laneFault (l : Nat) (c : LaneCause) (s : State) : State :=
  let bench := ((s.armedBenches.filter (fun b => s.usesLane b l)).head?).getD 0xFFFF
  raiseError 0x02 1 0 l bench 0#64
    (((leaveUp l s).setLaneState l .fault).setN O.FAULT_CAUSE l c.num)

/-- The lane enters `FRAMED` on codeword lock, and a `DESC_REQ` goes out (R24). -/
def enterFramed (l : Nat) (s : State) : State := sendDescReq l (s.setLaneState l .framed)

/-- The lane enters `UP`: it counts data frames from here, its first `CREDIT` carries 264 (R26), deskew calibration starts
(R53), and it may rejoin its benches (R48). -/
def enterUp (l : Nat) (s : State) : State :=
  let s1 := (s.setLaneState l .up).modLane l (fun x =>
    { x with frames := 0, creditLimit := 264, creditSent := 0, waitFrom := none, lastData := [], frameErrTimes := [],
             lastCwClock := s.clock, goodEchoes := 0 })
  laneRejoin l (sendCredit l (startCalibration l s1))

/-- A lane whose port is disabled: `OFF`, with its descriptor and map forgotten (Table 1.9, R506). -/
def laneOff (l : Nat) (s : State) : State :=
  let s1 := (leaveUp l s).setLaneState l .off
  let s2 := ((((s1.setN O.DESIGN_ID l 0).setN O.BUILD_HASH l 0).setN O.MAP_VERSION l 0).setN O.CORE_IDENT l 0)
  let s3 := s2.dropKeys (O.LANE_GROUP_MAP.key (1024 * l)) (O.LANE_GROUP_MAP.key (1024 * l + 1024))
  let s4 : State := { s3 with leftParts := s3.leftParts.filter (fun p => !decide (p.1 = l)) }
  s4.modLane l (fun x => { x with desc := none, map := [], leftClocks := [], parts := [], partsAsm := [], held := [],
                                  pendDesc := none, build := [], descReqOut := false, echoes := [], lastStamp := [],
                                  missCounted := [], txSince := none, busyUntil := 0, midRow := [], quenchReqs := x.quenchReqs.filter (fun q => decide (q.1 ≤ s.clock)) })

/-! ## Lane errors (Table 1.10) -/

/-- The instants of a list that lie within the last millisecond, with this one. -/
def recent (now : Nat) (l : List Nat) : List Nat := (l ++ [now]).filter (fun x => decide (now < x + ms))

/-- A frame error is counted; more than 16 in any 1 ms while `UP` fault the lane. -/
def frameError (l : Nat) (s : State) : State :=
  let s1 := s.inc O.FRAME_ERR l
  if s.isUp l then
    let r := recent s.clock (s.lane l).frameErrTimes
    let s2 := s1.modLane l (fun x => { x with frameErrTimes := r })
    if 16 < r.length then laneFault l .frame s2 else s2
  else s1

/-- A stamp error is counted and faults the lane (R19). -/
def stampError (l : Nat) (s : State) : State := laneFault l .stamp (s.inc O.STAMP_ERR l)

/-- The lane finds a part of a row missing, counted once in `MISSING_PARTS` (R62). -/
def countMissing (l d : Nat) (stamp : W40) (s : State) : State :=
  if (d, stamp) ∈ (s.lane l).missCounted then s
  else (s.inc O.MISSING_PARTS l).modLane l (fun x => { x with missCounted := x.missCounted ++ [(d, stamp)] })

/-- The parts in assembly of some clocks lose words: each is missing (R62). -/
def dropClocks (l : Nat) (which : Nat → Bool) (s : State) : State :=
  let ps := (s.lane l).partsAsm.filter (fun p => which p.dclk)
  let s1 := s.modLane l (fun x =>
    { x with partsAsm := x.partsAsm.filter (fun p => !which p.dclk),
             parts := x.parts ++ ps.map (fun p => { p with words := [], lost := true }) })
  ps.foldl (fun t p => countMissing l p.dclk p.stamp t) s1

/-- An uncorrectable codeword, or a codeword period with none (Table 1.10): all its words are lost, and the parts they belong to are found
missing by the words that follow (R62); 4 consecutive fault the lane with `CW_LOCK`, more than `UNCORR_LIMIT` in any 1 ms with
`FEC_BURST`. -/
def uncorrectable (l : Nat) (s : State) : State :=
  let x := s.lane l
  let r := recent s.clock x.uncorrTimes
  let s1 := (s.inc O.FEC_UNCORR_CW l).modLane l (fun y => { y with badRun := x.badRun + 1, uncorrTimes := r })
  if 4 ≤ x.badRun + 1 then laneFault l .cwLock s1
  else if s.elN O.UNCORR_LIMIT (l / 8) < r.length then laneFault l .fecBurst s1
  else s1

end Sys2Proof.Machine
end

