-- ==== Sys2Proof/Machine/Wire.lean ====
section
/-! DEFINITION. The wire form of the VDP: status codes (Table 10.4), the header (Table 10.9), the messages of the module (Table 10.10)
and their sealing in `DATA` packets (R377). -/

namespace Sys2Proof.Machine

/-- The code of a status (Table 10.4). -/
def Status.code : Status → Nat
  | .ok => 0 | .denied => 1 | .invalid => 2 | .busy => 3 | .late => 4 | .duplicate => 5 | .mismatch => 6 | .stale => 7
  | .noResource => 8

/-- Bytes [i, i + n) of a packet. -/
def slice (i n : Nat) (p : List Byte) : List Byte := (p.drop i).take n

/-- A field of a packet: multi-byte fields are big-endian (R374). -/
def fieldBE (i n : Nat) (p : List Byte) : Nat := natBE (slice i n p)

/-- The types of a packet (Table 10.9). -/
def pktHello : Nat := 0x01
def pktHelloReply : Nat := 0x02
def pktReject : Nat := 0x03
def pktData : Nat := 0x10

/-- A header. -/
def vdpHeader (type session num : Nat) : List Byte :=
  bytesBE 2 0x5644 ++ bytesBE 1 1 ++ bytesBE 1 type ++ bytesBE 2 session ++ bytesBE 2 0 ++ bytesBE 8 num

/-- Whether a packet's magic, version and type are known. -/
def headerOk (p : List Byte) : Bool :=
  decide (16 ≤ p.length) && decide (fieldBE 0 2 p = 0x5644) && decide (fieldBE 2 1 p = 1)
    && [pktHello, pktHelloReply, pktReject, pktData].contains (fieldBE 3 1 p)

/-- A message of the module. -/
def vdpMessage (id op status orig sub : Nat) (ref : W64) (counter : Nat) (vals : List W64) : List Byte :=
  bytesBE 4 id ++ bytesBE 1 op ++ bytesBE 1 status ++ bytesBE 1 orig ++ bytesBE 1 sub ++ bytesBE 8 ref.toNat ++ bytesBE 4 counter
    ++ bytesBE 2 vals.length ++ bytesBE 2 0 ++ vals.flatMap (fun v => bytesBE 8 v.toNat)

/-- The operations of a message. -/
def opRead : Nat := 0x01
def opWrite : Nat := 0x02
def opCasWrite : Nat := 0x03
def opSubscribe : Nat := 0x04
def opUnsubscribe : Nat := 0x05
def opKeepalive : Nat := 0x06
def opClose : Nat := 0x07
def opResponse : Nat := 0x81
def opNotify : Nat := 0x82

/-- A `DATA` packet of the module: header, then the sealed message; the nonce is the module-to-client salt and the packet number. -/
def dataPacket (x : Session) (num : Nat) (msg : List Byte) : List Byte :=
  let h := vdpHeader pktData x.id num
  h ++ Config.aesSeal (slice 32 32 x.keys) (slice 68 4 x.keys ++ bytesBE 8 num) h msg

/-- The session's next packet leaves with a message: nothing where no session is open in the slot. -/
def sendMessage (slot : Nat) (out : List Byte → Out) (msg : Session → List Byte) (s : State) : State :=
  match s.session slot with
  | none => s
  | some x =>
    let n := x.sendNum + 1
    (s.setSession slot (some { x with sendNum := n })).send (out (dataPacket x n (msg x)))

/-- A `RESPONSE`; its reference is that of the request (DEDUCED, log entry 150). -/
def respond (slot : Nat) (id : BitVec 32) (ref : W64) (st orig : Status) (counter : BitVec 32) (sub : Nat) (vals : List W64) (s : State) :
    State :=
  sendMessage slot (fun pkt => .response slot id st orig counter sub vals pkt)
    (fun _ => vdpMessage id.toNat opResponse st.code orig.code sub ref counter.toNat vals) s

/-- A `NOTIFY`, with the session's next notice sequence number (R382) and the first element subscribed to. -/
def sendNotify (slot sub : Nat) (ref : W64) (denied : Bool) (counter : BitVec 32) (vals : List W64) (s : State) : State :=
  match s.session slot with
  | none => s
  | some x =>
    sendMessage slot (fun pkt => .notify slot (x.notice + 1) sub denied counter vals pkt)
      (fun _ => vdpMessage ((x.notice + 1) % 2 ^ 32) opNotify sub 0 denied.toNat ref counter.toNat vals)
      (s.setSession slot (some { x with notice := x.notice + 1 }))

end Sys2Proof.Machine
end

