-- ==== Sys2Proof/Machine/Dict.lean ====
section
/-! DEFINITION. The dictionary engine: who a request acts for and what it may reach (R247, R248, R352, R364, R385, R505), the
checks of an access in their order (R357), compare-and-set (R358, R367), when areas are served (R389, R466, R473, R483), and
the frame that every dictionary write shares. -/

namespace Sys2Proof.Machine

/-! ## Owners -/

/-- The value of an owner item that names no bench. -/
def noBench : Nat := 0xFFFF

/-- An owner value as a bench. -/
def ownerOf (n : Nat) : Option Nat := if n < 1024 then some n else none

/-! ## Principals (R247, R248) -/

/-- The principal entries that may differ from the empty entry: those listed and those of the factory (Table 7.3). -/
def State.principals (s : State) : List Nat :=
  (Tab.keysIn s.elems (O.PRINC_IDENT.key 0) (O.PRINC_IDENT.key 2048)).map (fun k => k - O.PRINC_IDENT.key 0)
    ++ [0, 1, 2, 3, 4]

/-- `KIND` and `FUNCTION` of a principal entry (Table 7.3). -/
def State.princKind (s : State) (n : Nat) : Nat := fld (s.el O.PRINC_IDENT n) 1 0
def State.princFunc (s : State) (n : Nat) : Nat := fld (s.el O.PRINC_IDENT n) 25 16

/-- The principal entry that names a function. -/
def State.princOfFunc (s : State) (f : Nat) : Option Nat :=
  s.principals.find? (fun n => decide (s.princKind n = 1) && decide (s.princFunc n = f))

/-- Whether a function is physical. -/
def isPF (f : Nat) : Bool := decide (f % 256 = 0)

/-- The principal a request acts for; a virtual function has none (R247). -/
def viaPrinc (v : Via) (s : State) : Option Nat :=
  match v with
  | .wctl f | .relay f => if isPF f.val then s.princOfFunc f.val else none
  | .vdp k => (s.session k.val).map (fun x => x.princ)
  | .service _ => some 0

/-- The rights of a request (R248, Table 7.2). -/
structure Rights where
  admin : Bool := false
  service : Bool := false
  custodian : Bool := false
  bench : Option Nat := none
  deriving DecidableEq, Repr

/-- The rights of a principal entry; `fb` is the bench a function principal's `FUNC_BINDING` names (Table 7.3). -/
def State.princRights (s : State) (n : Nat) (fb : Option Nat) : Rights :=
  let r := s.el O.PRINC_RIGHTS n
  { admin := bit r 0, service := bit r 2, custodian := bit r 3,
    bench := if bit r 1 then (if s.princKind n = 1 then fb else some (fld r 31 16)) else none }

/-- The bench a function is bound to. -/
def State.binding (s : State) (f : Nat) : Option Nat := ownerOf (s.elN O.FUNC_BINDING f)

/-- The rights of a request (R248). -/
def viaRights (v : Via) (s : State) : Rights :=
  match v with
  | .wctl f | .relay f =>
    if isPF f.val then
      match s.princOfFunc f.val with
      | none => {}
      | some n => s.princRights n (s.binding f.val)
    else { bench := s.binding f.val }
  | .vdp k =>
    match s.session k.val with
    | none => {}
    | some x => s.princRights x.princ none
  | .service _ => s.princRights 0 none

/-- The caller's own bench (R370): a function's `FUNC_BINDING`, a session principal's `BENCH` where it holds Bench-owner. -/
def viaBench (v : Via) (s : State) : Option Nat :=
  match v with
  | .wctl f | .relay f => s.binding f.val
  | .vdp _ => (viaRights v s).bench
  | .service _ => none

/-- The number under which a caller's own copies of E.000-E.03F stand (R365): functions, then sessions. -/
def viaCopy (v : Via) : Option Nat :=
  match v with
  | .wctl f | .relay f => some f.val
  | .vdp k => some (1024 + k.val)
  | .service _ => none

/-- The element of a caller-local object in the caller's copy. -/
def copyEl (c e : Nat) : Nat := c * 1024 + e

/-- Whether an object has an element; those of a caller-local one are numbered copy by copy, those of a bench-relative one bench by
bench. -/
def ObjInfo.has (o : ObjInfo) (e : Nat) : Bool :=
  decide ((if o.isLocal then e % 1024 else if o.own = .caller then e % 2 ^ 20 else e) < o.count)

/-! ## Whose element -/

/-- The bench an element belongs to, where it belongs to one. -/
def ObjInfo.ownerBench (o : ObjInfo) (e : Nat) (s : State) : Option Nat :=
  match o.own with
  | .bench k => some (e / k)
  | .cu => ownerOf (s.elN O.CU_OWNER e)
  | .sq k => ownerOf (s.elN O.SQ_OWNER (e / k))
  | .ae k => ownerOf (s.elN O.AE_OWNER (e / k))
  | .queue => ownerOf (s.elN O.Q_OWNER e)
  | .port => ownerOf (s.elN O.PORT_OWNER e)
  | .lane => ownerOf (s.elN O.PORT_OWNER (e / 8))
  | .laneMap => ownerOf (s.elN O.PORT_OWNER (e / 8192))
  | .pin => ownerOf (s.elN O.TRIG_PIN_OWNER e)
  | .func => ownerOf (s.elN O.FUNC_BINDING e)
  | .group => ownerOf (s.elN O.GROUP_OWNER e)
  | .lock => ownerOf (s.elN O.LOCK_BENCH e)
  | .module | .clock | .caller => none

/-- Whether a bench-owner's bench owns the element. -/
def ownsEl (r : Rights) (o : ObjInfo) (e : Nat) (s : State) : Bool :=
  match r.bench, o.ownerBench e s with
  | some b, some c => decide (b = c)
  | _, _ => false

/-- The area of an object. -/
def ObjInfo.area (o : ObjInfo) : Nat := o.base / 4096

/-- Whether one of a bench's lanes carries a design clock (R505). -/
def State.benchCarries (s : State) (b d : Nat) : Bool :=
  (s.benchLanes b).any (fun l => (s.lane l).map.hasClock d)

/-- The reads of R505 for a Bench-owner principal. -/
def read505 (o : ObjInfo) (e b : Nat) (s : State) : Bool :=
  match o.own with
  | .port => decide (s.elN O.PORT_OWNER e = b)
  | .lane => decide (s.elN O.PORT_OWNER (e / 8) = b) || s.laneOfBench b e
  | .laneMap => decide (s.elN O.PORT_OWNER (e / 8192) = b) || s.laneOfBench b (e / 1024)
  | .clock => s.benchCarries b e
  | _ => true

/-- Whether the rights of Table 7.2 let Service read an object: status in areas 0-3 and 8-D. -/
def serviceReads (o : ObjInfo) : Bool := decide (o.area ≤ 3) || (decide (8 ≤ o.area) && decide (o.area ≤ 13))

/-- The module's own queues (R281): their elements are written by principal 0 only, which alone holds Service. -/
def serviceQueue (o : ObjInfo) (e : Nat) : Bool := decide (o.own = .queue) && decide (16128 ≤ e)

/-- The rights that a catalogue entry lists for an access (R384). -/
structure RightSet where
  admin : Bool
  bench : Bool
  service : Bool
  custodian : Bool
  deriving DecidableEq, Repr

/-- Their word (Table 10.11): Admin, Bench-owner, Service, Custodian. -/
def RightSet.bits (r : RightSet) : Nat := r.admin.toNat + 2 * r.bench.toNat + 4 * r.service.toNat + 8 * r.custodian.toNat

/-- `READ_RIGHTS` of an object: the rights of which the rules of its chapter ask one for a read. -/
def ObjInfo.readRights (o : ObjInfo) : RightSet :=
  let custody := decide (o.area = 4)
  match o.rd with
  | .every => ⟨true, true, true, true⟩
  | .none => ⟨false, false, false, false⟩
  | .owner => ⟨true, true, serviceReads o || decide (o.own = .queue), custody⟩
  | .ownerService | .port505 | .lane505 | .clock505 | .any505 => ⟨true, true, true, false⟩
  | .admin | .lock => ⟨true, false, false, false⟩
  | .adminService => ⟨true, false, true, false⟩
  | .service => ⟨false, false, true, false⟩
  | .custAdmin => ⟨true, false, false, true⟩
  | .std => ⟨true, decide (o.own ≠ .module) || Config.benchOwnerReads o.base, serviceReads o, custody⟩

/-- `WRITE_RIGHTS` of an object, by the rules of its chapter. -/
def ObjInfo.writeRights (o : ObjInfo) : RightSet :=
  match o.wr with
  | .every | .lock => ⟨true, true, true, true⟩
  | .none => ⟨false, false, false, false⟩
  | .owner => ⟨true, true, decide (o.own = .queue), false⟩
  | .ownerService => ⟨true, true, true, false⟩
  | .admin | .std => ⟨true, false, decide (o.own = .queue), false⟩
  | .adminService | .port505 | .lane505 | .clock505 | .any505 => ⟨true, false, true, false⟩
  | .service => ⟨false, false, true, false⟩
  | .custAdmin => ⟨true, false, false, true⟩

/-- Whether the rights of a request include one of those listed (R385). -/
def Rights.includes (r : Rights) (l : RightSet) : Bool :=
  (r.admin && l.admin) || (r.bench.isSome && l.bench) || (r.service && l.service) || (r.custodian && l.custodian)

/-- The reads that the rules of the chapters leave to a request with a listed right: owner checks by element (R385, R86, R505). -/
def readOwned (o : ObjInfo) (e : Nat) (r : Rights) (s : State) : Bool :=
  if serviceQueue o e && r.service then true else
  match o.rd with
  | .every => true
  | .none => false
  | .owner => r.admin || ownsEl r o e s || (r.service && serviceReads o) || (r.custodian && decide (o.area = 4))
  | .ownerService => r.admin || r.service || ownsEl r o e s
  | .admin => r.admin
  | .adminService => r.admin || r.service
  | .service => r.service
  | .custAdmin => r.custodian || r.admin
  | .lock => r.admin
  | .port505 | .lane505 | .clock505 | .any505 =>
    r.admin || r.service || (match r.bench with | none => false | some b => read505 o e b s)
  | .std =>
    r.admin || (r.service && serviceReads o) || (r.custodian && decide (o.area = 4)) || ownsEl r o e s
      || (r.bench.isSome && decide (o.own = .module) && Config.benchOwnerReads o.base)

/-- Whether a request may read an element: every principal where the object is open to all (Table 10.1), else one with a right that
`READ_RIGHTS` lists and that passes the owner check (R385). -/
def mayRead (o : ObjInfo) (e : Nat) (r : Rights) (s : State) : Bool :=
  decide (o.rd = .every) || (r.includes o.readRights && readOwned o e r s)

/-- The writes that the rules of the chapters leave to a request with a listed right: owner checks by element. -/
def writeOwned (o : ObjInfo) (e : Nat) (r : Rights) (s : State) : Bool :=
  if serviceQueue o e then r.service else
  match o.wr with
  | .every | .lock => true
  | .none => false
  | .owner => r.admin || ownsEl r o e s
  | .ownerService => r.admin || r.service || ownsEl r o e s
  | .admin | .std => r.admin
  | .adminService => r.admin || r.service
  | .service => r.service
  | .custAdmin => r.custodian || r.admin
  | .port505 | .lane505 | .clock505 | .any505 => r.admin || r.service

/-- Whether a request may write an element (R385); a caller's own copy and the locks are open to every principal, whose rules then
check it (R259, R365). -/
def mayWrite (o : ObjInfo) (e : Nat) (r : Rights) (s : State) : Bool :=
  decide (o.wr = .every) || decide (o.wr = .lock) || (r.includes o.writeRights && writeOwned o e r s)

/-- Whether the path reaches an object at all: a virtual function's own window shows areas 0 and E only (R364); the objects
E.010-E.01C and `WIN_STATUS` exist for functions only (R369, R423); area E above E.03F needs a local bench (R370). -/
def reaches (v : Via) (o : ObjInfo) (s : State) : Bool :=
  (match v with
   | .wctl f => isPF f.val || decide (o.area = 0) || decide (o.area = 14)
   | _ => true)
  && (match o.own with
      | .caller =>
        if o.base < 0xE040 then
          (match v with
           | .wctl _ | .relay _ => true
           | .vdp _ => !decide (o.base = 0xE000) && decide (o.base < 0xE010)
           | .service _ => false)
        else (viaBench v s).isSome
      | _ => true)

/-! ## When the areas are served (R389, R466, R473, R483, R250) -/

/-- Whether the module serves an access to an area by a path now; an access it does not serve is refused with `BUSY`. -/
def served (v : Via) (area : Nat) (s : State) : Bool :=
  if s.mode.base = .cold then false
  else if s.mode.recovery = some 0xB0 && decide (s.mode.base = .boot) then
    (match v with
     | .wctl f => isPF f.val && (decide (area ≤ 1) || decide (area = 12) || decide (area = 13))
     | _ => false)
  else
    match v with
    | .wctl _ | .relay _ =>
      if area ≤ 1 then true
      else if s.warmPass || s.svcDown then false
      else s.everIdle || decide (area = 14)
    | .vdp _ => s.everIdle && !s.warmPass
    | .service _ => !decide (s.mode.base = .boot) && !s.svcDown

/-! ## Checks -/

/-- The fields of `Q_CONFIG` are in range (R281, Table 8.2): kind, capacity and threshold, reserved bits; `SERVICE` in the module's own
queues only. -/
def queueFieldsOk (q : Nat) (v : W64) : Bool :=
  let kind := fld v 2 0
  decide (kind < 4) && decide (fld v 63 50 = 0) && (decide (kind = 1) || decide (fld v 23 20 = 0))
    && !(decide (kind = 3) && decide (q < 16128)) && (decide (kind = 0) || decide (fld v 19 4 ≠ 0))

/-- The fields of the BITS objects whose own rules also compare other elements (Tables 3.5 and 8.2). Those of the others are checked by
their rules (`ownFirst`). -/
def bitsOk (o : ObjInfo) (e : Nat) (v : W64) : Bool :=
  !(decide (o.base = O.CU_EXPORT.base) && decide (fld v 63 8 ≠ 0)) && !(decide (o.base = O.Q_CONFIG.base) && !queueFieldsOk e v)

/-- The check of an element's type and range (R353, Table 10.2): nanoseconds below 10^9 in the odd elements of a TIME96; a rank 0-7 or
255 in `REF_PRIORITY` (R427). -/
def typeOk (o : ObjInfo) (e : Nat) (v : W64) : Bool :=
  let n : Int := (v.toNat : Int)
  match o.ty with
  | .i32 | .i64 => (o.ty = .i64 || decide (BitVec.ofInt 64 (signedOf 32 (fld v 31 0)) = v))
      && decide (o.lo ≤ w64Int v) && decide (w64Int v ≤ o.hi)
  | .addr => addrLayout v
  | .cmd => true
  | .time96 => decide (e % 2 = 0) || decide (fld v 31 0 < 1000000000)
  | .bits => bitsOk o e v
  | .str => (List.range 8).all (fun k => let c := fld v (8 * k + 7) (8 * k); decide (c = 0) || (decide (0x20 ≤ c) && decide (c ≤ 0x7E)))
  | _ => decide (o.lo ≤ n) && decide (n ≤ o.hi) && !(decide (o.base = O.REF_PRIORITY.base) && decide (7 < n) && decide (n < 255))

/-- Whether an access kind takes writes (Table 10.3). -/
def Acc.writable : Acc → Bool
  | .ro | .rc => false
  | _ => true

/-- Whether the object's bench is `RESETTING`: writes to the bench's objects are refused with `BUSY` (R252). -/
def resettingOwner (o : ObjInfo) (e : Nat) (s : State) : Bool :=
  (match o.own with
   | .bench _ | .cu | .sq _ | .ae _ | .queue => true
   | _ => false)
  && !decide (o.base = O.BENCH_CMD.base)
  && (match o.ownerBench e s with
      | none => false
      | some b => decide (s.benchState b = .resetting))

/-! ## The state of the proposal (R268) -/

/-- `PROP_STATUS` states. -/
def propNone : Nat := 0
def propDraft : Nat := 1
def propOpen : Nat := 2
def propApplying : Nat := 3
def propApplied : Nat := 4
def propVoid : Nat := 5

/-- Void causes. -/
def voidExpired : Nat := 1
def voidCancelled : Nat := 2
def voidVetoed : Nat := 3
def voidBroken : Nat := 4
def voidRefused : Nat := 5

/-- The state of the proposal. -/
def State.propState (s : State) : Nat := fld (s.el O.PROP_STATUS 0) 2 0

/-- `PROP_STATUS` takes a value; a change of its state sets `PROPOSAL` in `INT_PENDING` (Table 11.6). -/
def setPropStatus (w : W64) (s : State) : State :=
  let s1 := s.setEl O.PROP_STATUS 0 w
  if fld w 2 0 = s.propState then s1 else setInt 3 s1

/-- The state of the proposal changes, with a void cause. -/
def setPropState (st cause : Nat) (s : State) : State :=
  setPropStatus (setFld (setFld (s.el O.PROP_STATUS 0) 2 0 st) 7 4 cause) s

/-- A refusal of a step of Table 7.7 is recorded in `PROP_STATUS` [15:8]. -/
def propRefuse (st : Status) (s : State) : State × Status := (setPropStatus (setFld (s.el O.PROP_STATUS 0) 15 8 st.code) s, st)

/-- Whether a path is the relay, which names neither area 0 nor area E (R366). -/
def relayBad (via : Via) (o : ObjInfo) : Bool :=
  match via with
  | .relay _ => decide (o.area = 0) || decide (o.area = 14)
  | _ => false

/-- Whether a write is a step of the exchange of Table 7.7: LK000's, the staging, submission, signing and cancelling of a proposal. -/
def proposalStep (o : ObjInfo) (e : Nat) : Bool :=
  [O.PROP_BODY, O.PROP_LEN, O.PROP_SIG, O.PROP_SUBMIT, O.CSIGN_SIG, O.PROP_COUNTERSIGN, O.PROP_CANCEL].any (fun p => decide (p.base = o.base))
    || (decide (e = 0) && [O.LOCK_ACQUIRE, O.LOCK_RELEASE, O.LOCK_RENEW].any (fun p => decide (p.base = o.base)))

/-- A refusal by the dictionary engine of a write that reaches it and is a step of Table 7.7 is recorded in `PROP_STATUS` [15:8] too (R268,
log entry 59). -/
def noteRefusal (via : Via) (o : ObjInfo) (e : Nat) (st : Status) (s : State) : State × Status :=
  if proposalStep o e && served via o.area s && !relayBad via o && reaches via o s then propRefuse st s else (s, st)

/-! ## Writes -/

/-- A write that only sets the element. -/
def setAct (o : ObjInfo) (e : Nat) (v : W64) : State → State × Status := fun s => (s.put o e v, .ok)

/-- The first check of R357 on a write: that the area is served, that the relay may name it, and the caller's right. -/
def writeRight (via : Via) (o : ObjInfo) (e : Nat) (s : State) : Status :=
  if !served via o.area s then .busy
  else if relayBad via o then .invalid
  else if !reaches via o s || !o.has e || !mayWrite o e (viaRights via s) s || !o.acc.writable then .denied
  else .ok

/-- The checks of R357 before the object's own rules: the first status that applies, `OK` when all pass. -/
def writeCheck (via : Via) (expect : Option (BitVec 32)) (o : ObjInfo) (e : Nat) (v : W64) (s : State) : Status :=
  match writeRight via o e s with
  | .ok =>
    if !typeOk o e v then .invalid
    else
      match expect with
      | none => if o.acc = .cas then .stale else if resettingOwner o e s then .busy else .ok
      | some c => if s.counter o e ≠ c then .stale else if resettingOwner o e s then .busy else .ok
  | st => st

/-- The objects whose rules begin with an owner check of their chapter (R74, R85, R109, R135, R137, R144, R158, R259, R261, R268, R281, R402):
`DENIED`. -/
def ownerChecked : List ObjInfo :=
  [O.CU_CONFIG, O.CU_GROUP, O.SQ_CONFIG, O.SQ_BRANCH_INPUTS, O.SQ_BRANCH_ACTION, O.SQ_CNT_CONFIG, O.HOLDOFF_SEL, O.QUENCH_CMD, O.RESUME_CMD,
   O.AE_CONFIG, O.AE_GROUP_LIST, O.LOCK_ACQUIRE, O.LOCK_RELEASE, O.LOCK_RENEW, O.PROP_BODY, O.PROP_LEN, O.PROP_SIG, O.PROP_SUBMIT,
   O.PROP_COUNTERSIGN, O.PROP_CANCEL, O.Q_CLAIM, O.Q_RELEASE, O.Q_CONFIG, O.Q_HOST]

/-- Whether what an object's own rules answer stands before a later check of R357 that refuses the write: `DENIED` of an owner check
before every status but that of the right itself, `INVALID_VALUE` of the field rules of a BITS object (Table 10.2) before `STALE`. -/
def ownFirst (via : Via) (o : ObjInfo) (e : Nat) (st own : Status) (s : State) : Bool :=
  decide (writeRight via o e s = .ok)
    && ((decide (own = .denied) && ownerChecked.any (fun p => decide (p.base = o.base)))
      || (decide (own = .invalid) && decide (o.ty = .bits) && decide (st ≠ .ok) && decide (o.base ≠ O.CU_EXPORT.base)
        && decide (o.base ≠ O.Q_CONFIG.base)))

/-- One write of an element: the checks, then the object's own rules, whose owner checks and field rules stand in R357's order; an
accepted write advances the change counter by 1, a refused one leaves it (R358). -/
def dictWrite (via : Via) (expect : Option (BitVec 32)) (o : ObjInfo) (e : Nat) (v : W64) (act : State → State × Status)
    (s : State) : State × Status :=
  match writeCheck via expect o e v s with
  | .ok =>
    let r := act s
    if r.2 = .ok then (r.1.bump o e, .ok) else r
  | st => if ownFirst via o e st (act s).2 s then act s else noteRefusal via o e st s

/-- A caller's armed compare-and-set is spent. -/
def disarmCas (via : Via) (s : State) : State :=
  match viaCopy via with
  | none => s
  | some c =>
    let w := s.el O.CAS_EXPECT (copyEl c 0)
    if bit w 63 then s.setEl O.CAS_EXPECT (copyEl c 0) (setBit w 63 false) else s

/-- A write of `RELAY_DATA` spends it too, after the relayed object (R367). -/
def relaySpends (via : Via) (o : ObjInfo) (s : State) : State := if o.base = O.RELAY_DATA.base then disarmCas via s else s

/-- Whether a write of an object number spends it: one outside E.000-E.03F, or of `RELAY_DATA` (R367). -/
def spendsCas (obj : Nat) : Bool := decide (obj < 0xE000) || decide (0xE040 ≤ obj) || decide (obj = O.RELAY_DATA.base)

/-- The write of an object number has been executed, whatever its outcome. -/
def spendCas (via : Via) (obj : Nat) (s : State) : State := if spendsCas obj then disarmCas via s else s

/-- The armed compare-and-set of a caller, taken by its next write of an object outside E.000-E.03F; that write clears `ARMED`
(R367). A write of `RELAY_DATA` leaves it to the relayed object. -/
def takeCas (via : Via) (o : ObjInfo) (s : State) : Option (BitVec 32) × State :=
  if o.isLocal then (none, s) else
  match viaCopy via with
  | none => (none, s)
  | some c =>
    let w := s.el O.CAS_EXPECT (copyEl c 0)
    if bit w 63 then (some (w.setWidth 32), s.setEl O.CAS_EXPECT (copyEl c 0) (setBit w 63 false)) else (none, s)

/-- After an access through `RELAY_DATA` with `OK`, the element index of `RELAY_REF` advances by `RELAY_STEP` (R366). -/
def relayAdvance (c : Nat) (s : State) : State :=
  let w := s.el O.RELAY_REF (copyEl c 0)
  s.setEl O.RELAY_REF (copyEl c 0) (setFld w 27 0 ((fld w 27 0 + s.elN O.RELAY_STEP (copyEl c 0)) % 2 ^ 28))

/-- The reference of an object number and element (ADDR layout, Table 10.2). -/
def refWord (obj e : Nat) : W64 := put obj 48 ||| put e 0

/-- The reference that names an element (R6): the inverse of `resolveRef`, a caller's own elements counted from 0. -/
def ObjInfo.ref (o : ObjInfo) (e : Nat) : W64 :=
  if o.fam then refWord (o.base + e / 8) (e % 8)
  else refWord o.base (if o.isLocal then e % 1024 else if o.own = .caller then e % 2 ^ 20 else e)

/-- The outcome of a write reaches the caller: a function's `WIN_STATUS` (R361), a session's `RESPONSE` with request ID 0 and the
counter given, a service core's answer. -/
def answerWrite (via : Via) (ref : W64) (counter : BitVec 32) (st : Status) (s : State) : State :=
  match via with
  | .wctl f | .relay f =>
    let w := s.el O.WIN_STATUS (copyEl f.val 0)
    s.setEl O.WIN_STATUS (copyEl f.val 0) (setFld (setFld w 7 0 st.code) 63 32 ((fld w 63 32 + 1) % 2 ^ 32))
  | .vdp k => respond k.val 0#32 ref st st counter 0 [] s
  | .service _ => s.send (.read via st 0#64)

/-- The outcome of a write of an element. -/
def recordWrite (via : Via) (o : ObjInfo) (e : Nat) (st : Status) (s : State) : State := answerWrite via (o.ref e) (s.counter o e) st s

/-! ## Accesses through a function's windows (R399-R401) -/

/-- The host function whose window carries an access. -/
def viaFunc : Via → Option Nat
  | .wctl f | .relay f => some f.val
  | _ => none

/-- Whether a function is present (R390): the physical function of a port, or a virtual one up to NumVFs with VF Enable. -/
def State.present (s : State) (f : Nat) : Bool :=
  decide (f < 1024) && (decide (f % 256 = 0) || ((s.port (f / 256)).vfEnable && decide (f % 256 ≤ (s.port (f / 256)).numVfs)))

/-- Whether a function takes memory requests: link up, present, Memory Space Enable set, not in D3hot (R399). -/
def State.memOn (s : State) (f : Nat) : Bool :=
  (s.port (f / 256)).up && s.present f && (s.func f).mse && !(s.func f).d3hot

/-- Whether what is held is a posted write, or an access behind one: neither a read that only the store delays nor a cell of a fill. -/
def HeldOp.posted : HeldOp → Bool
  | .write _ _ _ _ fill => !fill
  | .read .. => false
  | .access _ => true

/-- Something of a function waits in the host port complex; a posted write does. -/
def State.holdsFor (s : State) (f : Nat) : Bool := s.held.any (fun h => decide (h.func = f))
def State.holdsWrite (s : State) (f : Nat) : Bool := s.held.any (fun h => decide (h.func = f) && h.op.posted)

/-- An access of a function waits. -/
def holdOp (f b : Nat) (op : HeldOp) (s : State) : State := { s with held := s.held ++ [{ func := f, bench := b, op := op }] }

/-- A posted write of a function in W-CTL or W-DBL: discarded where the function takes no memory request (R399); behind its held writes it
waits (R401); else it is performed. -/
def postedWrite (f : Nat) (a : HostAccess) (now : State → State) (s : State) : State :=
  if !s.memOn f then s
  else if s.holdsWrite f then holdOp f (s.elN O.FUNC_BINDING f) (.access a) s
  else now s

/-- A read request of a function in any window: nothing answers while the link is down; Unsupported Request where the function takes no
memory request (R399); behind the function's held writes it waits (R401); else it is performed. -/
def windowRead (f : Nat) (a : HostAccess) (now : State → State) (s : State) : State :=
  if !(s.port (f / 256)).up then s
  else if !s.memOn f then s.send (.unsupported f)
  else if s.holdsWrite f then holdOp f (s.elN O.FUNC_BINDING f) (.access a) s
  else now s

/-- Whether an access by a path is performed at once: it comes by no window, or the function takes memory requests and holds no write. -/
def viaOpen (via : Via) (s : State) : Bool :=
  match viaFunc via with
  | none => true
  | some f => s.memOn f && !s.holdsWrite f

/-- A write of one element is performed: the armed compare-and-set is taken, the write is checked and performed, a relay advances, and the
status is recorded. -/
def writeNow (via : Via) (o : ObjInfo) (e : Nat) (v : W64) (act : State → State × Status) (s : State) : State :=
  let p := takeCas via o s
  let r := dictWrite via p.1 o e v act p.2
  let s1 :=
    match via with
    | .relay f => if r.2 = .ok then relayAdvance f.val r.1 else r.1
    | _ => r.1
  recordWrite via o e r.2 (relaySpends via o s1)

/-- A command that is a write of one element: in a function's window a posted write. -/
def cmdWrite (via : Via) (o : ObjInfo) (e : Nat) (v : W64) (act : State → State × Status) (s : State) : State :=
  match viaFunc via with
  | none => writeNow via o e v act s
  | some f => postedWrite f (.element via o.base e v) (writeNow via o e v act) s

/-! ## Reads -/

/-- The checks of R357 before a read: the first status that applies. -/
def readCheck (via : Via) (o : ObjInfo) (e : Nat) (s : State) : Status :=
  if !served via o.area s then .busy
  else if relayBad via o then .invalid
  else if !reaches via o s || !o.has e || !mayRead o e (viaRights via s) s then .denied
  else .ok

/-- The outcome of a read reaches the caller (R363): a refusal with `DENIED` is an Unsupported Request, any other completes with
zero data and goes to `WIN_STATUS`; a session gets its `RESPONSE` with the counter given. -/
def answerRead (via : Via) (ref : W64) (counter : BitVec 32) (st : Status) (v : W64) (s : State) : State :=
  match via with
  | .wctl f | .relay f =>
    match st with
    | .denied => s.send (.unsupported f.val)
    | .ok => s.send (.read via .ok v)
    | _ =>
      let w := s.el O.WIN_STATUS (copyEl f.val 0)
      (s.setEl O.WIN_STATUS (copyEl f.val 0) (setFld w 15 8 st.code)).send (.read via st 0#64)
  | .vdp k => respond k.val 0#32 ref st st counter 0 (if st = .ok then [v] else []) s
  | .service _ => s.send (.read via st (if st = .ok then v else 0#64))

/-- The outcome of a read of an element. -/
def recordRead (via : Via) (o : ObjInfo) (e : Nat) (st : Status) (v : W64) (s : State) : State :=
  answerRead via (o.ref e) (s.counter o e) st v s

/-- What an access answers that names an object no object holds, or an element beyond the last: what one without the right is answered
(R352). -/
def absentStatus (via : Via) (obj : Nat) (s : State) : Status :=
  if !served via (obj / 4096) s then .busy
  else
    match via with
    | .relay _ => if obj / 4096 = 0 || decide (obj / 4096 = 14) then .invalid else .denied
    | _ => .denied

/-- The change counter of the object that a number names: 0 where no object holds it, as before any write of one (R358). -/
def objCounter (via : Via) (obj : Nat) (s : State) : BitVec 32 :=
  match findObj obj with
  | none => 0#32
  | some o =>
    if o.fam then s.counter o (8 * (obj - o.base))
    else if o.isLocal then s.counter o (copyEl ((viaCopy via).getD 0) 0)
    else if o.own = .caller then s.counter o (benchEl ((viaBench via s).getD 0) 0)
    else s.counter o 0

/-- A command that is a read of one element: checked, performed, a relay advances on `OK`, and the outcome is recorded. The act
answers the value. -/
def cmdRead (via : Via) (o : ObjInfo) (e : Nat) (act : State → State × Status × W64) (s : State) : State :=
  match readCheck via o e s with
  | .ok =>
    let r := act s
    let s1 :=
      match via with
      | .relay f => if r.2.1 = .ok then relayAdvance f.val r.1 else r.1
      | _ => r.1
    recordRead via o e r.2.1 r.2.2 s1
  | st => recordRead via o e st 0#64 s

/-- A refusal by an object's own rules: nothing changes. -/
def refuse (st : Status) (s : State) : State × Status := (s, st)

/-- An act guarded by a refusal. -/
def guardAct (c : Bool) (st : Status) (act : State → State × Status) : State → State × Status :=
  fun s => if c then (s, st) else act s

end Sys2Proof.Machine
end

