-- ==== Sys2Proof/Machine/Pool.lean ====
section
/-! DEFINITION. The cell pool, the allocator and the hardware queues (08_queues.md): packets and their pool cells (R276-R279),
arbitration (R296-R298, R307), entry into a queue (R282-R292), notices (R284, R405), flush, pop, reset and claim. -/

namespace Sys2Proof.Machine

/-! ## Pool cells (R276, R297, R307, R308) -/

/-- The cells of one bank. -/
def bankCells : Nat := 32768

/-- The cells of a bank in use. -/
def State.bankUse (s : State) (k : Nat) : Nat := s.bankUsed.getD k 0

/-- The free cells of a bank; a fenced bank has none. -/
def State.bankFree (s : State) (k : Nat) : Nat := if k ∈ s.fencedBanks then 0 else bankCells - s.bankUse k

/-- F of R297: the free cells of the pool. -/
def State.poolFree (s : State) : Nat := ((List.range 8).map (fun k => s.bankFree k)).sum

/-- Whether the pool is partitioned (R307). -/
def State.partitioned (s : State) : Bool := decide (s.elN O.POOL_MODE 0 = 1)

/-- The master group of a request (Table 8.5); a module request, one of no bench, is module traffic whatever its class. -/
def masterGroup (cls : AllocClass) (b : Option Nat) (tile : Nat) : Nat :=
  match b, cls with
  | none, _ => 6
  | some _, .acquisition => tile / 4
  | some _, .assay => 4
  | some _, .hostStaging => 5
  | some _, .firmware => 6

/-- The bank that serves a group in partitioned mode (R307, R308): its own, or bank 7 once its own is fenced. -/
def State.groupBank (s : State) (g : Nat) : Option Nat :=
  if g ∈ s.fencedBanks then (if s.movedGroup = some g && !decide (7 ∈ s.fencedBanks) then some 7 else none) else some g

/-- The benches with a reserve, and their unused reserve (R297). -/
def State.unusedReserve (s : State) (b : Nat) : Nat := s.elN O.CELL_RESERVE b - s.elN O.BENCH_CELLS b

/-- U of R297: the unused reserve of every bench other than one. -/
def State.othersReserve (s : State) (b : Option Nat) : Nat :=
  (((Tab.keysIn s.elems (O.CELL_RESERVE.key 0) (O.CELL_RESERVE.key 1024)).map (fun k => k - O.CELL_RESERVE.key 0)).map
    (fun c => if some c = b then 0 else s.unusedReserve c)).sum

/-- The free cells a request may draw on: of the pool, or of its group's bank (R307). -/
def State.freeFor (s : State) (cls : AllocClass) (b : Option Nat) (tile : Nat) : Nat :=
  if s.partitioned then
    match s.groupBank (masterGroup cls b tile) with
    | none => 0
    | some k => s.bankFree k
  else s.poolFree

/-- Whether a request for k cells may be granted (R297): reserved cells are never lent, and a bench stays within its limit. -/
def mayGrant (cls : AllocClass) (b : Option Nat) (tile k : Nat) (s : State) : Bool :=
  decide (k + s.othersReserve b ≤ s.freeFor cls b tile)
    && (match b with
        | none => true
        | some c => decide (s.elN O.BENCH_CELLS c + k ≤ s.elN O.CELL_LIMIT c))

/-- The first bank with a free cell, from bank `k` on. -/
def firstFree (s : State) (k : Nat) : Nat :=
  (((List.range 8).map (fun i => (k + i) % 8)).find? (fun j => decide (0 < s.bankFree j))).getD 0

/-- One more cell of a bank is in use. -/
def takeCell (k : Nat) (s : State) : State := { s with bankUsed := s.bankUsed.set k (s.bankUse k + 1) }

/-- The bank of a cell (Table 8.5). -/
def cellBank (n : Nat) : Nat := n / bankCells

/-- The cells that packets hold. -/
def State.cellsHeld (s : State) : List Nat := s.packets.flatMap (fun p => p.2.cells)

/-- The first number of a bank that is not among some, from place `i` of the bank on; `fuel` bounds the places tried. -/
def unheldFrom (bank : Nat) (held : List Nat) : Nat → Nat → Nat
  | 0, i => bank * bankCells + i % bankCells
  | fuel + 1, i =>
    let n := bank * bankCells + i % bankCells
    if held.contains n then unheldFrom bank held fuel (i + 1) else n

/-- Cells are taken one by one: from the group's bank in partitioned mode, else from the bank the module chooses; which free cell of a
bank it is, is left open (`Config.poolCell`). `held` are the cells taken so far and those that packets hold. -/
def takeCells (bank : Option Nat) : Nat → List Nat → State → List Nat × State
  | 0, _, s => ([], s)
  | n + 1, held, s =>
    let k := bank.getD (firstFree s (Config.poolBank s.nextPkt % 8))
    let c := unheldFrom k held held.length (Config.poolCell s.nextPkt)
    let r := takeCells bank n (c :: held) (takeCell k s)
    (c :: r.1, r.2)

/-- The bench's `BENCH_CELLS` changes. -/
def State.setHeld (s : State) (b : Option Nat) (n : Nat) : State :=
  match b with
  | none => s
  | some c => s.setN O.BENCH_CELLS c n

/-- The cells of one packet are granted together (R278): a new packet of this kind, and its number. -/
def grantPacket (p : Packet) (cls : AllocClass) (tile k : Nat) (s : State) : Nat × State :=
  let bank := if s.partitioned then s.groupBank (masterGroup cls p.bench tile) else none
  let r := takeCells bank k s.cellsHeld s
  let held := match p.bench with
    | none => 0
    | some c => s.elN O.BENCH_CELLS c + k
  let id := s.nextPkt
  (id, ({ r.2 with nextPkt := id + 1 }.setPacket id { p with cells := r.1 }).setHeld p.bench held)

/-- The number of an allocation class, highest first (R296). -/
def classNum : AllocClass → Nat
  | .acquisition => 0 | .assay => 1 | .hostStaging => 2 | .firmware => 3

/-- The bench most recently granted in a class. -/
def State.rotorOf (s : State) (cls : AllocClass) : Nat := lookupNat 1023 s.rotor (classNum cls)

/-- The rotating pointer of a class after a grant. -/
def State.setRotor (s : State) (cls : AllocClass) (b : Nat) : State :=
  { s with rotor := (classNum cls, b) :: s.rotor.filter (fun p => !decide (p.1 = classNum cls)) }

/-- "No cell" is counted against the bench (R298). -/
def refusedCell (b : Option Nat) (s : State) : State :=
  match b with
  | none => s
  | some c => s.inc O.ALLOC_REFUSED c

/-- Whether a grant was made for such a request. -/
def grantFits (r : AllocReq) (cls : AllocClass) (b : Option Nat) (tile k : Nat) : Bool :=
  decide (r.cls = cls) && decide (r.bench.map Fin.val = b) && decide (r.tile.val = tile) && decide (r.cells = k)

/-- The packet an earlier allocator round granted for such a request, where its requester has not used it yet. -/
def State.grantOf (s : State) (cls : AllocClass) (b : Option Nat) (tile k : Nat) : Option Nat :=
  (s.granted.find? (fun g => grantFits g.1 cls b tile k)).map Prod.snd

/-- The requester uses a granted packet: it takes its content. -/
def useGrant (id : Nat) (p : Packet) (s : State) : State :=
  { s with granted := s.granted.filter (fun g => !decide (g.2 = id)) }.setPacket id { p with cells := (s.packet id).cells }

/-- A request: a packet granted to it earlier, else a round of its own; the packet's number, or "no cell" (R278, R297, R298). -/
def allocPacket (p : Packet) (cls : AllocClass) (tile k : Nat) (s : State) : Option Nat × State :=
  match s.grantOf cls p.bench tile k with
  | some id => (some id, useGrant id p s)
  | none =>
    if mayGrant cls p.bench tile k s then
      let r := grantPacket p cls tile k s
      (some r.1, match p.bench with | none => r.2 | some b => r.2.setRotor cls b)
    else (none, refusedCell p.bench s)

/-- `EXCLUSIVE` clears; partitioned mode is left unless a bank is fenced (R309). -/
def leaveExclusive (s : State) : State :=
  let s1 := s.setMode { s.mode with exclusive := none }
  if s1.fencedBanks.isEmpty then s1.setN O.POOL_MODE 0 0 else s1

/-- Cells of a released packet return to the free list, zeroed (R304). -/
def freeCells (p : Packet) (s : State) : State :=
  let s1 := p.cells.foldl (fun (t : State) n =>
    let k := cellBank n
    { t with bankUsed := t.bankUsed.set k (t.bankUse k - 1) }) s
  match p.bench with
  | none => s1
  | some b => s1.setN O.BENCH_CELLS b (s1.elN O.BENCH_CELLS b - p.cells.length)

/-- One link slot releases a packet; the last one frees its cells (R279, R304). -/
def releaseLink (id : Nat) (s : State) : State :=
  let p := s.packet id
  if p.links ≤ 1 then (freeCells p s).setPacket id noPacket
  else s.setPacket id { p with links := p.links - 1 }

/-- What a bench was granted and has not used is released. -/
def dropGrants (b : Nat) (s : State) : State :=
  let mine := s.granted.filter (fun g => decide (g.1.bench.map Fin.val = some b))
  mine.foldl (fun t g => releaseLink g.2 t) { s with granted := s.granted.filter (fun g => !decide (g.1.bench.map Fin.val = some b)) }

/-! ## Queues: fields and state -/

/-- The fields of `Q_CONFIG` (Table 8.2): kind 0 `NONE`, 1 `DRAIN`, 2 `EVENT`, 3 `SERVICE`. -/
def qKind (c : W64) : Nat := fld c 2 0
def qOverwrite (c : W64) : Bool := bit c 3
def qCapacity (c : W64) : Nat := fld c 19 4
def qCutThrough (c : W64) : Nat := fld c 23 20
def qNoticeVec (c : W64) : Nat := fld c 34 24
def qNoticeEn (c : W64) : Bool := bit c 35
def qSource (c : W64) : Nat := fld c 49 36

/-- The fields of `Q_HOST` (Table 11.4). -/
def qhEnable (c : W64) : Bool := bit c 0
def qhRelaxed (c : W64) : Bool := bit c 1
def qhFunc (c : W64) : Nat := fld c 12 2
def qhLog2 (c : W64) : Nat := fld c 17 13

/-- The kind of a queue. -/
def State.qKind (s : State) (q : Nat) : Nat := Machine.qKind (s.el O.Q_CONFIG q)

/-- The function of a queue's host binding; 0x7FF is none. -/
def State.qFunc (s : State) (q : Nat) : Nat := qhFunc (s.el O.Q_HOST q)

/-- Whether a function may issue requests: present, Bus Master Enable set, not in D3hot (R414). -/
def State.mayMaster (s : State) (f : Nat) : Bool := s.present f && (s.func f).bme && !(s.func f).d3hot

/-- Whether a `DRAIN` queue is in `MASTER_OFF` (R404). -/
def State.masterOff (s : State) (q : Nat) : Bool :=
  decide (s.qKind q = 1) && (!qhEnable (s.el O.Q_HOST q) || !s.mayMaster (s.qFunc q))

/-- Whether a packet of a queue is being filled: the cell in hand of the stream a `DRAIN` queue names, unless a reset of the queue has
taken that packet out of it (R288, R301). -/
def State.qFilling (s : State) (q : Nat) : Option Nat :=
  let x := s.stream (qSource (s.el O.Q_CONFIG q))
  if s.qKind q = 1 && !x.noDrain then x.inHand else none

/-- Whether a queue is linked to the packet that its stream fills: under cut-through, from its allocation on (R287). -/
def State.linksFilling (s : State) (q : Nat) : Bool := decide (0 < qCutThrough (s.el O.Q_CONFIG q)) && (s.qFilling q).isSome

/-- The queues that have been set up. -/
def State.setQueues (s : State) : List Nat :=
  (Tab.keysIn s.elems (O.Q_CONFIG.key 0) (O.Q_CONFIG.key 16384)).map (fun i => i - O.Q_CONFIG.key 0)

/-- The queue that a packet is linked into: one that holds it, or the cut-through queue of the stream that fills it. -/
def State.queueOfPacket (s : State) (id : Nat) : Option Nat :=
  ((s.queues.find? (fun q => q.2.pkts.contains id)).map Prod.fst).or
    (s.setQueues.find? (fun q => s.linksFilling q && decide (s.qFilling q = some id)))

/-- The owner tag of a pool cell (R276): its bench, and the queue it is linked into. -/
def State.cellTag (s : State) (n : Nat) : Option Nat × Option Nat :=
  match s.packets.find? (fun p => p.2.cells.contains n) with
  | none => (none, none)
  | some (id, p) => (p.bench, s.queueOfPacket id)

/-- `Q_STATE` (Table 8.6), sampled when read; `RESETTING`, `FLUSHING` and `MASTER_OFF` stand in this order (log entry 27). -/
def State.qState (s : State) (q : Nat) : W64 :=
  let x := s.queue q
  let st := if x.resetting then 4 else if x.flushing then 2 else if s.qKind q = 0 then 0 else if s.masterOff q then 3 else 1
  Sys2Proof.put st 0 ||| Sys2Proof.put (s.qFilling q).isSome.toNat 3 ||| Sys2Proof.put x.forced.toNat 4
    ||| Sys2Proof.put (x.pkts.length % 65536) 16 ||| Sys2Proof.put ((x.gen + s.queueGen) % 65536) 32

/-- A change from `s` to `t` of what `Q_STATE` is computed from advances its counter (R358). -/
def noteQueue (s : State) (q : Nat) (t : State) : State :=
  t.touchIf (!decide (s.qState q = t.qState q)) O.Q_STATE q

/-! ## Entry and exit (R282-R292) -/

/-- `Q_PROD` or `Q_CONS` advances by k, modulo 2^32. -/
def advIndex (o : ObjInfo) (q k : Nat) (s : State) : State := s.setN o q ((s.elN o q + k) % 2 ^ 32)

/-- The vector a packet that completes in a queue has its notice for, where `NOTICE_EN` is 1 (R284). -/
def State.noticeVec (s : State) (q : Nat) : Option Nat :=
  if qNoticeEn (s.el O.Q_CONFIG q) then some (qNoticeVec (s.el O.Q_CONFIG q)) else none

/-- A notice goes to a vector of a queue's `HOST_FUNC`; 0x7FF drops it (R405). -/
def postNotice (q : Nat) (vec : Option Nat) (s : State) : State :=
  match vec with
  | none => s
  | some v => if s.present (s.qFunc q) then notice (s.qFunc q) v s else s

/-- A packet leaves the queue by a discard, at one position of its list. -/
def dropAt (q i : Nat) (s : State) : State :=
  let x := s.queue q
  match x.pkts[i]? with
  | none => s
  | some id =>
    releaseLink id (advIndex O.Q_CONS q 1
      (s.setQueue q { x with pkts := x.pkts.eraseIdx i, popAt := if i = 0 then 0 else x.popAt }))

/-- A packet completes in a queue with room: it enters, `Q_PROD` advances, and its notice is posted, which is delivered at once except for
a `DRAIN` queue's, which the packet keeps for its write-back (R284, R405). -/
def enterQueue (q id : Nat) (s : State) : State :=
  let s1 := advIndex O.Q_PROD q 1 (s.modQueue q (fun x => { x with pkts := x.pkts ++ [id] }))
  if s1.qKind q = 1 then s1.setPacket id { s1.packet id with notice := s1.noticeVec q } else postNotice q (s1.noticeVec q) s1

/-- A packet that completes at or before a flush boundary is discarded, and counted (R288). -/
def discardNew (q id : Nat) (s : State) : State :=
  releaseLink id ((advIndex O.Q_CONS q 1 (advIndex O.Q_PROD q 1 s)).inc O.Q_DISCARDED q)

/-- A packet completes and is offered to its queue, which holds one of its links: it enters, or it is refused, or the oldest
packet not in transfer makes room, or a flush discards it (R288, R291). The answer says whether it entered. -/
def offerPacket (q id : Nat) (s : State) : Bool × State :=
  let x := s.queue q
  let c := s.el O.Q_CONFIG q
  if x.resetting || decide (qKind c = 0) then (false, releaseLink id (s.inc O.Q_LOST q))
  else if x.flushing && x.flushPkt = some id then
    let s0 := s.setQueue q { x with flushing := false, flushPkt := none }
    if x.inTransfer && x.pkts.isEmpty then (true, enterQueue q id s0) else (false, discardNew q id s0)
  else if x.pkts.length < qCapacity c then (true, enterQueue q id s)
  else
    let i := if x.inTransfer then 1 else 0
    if qOverwrite c && decide (i < x.pkts.length) then
      (true, enterQueue q id (dropAt q i (s.inc O.Q_LOST q)))
    else (false, releaseLink id (s.inc O.Q_LOST q))

/-! ## Event messages (R283, R290) -/

/-- The two words of an event message (Table 8.3). -/
def eventWords (sq level code dclk : Nat) (stamp : W40) : List W64 :=
  [put 1 63 ||| put sq 48 ||| put level 44 ||| put code 36 ||| put dclk 28, put 1 63 ||| put 1 62 ||| stamp.setWidth 64]

/-- The bench's event queue: of kind `EVENT` and owned by the bench. -/
def State.eventQueue (s : State) (b : Nat) : Option Nat :=
  let q := s.elN O.EVENT_QUEUE b
  if q < 16384 && decide (s.qKind q = 2) && decide (s.elN O.Q_OWNER q = b) then some q else none

/-- An `EVENT_EN` action posts one message; without an event queue or a cell, or refused by the queue, it is lost and counted
(R283, R292). -/
def postEvent (b sq level code dclk : Nat) (stamp : W40) (s : State) : State :=
  match s.eventQueue b with
  | none => s.inc O.EVENT_MSG_LOST b
  | some q =>
    let pk : Packet := { kind := .event, bench := some b, cells := [], words := eventWords sq level code dclk stamp }
    match allocPacket pk .acquisition (sq / 8) 1 s with
    | (none, s1) => s1.inc O.EVENT_MSG_LOST b
    | (some id, s1) =>
      match offerPacket q id s1 with
      | (true, s2) => s2
      | (false, s2) => s2.inc O.EVENT_MSG_LOST b

/-! ## Discards, flush and reset (R288, R301, R303) -/

/-- Every packet of a queue but one in transfer leaves by a discard: `Q_CONS` advances and, where `count`, `Q_DISCARDED`
counts it. -/
def discardAll (q : Nat) (count keepHead : Bool) (s : State) : State :=
  let x := s.queue q
  let keep := if keepHead && x.inTransfer then x.pkts.take 1 else []
  let gone := x.pkts.drop keep.length
  let s1 := s.setQueue q { x with pkts := keep, popAt := 0 }
  let s2 := advIndex O.Q_CONS q gone.length s1
  let s3 := if count then s2.count O.Q_DISCARDED q gone.length else s2
  gone.foldl (fun t id => releaseLink id t) s3

/-- A flush: packets completed at or before the boundary are discarded; with a packet being filled the queue is `FLUSHING`
until that packet completes (R288). -/
def flushQueue (q : Nat) (s : State) : State :=
  if (s.queue q).flushing then s
  else
    let s1 := discardAll q true true s
    match s.qFilling q with
    | none => s1
    | some id => s1.modQueue q (fun x => { x with flushing := true, flushPkt := some id })

/-- The link of a cut-through queue to the packet being filled is released: that packet is discarded from the queue, and counted. -/
def unlinkFilling (q : Nat) (s : State) : State :=
  if s.linksFilling q then
    (s.inc O.Q_DISCARDED q).modStream (qSource (s.el O.Q_CONFIG q)) (fun x => { x with noDrain := true })
  else s

/-- A reset of a queue: `RESETTING`, its packets discarded and counted, `Q_CONS` set to `Q_PROD`, `GENERATION` advanced
(R301). The record of a forced reset is raised at its end. -/
def resetQueue (q : Nat) (forced : Bool) (s : State) : State :=
  let s1 := discardAll q true false (unlinkFilling q s)
  let s2 := s1.setEl O.Q_CONS q (s1.el O.Q_PROD q)
  s2.modQueue q (fun x => { x with resetting := true, forced := forced, record := x.record || forced, gen := (x.gen + 1) % 65536, flushing := false,
                                   flushPkt := none, inTransfer := false, sent := 0, popAt := 0, resetAt := s2.clock })

/-- The sweep of a reset reads the owner tags of all pool cells, 64 per CPL cycle of 1.2 GHz (R301). -/
def sweepTime : Nat := 4096 * ns * 5 / 6

/-! ## Ownership (R280, R273) -/

/-- The queues a bench owns. -/
def State.queuesOf (s : State) (b : Nat) : List Nat :=
  ((Tab.keysIn s.elems (O.Q_OWNER.key 0) (O.Q_OWNER.key 16384)).map (fun k => k - O.Q_OWNER.key 0)).filter
    (fun q => decide (s.elN O.Q_OWNER q = b))

/-- A queue's descriptor and host binding return to their defaults (R273). -/
def defaultQueue (q : Nat) (s : State) : State :=
  [O.Q_CONFIG, O.Q_HOST, O.RING_BASE, O.RING_WB_ADDR, O.RING_PROD, O.HOST_CONS, O.READOUT_RANGE, O.READOUT_STATUS].foldl
    (fun t o => t.setEl o q (elemDefault (o.key q))) s

/-- A queue returns to free: emptied, its descriptor at its defaults, and no bench's event queue any more (R273). -/
def freeQueue (q : Nat) (s : State) : State :=
  let s1 := discardAll q false false s
  let s2 := s1.setQueue q { gen := (s1.queue q).gen }
  let b := s.elN O.Q_OWNER q
  let s3 := (defaultQueue q s2).setN O.Q_OWNER q noBench
  if s3.elN O.EVENT_QUEUE b = q then s3.setN O.EVENT_QUEUE b noBench else s3

/-- Whether a queue takes part in an armed bench's acquisition: its event queue, or a `DRAIN` queue of one of its streams. -/
def State.queueInUse (s : State) (b q : Nat) : Bool :=
  s.isArmed b && (decide (s.elN O.EVENT_QUEUE b = q) || decide (s.qKind q = 1))

end Sys2Proof.Machine
end

