-- ==== Sys2Proof/Machine/Queues.lean ====
section
/-! DEFINITION. The commands of hardware queues (08_queues.md): claim and release, flush, pop, reset, pointer checks, pool
errors, and the end of draining in `QUIESCE`. -/

namespace Sys2Proof.Machine

/-! ## Claim and release (R280) -/

/-- A write of `Q_CLAIM`: `DENIED` for a queue of the module or of another bench, `NO_RESOURCE` at the bench's quota; a claim
clears the queue's counters (R312). -/
def qClaimAct (b : Nat) (v : W64) (s : State) : State × Status :=
  let q := v.toNat
  if 16128 ≤ q then (s, .denied)
  else
    let own := s.elN O.Q_OWNER q
    if own ≠ noBench && decide (own ≠ b) then (s, .denied)
    else if s.elN O.QUEUE_QUOTA b ≤ (s.queuesOf b).length then (s, .noResource)
    else (((s.setN O.Q_OWNER q b).setN O.Q_LOST q 0).setN O.Q_DISCARDED q 0, .ok)

/-- Q_CLAIM. -/
def execQClaim (via : Via) (b : Nat) (v : W64) (s : State) : Host.Outcome State Fault Refusal :=
  .next (cmdWrite via O.Q_CLAIM b v (qClaimAct b v) s)

/-- A write of `Q_RELEASE`. -/
def qReleaseAct (b : Nat) (v : W64) (s : State) : State × Status :=
  let q := v.toNat
  if 16384 ≤ q || decide (s.elN O.Q_OWNER q ≠ b) then (s, .denied)
  else if s.queueInUse b q then (s, .busy)
  else (freeQueue q s, .ok)

/-- Q_RELEASE. -/
def execQRelease (via : Via) (b : Nat) (v : W64) (s : State) : Host.Outcome State Fault Refusal :=
  .next (cmdWrite via O.Q_RELEASE b v (qReleaseAct b v) s)

/-! ## Flush, reset, pop (R288, R289, R303) -/

/-- A write of `Q_FLUSH`: 1 only; `BUSY` while the queue is `RESETTING`. -/
def qFlushAct (q : Nat) (v : W64) (s : State) : State × Status :=
  if v ≠ 1#64 then (s, .invalid)
  else if (s.queue q).resetting then (s, .busy)
  else (flushQueue q s, .ok)

/-- Q_FLUSH. -/
def execQFlush (via : Via) (q : Nat) (v : W64) (s : State) : Host.Outcome State Fault Refusal :=
  .next (cmdWrite via O.Q_FLUSH q v (qFlushAct q v) s)

/-- A write of `Q_RESET`: 1 only; the reset of R301 without a record or a bench fault. -/
def qResetAct (q : Nat) (v : W64) (s : State) : State × Status :=
  if v ≠ 1#64 then (s, .invalid) else (resetQueue q false s, .ok)

/-- Q_RESET. -/
def execQReset (via : Via) (q : Nat) (v : W64) (s : State) : Host.Outcome State Fault Refusal :=
  .next (cmdWrite via O.Q_RESET q v (qResetAct q v) s)

/-- Word i of a packet as `Q_POP` returns it: VALID, and LAST on the last. A word that nothing has written (a packet of another kind, left in
the queue by a change of `KIND`) is left open: its packet ends with its cells (DESIGN CHOICE, log entry 149). -/
def popWord (p : Packet) (i : Nat) (free : W64) : W64 :=
  match p.words[i]? with
  | some w => setBit w 63 true
  | none => setBit (setBit free 63 true) 62 (decide (32 * p.cells.length ≤ i + 1))

/-- A read of `Q_POP` (R289): the next word of the head packet of an `EVENT` or `SERVICE` queue; the packet leaves with its
`LAST` word; an empty or `RESETTING` queue gives zero; a `DRAIN` queue is refused. -/
def qPopAct (q : Nat) (s : State) : State × Status × W64 :=
  let x := s.queue q
  if s.qKind q = 1 then (s, .invalid, 0#64)
  else if x.resetting then (s, .ok, 0#64)
  else
    match x.pkts with
    | [] => (s, .ok, 0#64)
    | id :: rest =>
      let p := s.packet id
      let w := popWord p x.popAt s.freeNext
      let t := if x.popAt < p.words.length then s else s.drawn
      if bit w 62 then
        (releaseLink id (advIndex O.Q_CONS q 1 (t.setQueue q { x with pkts := rest, popAt := 0 })), .ok, w)
      else (t.setQueue q { x with popAt := x.popAt + 1 }, .ok, w)

/-- Q_POP. -/
def execQPop (via : Via) (q : Nat) (s : State) : Host.Outcome State Fault Refusal :=
  .next (match viaFunc via with
    | none => cmdRead via O.Q_POP q (qPopAct q) s
    | some f => windowRead f (.ctlRead via (O.Q_POP.base + q / 256) { elem := q % 256 }) (cmdRead via O.Q_POP q (qPopAct q)) s)

/-! ## Store-write lists (R294) -/

/-- Whether a request writes a store cell of a stream's list. -/
def StoreReq.writesFor (r : StoreReq) (stream : Nat) : Bool :=
  match r.op with
  | .write _ k => decide (k = stream)
  | _ => false

/-- The packet a store request writes. -/
def StoreReq.packetOf (r : StoreReq) : Option Nat :=
  match r.op with
  | .write p _ => some p
  | _ => none

/-- The backlog of a stream's store-write list (R294). -/
def State.backlog (s : State) (stream : Nat) : Nat := (s.storeReqs.filter (fun r => r.writesFor stream)).length

/-- A reset of a store-write list: its packets are discarded, each releasing slot 0 (R301). -/
def resetStoreList (stream : Nat) (s : State) : State :=
  let gone := s.storeReqs.filter (fun r => r.writesFor stream)
  let s1 : State := { s with storeReqs := s.storeReqs.filter (fun r => !r.writesFor stream) }
  gone.foldl (fun t r => match r.packetOf with | none => t | some p => releaseLink p t) s1

/-! ## Pointer checks and pool errors (R300-R302, R308) -/

/-- The bench of a queue, or 0xFFFF. -/
def State.queueBench (s : State) (q : Nat) : Nat := s.elN O.Q_OWNER q

/-- A forced reset of a queue: an armed bench faults with `QUEUE_RESET`. -/
def forceQueue (q : Nat) (s : State) : State := faultBench (s.queueBench q) .queueReset (resetQueue q true s)

/-- The record of class `QUEUE_POINTER`. -/
def pointerRecord (q : Nat) (s : State) : State := raiseError 0x50 1 5 q (s.queueBench q) 0#64 s

/-- A forced reset of a store-write list, which has no state of its own: its record is raised at once. -/
def forceList (stream : Nat) (s : State) : State :=
  raiseError 0x50 1 5 noUnit (stream / 16) 0#64 (faultBench (stream / 16) .queueReset (resetStoreList stream s))

/-- QUEUE_POINTER: a pointer mismatch in a queue or store-write list (R301, R302). -/
def execQueuePointer (target : PtrTarget) (s : State) : Host.Outcome State Fault Refusal :=
  match target with
  | .queue q => .next (forceQueue q.val s)
  | .storeList k => .next (forceList k.val s)

/-- The sweep of a queue's reset is complete: it returns to `RUNNING`, and a forced reset raises its record (R301). -/
def sweepDone (q : Nat) (s : State) : State :=
  if (s.queue q).resetting then
    let t := (advanceTo ((s.queue q).resetAt + sweepTime) s).modQueue q (fun x => { x with resetting := false, record := false })
    if (s.queue q).record then pointerRecord q t else t
  else s

/-- QUEUE_RESET_SWEEP_DONE. -/
def execQueueResetSweepDone (q : Fin 16384) (s : State) : Host.Outcome State Fault Refusal := .next (sweepDone q.val s)

/-- FREE_LIST: a mismatch on the free list is fatal, with action `RECOVERY` (R302, Table 13.7). -/
def execFreeList (s : State) : Host.Outcome State Fault Refusal :=
  .next (enterRecovery 0x52 (raiseError 0x52 3 5 noUnit 0xFFFF 0#64 s))

/-- Whether a packet holds a cell of a bank. -/
def State.pktInBank (s : State) (k id : Nat) : Bool := (s.packet id).cells.any (fun n => decide (cellBank n = k))

/-- Whether a queue holds a cell of a bank: of a packet in it, or of the one a cut-through queue is linked to while it is filled (R287). -/
def State.queueInBank (s : State) (k q : Nat) : Bool :=
  (s.queue q).pkts.any (fun id => s.pktInBank k id)
    || (s.linksFilling q && (match s.qFilling q with | none => false | some id => s.pktInBank k id))

/-- The queues and the streams whose lists hold a cell of a bank. -/
def State.queuesInBank (s : State) (k : Nat) : List Nat :=
  (((s.queues.map Prod.fst) ++ s.setQueues).foldl addNew []).filter (fun q => s.queueInBank k q)
def State.listsInBank (s : State) (k : Nat) : List Nat :=
  (s.storeReqs.filterMap (fun r =>
    match r.op with
    | .write id stream => if s.pktInBank k id then some stream else none
    | _ => none)).eraseDups

/-- A bank is fenced: `POOL_BANKS`, its group moves to bank 7 where that is free of both, and the pool is partitioned. -/
def fenceBank (k : Nat) (s : State) : State :=
  let fenced := addNew s.fencedBanks k
  let moved := if s.movedGroup.isNone && decide (k < 7) && !decide (7 ∈ s.fencedBanks) then some k else s.movedGroup
  let s1 : State := { s with fencedBanks := fenced, movedGroup := moved }
  let w := put ((fenced.map (fun i => 2 ^ i)).sum) 0 ||| put (if moved.isSome then 7 else 0) 8
  ((s1.setEl O.POOL_BANKS 0 w).setN O.POOL_MODE 0 1).setMode { s1.mode with poolBank := true }

/-- An uncorrectable pool error (R308): forced resets of what holds a cell of the bank, the bank fenced, and the record. -/
def poolError (k : Nat) (s : State) : State :=
  let s1 := (s.queuesInBank k).foldl (fun t q => forceQueue q t) s
  let s2 := (s.listsInBank k).foldl (fun t l => forceList l t) s1
  raiseError 0x51 2 5 noUnit 0xFFFF 0#64 (fenceBank k s2)

/-- POOL_UE. -/
def execPoolUe (bank : Fin 8) (s : State) : Host.Outcome State Fault Refusal := .next (poolError bank.val s)

/-! ## The end of draining in QUIESCE (R310) -/

/-- The drain queues that hold packets. -/
def State.drainsHolding (s : State) : List Nat :=
  (s.queues.filter (fun p => !p.2.pkts.isEmpty && decide (s.qKind p.1 = 1))).map Prod.fst

/-- Drain queues are finished when each is empty or in `MASTER_OFF`. -/
def State.drainsDone (s : State) : Bool := s.drainsHolding.all (fun q => s.masterOff q)

/-- Packets still queued in drain queues are discarded and counted; their store cells stay in the ingots. -/
def discardDrains (s : State) : State :=
  s.drainsHolding.foldl (fun t q => (discardAll q true false t).modQueue q (fun x => { x with inTransfer := false, sent := 0 })) s

/-- QUIESCE_DRAIN_TIMEOUT: 100 ms after entry to `QUIESCE`. -/
def execQuiesceDrainTimeout (s : State) : Host.Outcome State Fault Refusal :=
  if s.mode.base = .quiesce then .next (discardDrains (advanceTo (s.quiesceSince + 100 * ms) s)) else .next s

end Sys2Proof.Machine
end

