-- ==== Sys2Proof/Machine/Flags.lean ====
section
/-! DEFINITION. How condition bits are computed (03_conditions.md): the fields of `CU_CONFIG`, the five modes on exact integers,
and the bits of `CU_STATUS`. -/

namespace Sys2Proof.Machine

/-! ## Fields of `CU_CONFIG` (Table 3.1) -/

def cuMode (c : W64) : Nat := fld c 2 0
def cuLsb (c : W64) : Nat := fld c 8 3
def cuWidth (c : W64) : Nat := fld c 14 9
def cuSigned (c : W64) : Bool := bit c 15
def cuDirection (c : W64) : Nat := fld c 17 16
def cuEdgeKind (c : W64) : Nat := fld c 19 18
def cuEdgeAll (c : W64) : Bool := bit c 20
def cuInvert (c : W64) : Bool := bit c 21
def cuInit (c : W64) : Bool := bit c 22
/-- `MISS_MODE`: false `HOLD`, true `FALSE`. -/
def cuMissFalse (c : W64) : Bool := bit c 23

/-- The check of R88: no reserved encoding, no reserved bit, and the field within 40 bits. -/
def cuConfigOk (c : W64) : Bool :=
  decide (cuMode c ≤ 5) && decide (1 ≤ cuWidth c) && decide (cuWidth c ≤ 40) && decide (cuLsb c ≤ 39)
    && decide (cuLsb c + cuWidth c ≤ 40) && decide (cuDirection c ≤ 2) && decide (cuEdgeKind c ≤ 2)
    && decide (fld c 63 24 = 0)

/-- Whether two configurations differ in `MODE`, `FIELD_LSB`, `FIELD_WIDTH` or `SIGNED` (R104). -/
def cuHistoryChange (a b : W64) : Bool := decide (fld a 15 0 ≠ fld b 15 0)

/-! ## Operands (R89, R90) -/

/-- The numeric field of a word: two's complement of `FIELD_WIDTH` bits where `SIGNED` is 1. -/
def cuField (c : W64) (w : W40) : Int :=
  let v := (w.toNat >>> cuLsb c) % 2 ^ cuWidth c
  if cuSigned c then signedOf (cuWidth c) v else v

/-- An operand read from its own low `FIELD_WIDTH` bits; it follows `SIGNED`. -/
def cuOperand (c : W64) (x : W64) : Int :=
  let v := x.toNat % 2 ^ cuWidth c
  if cuSigned c then signedOf (cuWidth c) v else v

/-- An operand that is always unsigned. -/
def cuUnsigned (c : W64) (x : W64) : Int := ((x.toNat % 2 ^ cuWidth c : Nat) : Int)

/-- The operands of a unit. -/
structure CuOps where
  config : W64
  pattern : W64
  mask : W64
  low : W64
  high : W64
  level : W64
  hyst : W64
  deriving DecidableEq, Repr

/-! ## Modes (R91-R98): the result before `INVERT` -/

/-- `MATCH` (R91). -/
def evalMatch (o : CuOps) (w : W40) : Bool := decide ((w ^^^ o.pattern.setWidth 40) &&& o.mask.setWidth 40 = 0#40)

/-- `RANGE` (R92). -/
def evalRange (o : CuOps) (w : W40) : Bool :=
  let v := cuField o.config w
  decide (cuOperand o.config o.low ≤ v) && decide (v ≤ cuOperand o.config o.high)

/-- `CROSS` (R93, R94): result, `ARMED_RISE`, `ARMED_FALL`. -/
def evalCross (o : CuOps) (rise fall : Bool) (w : W40) : Bool × Bool × Bool :=
  let v := cuField o.config w
  let lv := cuOperand o.config o.level
  let h := cuUnsigned o.config o.hyst
  let fireR := rise && decide (lv ≤ v)
  let fireF := fall && decide (v < lv)
  let d := cuDirection o.config
  ((fireR && !decide (d = 1)) || (fireF && !decide (d = 0)),
   (rise && !fireR) || decide (v < lv - h), (fall && !fireF) || decide (lv + h ≤ v))

/-- `EDGE` (R96). -/
def evalEdge (o : CuOps) (prev : Option W40) (w : W40) : Bool :=
  match prev with
  | none => false
  | some p =>
    let m := o.mask.setWidth 40
    let ch := (match cuEdgeKind o.config with
      | 0 => ~~~p &&& w
      | 1 => p &&& ~~~w
      | _ => p ^^^ w) &&& m
    if cuEdgeAll o.config then decide (ch = m) else decide (ch ≠ 0#40)

/-- `CHANGE` (R98): s = 0 acts as s = 1. -/
def evalChange (o : CuOps) (prev : Option W40) (w : W40) : Bool :=
  match prev with
  | none => false
  | some p =>
    let dv := cuField o.config w - cuField o.config p
    let st := max 1 (cuUnsigned o.config o.low)
    match cuDirection o.config with
    | 0 => decide (st ≤ dv)
    | 1 => decide (st ≤ -dv)
    | _ => decide (st ≤ dv) || decide (st ≤ -dv)

/-- One evaluated row of a unit: the result before `INVERT`, and the armed states after it. -/
def cuEval (o : CuOps) (prev : Option W40) (rise fall : Bool) (w : W40) : Bool × Bool × Bool :=
  match cuMode o.config with
  | 1 => (evalMatch o w, rise, fall)
  | 2 => (evalRange o w, rise, fall)
  | 3 => evalCross o rise fall w
  | 4 => (evalEdge o prev w, rise, fall)
  | 5 => (evalChange o prev w, rise, fall)
  | _ => (false, rise, fall)

/-! ## `CU_STATUS` (Table 3.6) -/

/-- `OUT`, `ARMED_RISE`, `ARMED_FALL`, `HELD`, `STARTED`. -/
def cuStatus (out rise fall held started : Bool) : W64 :=
  put out.toNat 0 ||| put rise.toNat 1 ||| put fall.toNat 2 ||| put held.toNat 3 ||| put started.toNat 4

/-- The status after an evaluated row (R93, R99). -/
def cuStatusEval (o : CuOps) (prev : Option W40) (old : W64) (w : W40) : W64 :=
  let r := cuEval o prev (bit old 1) (bit old 2) w
  cuStatus (Bool.xor r.1 (cuInvert o.config)) r.2.1 r.2.2 false true

/-- The status after a row that is not evaluated (R100, R101): no history changes. Under `FALSE` the unit presents 0, and so it does
before its first evaluated row under `INIT` = 1 (DESIGN CHOICE, log entry 141). -/
def cuStatusHeld (config : W64) (old : W64) : W64 :=
  cuStatus (if cuMissFalse config then false else bit old 0) (bit old 1) (bit old 2) true (bit old 4)

/-- The status after ARM or a history reset: `INIT` is presented (R104). -/
def cuStatusInit (config : W64) : W64 := cuStatus (cuInit config) false false false false

end Sys2Proof.Machine
end

