-- ==== Sys2Proof/Machine/Cond.lean ====
section
/-! DEFINITION. Condition units (03_conditions.md) and shadowed settings (R148): the copies a write goes to, condition
references and input selects (R106-R109, R120), writes of the units' objects, and their evaluation on a row. -/

namespace Sys2Proof.Machine

/-! ## Shadow copies (R148) -/

/-- The shadow copy of an element, where one differs from the active setting. -/
def State.shadowOf (s : State) (o : ObjInfo) (e : Nat) : Option W64 := Tab.get (fun _ => none) s.shadow (o.key e)

/-- What a read of a shadowed setting returns, and the copy a write would leave: the shadow copy where there is one. -/
def State.view (s : State) (o : ObjInfo) (e : Nat) : W64 := (s.shadowOf o e).getD (s.el o e)

/-- A shadow copy takes a value; one equal to the active setting is none. -/
def State.setShadow (s : State) (o : ObjInfo) (e : Nat) (v : W64) : State :=
  { s with shadow := Tab.set (fun _ => none) s.shadow (o.key e) (if v = s.el o e then none else some v) }

/-- The objects whose settings are shadowed (Table 4.10, R211); of `SQ_CONFIG` the fields `START_LEVEL` and `LEVEL_EVENTS`. -/
def shadowedCu : List ObjInfo :=
  [O.CU_CONFIG, O.CU_GROUP, O.CU_PATTERN, O.CU_MASK, O.CU_LOW, O.CU_HIGH, O.CU_LEVEL, O.CU_HYST, O.CU_EXPORT]
def shadowedSq : List ObjInfo :=
  [O.SQ_BRANCH_INPUTS, O.SQ_LEVEL_BRANCH, O.SQ_BRANCH_ACTION, O.SQ_LEVEL_TIMEOUT, O.SQ_CNT_CONFIG, O.SQ_CNT_LIMIT,
   O.SQ_CONFIG, O.HOLDOFF_KIND, O.HOLDOFF_VALUE, O.HOLDOFF_SEL]
def shadowedAcq : List ObjInfo := [O.PRE_COUNT, O.POST_COUNT, O.SYNC_INTERVAL]

/-- The shadow copies of a bench among some objects: object, element, value. -/
def State.benchShadows (s : State) (os : List ObjInfo) (b : Nat) : List (ObjInfo × Nat × W64) :=
  os.flatMap (fun o => s.shadow.filterMap (fun p =>
    if o.key 0 ≤ p.1 && decide (p.1 < o.key o.count) && decide (o.ownerBench (p.1 - o.key 0) s = some b) then
      p.2.map (fun v => (o, p.1 - o.key 0, v))
    else none))

/-- `DIRTY` of `COMMIT_STATUS` follows the bench's shadow copies (R153). -/
def refreshDirty (b : Nat) (s : State) : State :=
  s.setEl O.COMMIT_STATUS b (setBit (s.el O.COMMIT_STATUS b) 3 (!(s.benchShadows (shadowedCu ++ shadowedSq ++ shadowedAcq) b).isEmpty))

/-- Whether a commit of the bench is pending (R149). -/
def State.commitPending (s : State) (b : Nat) : Bool := (s.bench b).commit.isSome

/-- A write of a shadowed setting of a bench's element: to the shadow copy while the bench is armed, `BUSY` while a commit is
pending (R148, R150), and otherwise to the setting. -/
def writeShadowed (o : ObjInfo) (e : Nat) (v : W64) (s : State) : State × Status :=
  match o.ownerBench e s with
  | some b =>
    if s.isArmed b then
      if s.commitPending b then (s, .busy) else (refreshDirty b (s.setShadow o e v), .ok)
    else (s.put o e v, .ok)
  | none => (s.put o e v, .ok)

/-- Shadow copies become the active settings; the change counters advance with the values. -/
def applyCopies (l : List (ObjInfo × Nat × W64)) (s : State) : State :=
  l.foldl (fun t p =>
    let u : State := { t with shadow := Tab.set (fun _ => none) t.shadow (p.1.key p.2.1) none }
    u.setEl p.1 p.2.1 p.2.2) s

/-! ## References and selects (R106-R109, R120, R134) -/

/-- The tile of a unit and of a sequencer (R4). -/
def cuTile (c : Nat) : Nat := c / 512
def sqTile (q : Nat) : Nat := q / 8

/-- The fields of an input select (Table 4.1). -/
def selKind (w : Nat) : Nat := w / 4096 % 16
def selRef (w : Nat) : Nat := w % 4096

/-- The bench of a unit, of a sequencer. -/
def State.cuBench (s : State) (c : Nat) : Option Nat := ownerOf (s.elN O.CU_OWNER c)
def State.sqBench (s : State) (q : Nat) : Option Nat := ownerOf (s.elN O.SQ_OWNER q)

/-- The units whose `CU_EXPORT` is not at its default, in the current or the shadow configuration. -/
def State.exporters (s : State) : List Nat :=
  let lo := O.CU_EXPORT.key 0
  let hi := O.CU_EXPORT.key 8192
  ((Tab.keysIn s.elems lo hi).map (fun k => k - lo)) ++ ((Tab.keysIn s.shadow lo hi).map (fun k => k - lo))

/-- Whether an export word claims a slot (Table 3.5). -/
def exportClaims (w : W64) (slot : Nat) : Bool := bit w 7 && decide (fld w 6 0 = slot)

/-- Whether a unit claims a bus slot, 128u + n, in its current or its shadow configuration (R108, R109). -/
def State.claims (s : State) (c slot : Nat) : Bool :=
  decide (cuTile c = slot / 128) && (exportClaims (s.el O.CU_EXPORT c) (slot % 128)
    || exportClaims (s.view O.CU_EXPORT c) (slot % 128))

/-- The unit a local reference names. -/
def localUnit (tile ref : Nat) : Nat := 512 * tile + ref % 512

/-- The check of a condition reference by a bench in a tile (R106, R109). -/
def refStatus (bench : Option Nat) (tile ref : Nat) (s : State) : Status :=
  match bench with
  | none => .denied
  | some b =>
    if ref / 2048 = 0 && decide (ref / 512 % 4 ≠ 0) then .invalid
    else
      if ref / 2048 = 0 then (if s.cuBench (localUnit tile ref) = some b then .ok else .denied)
      else if s.exporters.any (fun c => s.claims c (ref % 2048) && decide (s.cuBench c = some b)) then .ok
      else .denied

/-- The check of an input select (R120, R134): `kinds` are the kinds the field takes. -/
def selStatus (kinds : List Nat) (bench : Option Nat) (tile w : Nat) (s : State) : Status :=
  let k := selKind w
  let r := selRef w
  if !kinds.contains k then .invalid
  else
    match k with
    | 0 => refStatus bench tile r s
    | 1 => if r < 4 then .ok else .invalid
    | 3 =>
      match bench with
      | none => .denied
      | some b => if 512 ≤ r then .invalid else if s.sqBench (r / 4) = some b then .ok else .denied
    | _ => if r = 0 then .ok else .invalid

/-- The first of several statuses in the order of R357: `DENIED` before `INVALID_VALUE`. -/
def worst (l : List Status) : Status :=
  if l.contains .denied then .denied else if l.contains .invalid then .invalid else .ok

/-- The four selects of an inputs word (R121). -/
def selects (w : W64) : List Nat := [fld w 15 0, fld w 31 16, fld w 47 32, fld w 63 48]

/-! ## Writes of condition unit objects (R85-R88, R74, R78, R107, R108) -/

/-- Whether the bench of a unit owns a group. -/
def State.groupOf (s : State) (b g : Nat) : Bool := decide (s.elN O.GROUP_OWNER g = b)

/-- Whether a tile is `ON`. -/
def State.tileOn (s : State) (t : Nat) : Bool := decide (s.elN O.TILE_STATE t = 0)

/-- A write of `CU_CONFIG`: `DENIED` when it enables a unit of no bench (R85) or whose group its bench does not own (R74);
`INVALID_VALUE` under R88; `NO_RESOURCE` when it makes an armed bench use a tile that is not `ON` (R78). -/
def cuConfigAct (c : Nat) (v : W64) (s : State) : State × Status :=
  let on := decide (cuMode v ≠ 0)
  let denied := match s.cuBench c with
    | none => on
    | some b => on && !s.groupOf b (s.view O.CU_GROUP c).toNat
  let armed := match s.cuBench c with
    | none => false
    | some b => s.isArmed b
  if denied then (s, .denied)
  else if !cuConfigOk v then (s, .invalid)
  else if on && armed && !s.tileOn (cuTile c) then (s, .noResource)
  else writeShadowed O.CU_CONFIG c v s

/-- A write of `CU_GROUP` while `MODE` is not `OFF` needs a group of the unit's bench (R74). -/
def cuGroupAct (c : Nat) (v : W64) (s : State) : State × Status :=
  let on := decide (cuMode (s.view O.CU_CONFIG c) ≠ 0)
  let denied := match s.cuBench c with
    | none => on
    | some b => on && !s.groupOf b v.toNat
  if denied then (s, .denied) else writeShadowed O.CU_GROUP c v s

/-- A write of `CU_EXPORT`: reserved bits (Table 3.5), and slots that two units of a tile would claim (R108). -/
def cuExportAct (c : Nat) (v : W64) (s : State) : State × Status :=
  let clash := bit v 7 && s.exporters.any (fun k => !decide (k = c) && s.claims k (128 * cuTile c + fld v 6 0))
  if fld v 63 8 ≠ 0 || clash then (s, .invalid) else writeShadowed O.CU_EXPORT c v s

/-! ## Evaluation (R83, R99-R104) -/

/-- A unit's operands, from its active settings. -/
def State.cuOps (s : State) (c : Nat) : CuOps where
  config := s.el O.CU_CONFIG c
  pattern := s.el O.CU_PATTERN c
  mask := s.el O.CU_MASK c
  low := s.el O.CU_LOW c
  high := s.el O.CU_HIGH c
  level := s.el O.CU_LEVEL c
  hyst := s.el O.CU_HYST c

/-- The word of a unit's last evaluated row. -/
def State.cuPrevWord (s : State) (c : Nat) : Option W40 := Tab.get (fun _ => none) s.cuPrev c
def State.setCuPrev (s : State) (c : Nat) (w : Option W40) : State :=
  { s with cuPrev := Tab.set (fun _ => none) s.cuPrev c w }

/-- An evaluated row of a unit: status, history, and `CU_HITS` when the output is 1. -/
def cuEvaluate (c : Nat) (w : W40) (s : State) : State :=
  let st := cuStatusEval (s.cuOps c) (s.cuPrevWord c) (s.el O.CU_STATUS c) w
  let s1 := (s.setEl O.CU_STATUS c st).setCuPrev c (some w)
  if bit st 0 then s1.inc O.CU_HITS c else s1

/-- A row of the unit's clock that is not evaluated (R100, R101); under `MISS_MODE` = `FALSE` it presents 0 before the first evaluated row
too (DESIGN CHOICE, log entry 141: R104 has it present `INIT`). -/
def cuHold (c : Nat) (s : State) : State := s.setEl O.CU_STATUS c (cuStatusHeld (s.el O.CU_CONFIG c) (s.el O.CU_STATUS c))

/-- The unit's history clears and it presents `INIT` (R104). -/
def cuReset (c : Nat) (s : State) : State := (s.setEl O.CU_STATUS c (cuStatusInit (s.el O.CU_CONFIG c))).setCuPrev c none

/-- The enabled units: those whose `MODE` is not `OFF`. -/
def State.enabledUnits (s : State) : List Nat :=
  ((Tab.keysIn s.elems (O.CU_CONFIG.key 0) (O.CU_CONFIG.key 8192)).map (fun k => k - O.CU_CONFIG.key 0)).filter
    (fun c => decide (cuMode (s.el O.CU_CONFIG c) ≠ 0))

/-- The units of a bench: those it owns. -/
def State.unitsOf (s : State) (b : Nat) : List Nat :=
  ((Tab.keysIn s.elems (O.CU_OWNER.key 0) (O.CU_OWNER.key 8192)).map (fun k => k - O.CU_OWNER.key 0)).filter
    (fun c => decide (s.elN O.CU_OWNER c = b))

/-- Whether a bench runs: armed, and no fault of it is on its way. -/
def State.running (s : State) (b : Nat) : Bool := s.isArmed b && (s.bench b).fault.isNone

/-- The word of a row that goes to a bench's subscribers: none where it is missing, or held under `HOLD` (R75). -/
def Row.wordFor (r : Row) (b : Nat) (w : RowWord) : Option W40 := if r.held.contains (b, w.lane) then none else w.word

/-- A row as a bench's subscribers have it: the words of lanes it holds are missing, and the row is incomplete by them (R75). -/
def Row.forBench (r : Row) (b : Nat) : Row :=
  { r with incomplete := r.incomplete || r.held.any (fun p => decide (p.1 = b)), held := [],
           words := r.words.map (fun w => { w with word := r.wordFor b w }) }

/-- One enabled unit and one row (R71, R73, R75, R77): a word for a tile that was not `ON` is discarded and counted, a word of a group
of another bench is withheld and counted, a missing or held word holds the unit of a bench that runs. That the units of a scheduled ARM
evaluate the rows before its time too is a DESIGN CHOICE (log entry 142), as is that a discard for the tile stands before the check of the
group's owner (log entry 167). -/
def cuRow (r : Row) (c : Nat) (s : State) : State :=
  match s.cuBench c with
  | none => s
  | some b =>
    match r.words.find? (fun w => decide (w.group = s.elN O.CU_GROUP c) && decide (w.lane / 16 = cuTile c)) with
    | none => s
    | some w =>
      let owner := s.elN O.GROUP_OWNER w.group
      if r.off.contains (cuTile c) then (if w.word.isSome then s.inc O.GATED_DISCARD (cuTile c) else s)
      else if owner ≠ b then
        (if w.word.isSome && decide (owner ≠ noBench) then s.inc O.ROUTE_REFUSED b else s)
      else if !s.running b then s
      else
        match r.wordFor b w with
        | none => cuHold c s
        | some x => cuEvaluate c x s

/-- Every enabled unit of the module looks at a row (R83, R84). -/
def cuRows (r : Row) (s : State) : State := s.enabledUnits.foldl (fun t c => cuRow r c t) s

/-! ## Condition bits -/

/-- The bit a condition reference names, for a sequencer of a tile: a local unit's output, or the bus slot's (R107). -/
def condBit (tile ref : Nat) (s : State) : Bool :=
  if ref / 2048 = 0 then bit (s.el O.CU_STATUS (localUnit tile ref)) 0
  else
    s.exporters.any (fun c => decide (cuTile c = ref % 2048 / 128) && exportClaims (s.el O.CU_EXPORT c) (ref % 128)
      && decide (cuMode (s.el O.CU_CONFIG c) ≠ 0) && bit (s.el O.CU_STATUS c) 0)

/-- The value of a cross-signal line at a row time: that of the latest change effective no later (R133). Changes stand newest
first. -/
def lineAt (changes : List (Int × Bool)) (t : Int) : Bool :=
  match changes.find? (fun p => decide (p.1 ≤ t)) with
  | none => false
  | some p => p.2

def State.line512 (s : State) (k : Nat) (t : Int) : Bool := lineAt (Tab.get (fun _ => []) s.xs k) t

end Sys2Proof.Machine
end

