-- ==== Sys2Proof/Machine/Pins.lean ====
section
/-! DEFINITION. The TRIG_IO pins (R135, R442, R443): function, set state and pulse, the level at the land, and the end of a
pulse. -/

namespace Sys2Proof.Machine

/-- `FUNCTION` of a pin (Table 12.6): 0 `INPUT`, 1 `SEQUENCER`, 2 `CLOCK`, 3 `PPS`, 4 `SCHEDULED`. -/
def State.pinFunction (s : State) (n : Nat) : Nat := fld (s.el O.TRIG_IO_CFG n) 2 0

/-! ## The clock outputs' waveforms (R437-R439) -/

/-- The frequency of the output VCO: that of the active plan. -/
def State.vcoHz (s : State) : Nat := s.elN O.PLAN_FREQ_HZ (s.elN O.PLAN_ACTIVE 0)

/-- The fields of an output's active configuration (Table 12.5). -/
def State.outDiv (s : State) (n : Nat) : Nat := fld (s.el O.OUT_ACTIVE n) 11 0
def State.outDelay (s : State) (n : Nat) : Nat := fld (s.el O.OUT_ACTIVE n) 29 12
def State.outEnable (s : State) (n : Nat) : Bool := bit (s.el O.OUT_ACTIVE n) 30

/-- The first rising edge of an enabled output after the last restart: 40 ns and its `DELAY`, in 1/64 of a VCO period, later (R439). -/
def State.firstEdge (s : State) (n : Nat) : Nat := s.timing.restartAt + 40 * ns + s.outDelay n * sec / (64 * s.vcoHz)

/-- The level of OUTn at this instant: low during a hop, while it is disabled, and up to its first rising edge; then high for ⌈DIV/2⌉ of
every DIV VCO periods. -/
def State.outLevel (s : State) (n : Nat) : Bool :=
  let steps := (s.clock - (s.timing.restartAt + 40 * ns)) * s.vcoHz * 64 / sec
  s.timing.hop.isNone && s.outEnable n && decide (s.timing.restartAt + 40 * ns ≤ s.clock) && decide (s.outDelay n ≤ steps)
    && decide ((steps - s.outDelay n) / 64 % s.outDiv n < (s.outDiv n + 1) / 2)

/-- What the pin's function drives before `INVERT`: the set state or a running pulse under `SEQUENCER` and `SCHEDULED`, the waveform of
PPS_OUT under `PPS`, of OUTn under `CLOCK` (whose edges as time passes are not listed in `out`: log entry 176). -/
def State.pinRaw (s : State) (n : Nat) : Bool :=
  match s.pinFunction n with
  | 1 | 4 => (s.pin n).setState || (s.pin n).pulseEnd.isSome
  | 2 => s.outLevel (fld (s.el O.TRIG_IO_CFG n) 5 3)
  | 3 => s.timing.ppsHigh
  | _ => false

/-- The level the module gives the land: nothing is driven, and the land is low, under `INPUT`; `INVERT` applies under every
output function (R442). -/
def State.pinLevel (s : State) (n : Nat) : Bool :=
  if s.pinFunction n = 0 then false else Bool.xor (s.pinRaw n) (bit (s.el O.TRIG_IO_CFG n) 6)

/-- The land follows the pin: an edge goes out where the level changes. -/
def drivePin (n : Nat) (s : State) : State :=
  let v := s.pinLevel n
  if v = (s.pin n).level then s else (s.setPin n { s.pin n with level := v }).send (.trigIo n v)

/-- The set state of a pin takes a value. -/
def setPinState (n : Nat) (v : Bool) (s : State) : State := drivePin n (s.setPin n { s.pin n with setState := v })

/-- A pulse of `TRIG_PULSE_NS` starts, or a running one is extended to that length from now (R135). -/
def pulsePin (n : Nat) (s : State) : State :=
  let stop := s.clock + s.elN O.TRIG_PULSE_NS n * ns
  drivePin n (s.setPin n { s.pin n with pulseEnd := some (max stop ((s.pin n).pulseEnd.getD 0)) })

/-- Whether a sequencer's action on a pin acts: the pin is the bench's and has function `SEQUENCER` (R135, R442). -/
def State.pinActs (s : State) (b n : Nat) : Bool :=
  decide (s.elN O.TRIG_PIN_OWNER n = b) && decide (s.pinFunction n = 1)

/-- The operations that reached one pin in one slot: 1 `PULSE`, 2 `SET`, 3 `CLEAR`; `SET` and `PULSE` win over `CLEAR`
(R135). -/
def applyPinOps (n : Nat) (ops : List Nat) (s : State) : State :=
  let s1 := if ops.contains 2 then setPinState n true s else s
  let s2 := if ops.contains 1 then pulsePin n s1 else s1
  if ops.contains 3 && !ops.contains 1 && !ops.contains 2 then setPinState n false s2 else s2

/-- The set state of every pin of a bench clears, whatever its function: it goes low once a running pulse has completed (R119, R253). -/
def clearPins (b : Nat) (s : State) : State :=
  (List.range 4).foldl (fun t n => if t.elN O.TRIG_PIN_OWNER n = b then setPinState n false t else t) s

/-- The end of a running pulse. -/
def pulseEnds (n : Nat) (s : State) : State :=
  match (s.pin n).pulseEnd with
  | none => s
  | some e =>
    let s1 := advanceTo e s
    drivePin n (s1.setPin n { s1.pin n with pulseEnd := none })

/-- TRIG_IO_PULSE_END. -/
def execTrigIoPulseEnd (n : Fin 4) (s : State) : Host.Outcome State Fault Refusal := .next (pulseEnds n.val s)

end Sys2Proof.Machine
end

