-- ==== Sys2Proof/Machine/Quench.lean ====
section
/-! DEFINITION. Quench and resume (R34-R38, R136-R140): requests and their merging, the report window, reports and
acknowledgements. -/

namespace Sys2Proof.Machine

/-- An asynchronous event of a bench carries its lead sequencer; an unarmed bench records none. -/
def asyncEvent (b kind : Nat) (arg : W40) (s : State) : State :=
  if s.isArmed b then benchEvent b kind (s.lead b).1 (s.lead b).2 arg s else s

/-! ## Requests (R136-R139) -/

/-- Whether the bench holds the quench right (R137). -/
def State.mayQuench (s : State) (b : Nat) : Bool := bit (s.el O.BENCH_RIGHTS b) 0

/-- The lanes a request goes to: in `UP` with the design recorded at the bench's latest ARM (R136). -/
def State.quenchLanes (s : State) (b : Nat) : List Nat :=
  match (s.bench b).design with
  | none => []
  | some d => s.domainLanes d

/-- The next value of the request counter; it skips 0 (R136). -/
def nextReqId (r : BitVec 16) : BitVec 16 := if r + 1#16 = 0#16 then 1#16 else r + 1#16

/-- Argument of QUENCH `ISSUED`, of QUENCH `REPORT` (Table 4.6). -/
def issuedArg (src : Nat) (merged : Bool) (req : BitVec 16) : W40 :=
  put40 src 36 ||| put40 merged.toNat 35 ||| put40 req.toNat 0
def reportArg (req : BitVec 16) (skid : Nat) : W40 := put40 1 38 ||| put40 (req.toNat % 64) 32 ||| put40 (skid % 2 ^ 32) 0

/-- The skid of the REPORT event (R139). -/
def quenchSkid (q : Quench) : Nat :=
  if q.lanes.any (fun p => p.2.isNone) then 0xFFFFFFFF
  else
    match q.lanes.filterMap (fun p => p.2.bind (fun r => r.skid)) with
    | [] => 0xFFFFFFFF
    | x :: t => t.foldl max x

/-- The latest "last cycle that ran" stamp among the reports that name the deciding clock (R139). -/
def quenchStamp (q : Quench) : Option W40 :=
  match q.lanes.filterMap (fun p => p.2.bind (fun r => if r.skid.isSome then some r.last else none)) with
  | [] => none
  | x :: t => some (t.foldl (fun a c => if stampLater c a then c else a) x)

/-- Whether every lane concerned has reported, and there is one. -/
def quenchComplete (q : Quench) : Bool := !q.lanes.isEmpty && q.lanes.all (fun p => p.2.isSome)

/-- `QUENCH_LAST` (Table 4.15). -/
def quenchLastWord (q : Quench) (acked : Bool) : W64 :=
  put q.req.toNat 0 ||| put q.src 16 ||| put (quenchComplete q).toNat 18 ||| put acked.toNat 19
    ||| put (quenchStamp q).isSome.toNat 20 ||| put (quenchSkid q) 32

/-- What a request records of a lane stands in `QUENCH_SKID`, with the lane's `DELAY` of that moment (R38). -/
def setSkid (l skid : Nat) (s : State) : State :=
  (s.setN O.QUENCH_SKID l skid).modLane l (fun x => { x with skidDelay := s.elN O.LINK_DELAY l })

/-- What a request's reports come to: lanes without a report show 0xFFFF_FFFF, and `QUENCH_LAST`, with the acknowledgements that a
`RESUME` of it has by then (R140), and `QUENCH_LAST_STAMP` are written (R38, R139). The answer is the argument of the REPORT event. -/
def recordReport (b : Nat) (q : Quench) (s : State) : W40 × State :=
  let acked := decide ((s.bench b).ackReq = q.req) && !(s.bench b).acks.isEmpty
    && (s.bench b).acks.all (fun p => decide (p.2 = some 0))
  let s1 := (q.lanes.filter (fun p => p.2.isNone)).foldl (fun t p => setSkid p.1 0xFFFFFFFF t) s
  (reportArg q.req (quenchSkid q), (s1.setEl O.QUENCH_LAST b (quenchLastWord q acked)).setEl O.QUENCH_LAST_STAMP b
    (((quenchStamp q).getD 0#40).setWidth 64))

/-- The report after the decision: its REPORT event is asynchronous (R142). -/
def reportAsync (b : Nat) (q : Quench) (s : State) : State :=
  let r := recordReport b q s
  asyncEvent b 3 r.1 r.2

/-- The report window of a bench is closed: its next request is a new one (R138). -/
def endWindow (b : Nat) (s : State) : State := s.modBench b (fun x => { x with quench := none })

/-- Seven frames of the return direction take 85 ns: one takes 12.143 ns (R27). -/
def sevenFrames : Nat := 85 * ns

/-- The k-th frame boundary of a lane whose return transmitter started at an instant: frames run without a gap from there (R27, R39;
DESIGN CHOICE, log entry 148). -/
def frameStart (since k : Nat) : Nat := since + (k * sevenFrames + 6) / 7

/-- The first frame boundary of a lane's return direction at or after an instant. -/
def Lane.boundary (x : Lane) (t : Nat) : Nat :=
  match x.txSince with
  | none => t
  | some o =>
    let k := (t - o) * 7 / sevenFrames
    if t ≤ frameStart o k then frameStart o k else frameStart o (k + 1)

/-- The instant a `QUENCH` decided now leaves on a lane: the next frame boundary, or the one behind a frame that another `QUENCH` or a
`TIME` takes (R27). -/
def State.quenchLeaves (s : State) (l : Nat) : Nat := (s.lane l).boundary (max s.clock (s.lane l).busyUntil)

/-- The end of a report window: 13 µs and twice the largest `LINK_DELAY` after the latest instant a `QUENCH` left (R38). -/
def windowEnd (sends : List (Nat × Nat × Nat)) : Nat :=
  listMax 0 (sends.map (fun p => p.2.1)) + 13 * us + 2 * listMax 0 (sends.map (fun p => p.2.2))

/-- A `QUENCH` goes out on a lane at an instant: its frame is taken, and the lane's latest request is this one once it has left. -/
def sendQuench (l : Nat) (q : Quench) (leave : Nat) (s : State) : State :=
  (s.modLane l (fun x =>
    { x with quenchReqs := (leave, q.req, q.dclk) :: (x.quenchReqs.filter (fun p => decide (s.clock < p.1))
               ++ (x.quenchReqs.filter (fun p => decide (p.1 ≤ s.clock))).take 1)
             busyUntil := x.boundary (leave + 1) })).send (.lane l (.quench q.req q.dclk q.stamp))

/-- A quench request of a bench (R136, R138, R139): merged into a running one, or sent on every lane concerned. The answer is
the arguments of the QUENCH events of the decision, in order: `ISSUED`, and `REPORT` at once where no lane is concerned. -/
def requestQuench (b src dclk : Nat) (stamp : W40) (s : State) : List W40 × State :=
  match (s.bench b).quench with
  | some q => ([issuedArg src true q.req], s)
  | none =>
    let req := s.nextReq
    let ls := s.quenchLanes b
    let sends := ls.map (fun l => (l, s.quenchLeaves l, s.elN O.LINK_DELAY l))
    let q : Quench := { req := req, src := src, dclk := dclk, stamp := stamp, lanes := ls.map (fun l => (l, none)), sends := sends,
                        closeAt := windowEnd sends }
    let s1 : State := { s with nextReq := nextReqId req }
    let s2 := s1.modBench b (fun x => { x with quench := some q, lastReq := some req, acks := [] })
    let s3 := sends.foldl (fun t p => sendQuench p.1 q p.2.1 t) s2
    if ls.isEmpty then
      let r := recordReport b q s3
      ([issuedArg src false req, r.1], endWindow b r.2)
    else ([issuedArg src false req], s3)

/-- A lane's port is disabled before the `QUENCH` of a bench's request has left on it: the lane is no longer concerned and receives
nothing; with no lane left the window closes at once (R38, R139). -/
def recallQuench (l b : Nat) (s : State) : State :=
  match (s.bench b).quench with
  | none => s
  | some q =>
    if q.sends.any (fun p => decide (p.1 = l) && decide (s.clock < p.2.1)) then
      let sends := q.sends.filter (fun p => decide (p.1 ≠ l))
      let q1 : Quench := { q with lanes := q.lanes.filter (fun p => decide (p.1 ≠ l)), sends := sends, closeAt := windowEnd sends }
      let s1 : State := { s with out := s.out.filter (fun o => decide (o ≠ .lane l (.quench q.req q.dclk q.stamp))) }
      let s2 := s1.modBench b (fun x => { x with quench := some q1 })
      if q1.lanes.isEmpty then endWindow b (reportAsync b q1 s2)
      else if quenchComplete q1 then reportAsync b q1 s2
      else s2
    else s

/-- The same for every request on the lane. -/
def recallQuenches (l : Nat) (s : State) : State := (s.benches.map Prod.fst).foldl (fun t b => recallQuench l b t) s

/-- A write of `QUENCH_CMD`: a design clock 0-255; `DENIED` without the quench right, `BUSY` without a recorded design. -/
def quenchCmdAct (b : Nat) (v : W64) (s : State) : State × Status :=
  if !s.mayQuench b then (s, .denied)
  else if 255 < v.toNat then (s, .invalid)
  else if (s.bench b).design.isNone then (s, .busy)
  else
    let d := v.toNat
    let stamp := match (s.bench b).design.bind (fun x => s.lastOf x d) with
      | none => 0#40
      | some p => p.1
    let r := requestQuench b 2 d stamp s
    (r.1.foldl (fun t a => asyncEvent b 3 a t) r.2, .ok)

/-- QUENCH_CMD. -/
def execQuenchCmd (via : Via) (b : Nat) (v : W64) (s : State) : Host.Outcome State Fault Refusal :=
  .next (cmdWrite via O.QUENCH_CMD b v (quenchCmdAct b v) s)

/-- A write of `RESUME_CMD` (R140): a request ID, or 0 for the bench's latest. -/
def resumeCmdAct (b : Nat) (v : W64) (s : State) : State × Status :=
  if !s.mayQuench b then (s, .denied)
  else if 0xFFFF < v.toNat then (s, .invalid)
  else if (s.bench b).design.isNone then (s, .busy)
  else
    let go (req : BitVec 16) : State × Status :=
      let ls := s.quenchLanes b
      let s1 := s.setEl O.QUENCH_LAST b (setBit (s.el O.QUENCH_LAST b) 19 false)
      let s2 := s1.modBench b (fun x => { x with acks := ls.map (fun l => (l, none)), ackReq := req })
      (ls.foldl (fun t l => t.send (.lane l (.resume req))) s2, .ok)
    if v = 0#64 then
      match (s.bench b).lastReq with
      | none => (s, .invalid)
      | some req => go req
    else go (v.setWidth 16)

/-- RESUME_CMD. -/
def execResumeCmd (via : Via) (b : Nat) (v : W64) (s : State) : Host.Outcome State Fault Refusal :=
  .next (cmdWrite via O.RESUME_CMD b v (resumeCmdAct b v) s)

/-! ## Reports (R35, R38, R139) -/

/-- The skid a lane's report gives for the deciding clock, as `QUENCH_SKID` records it. -/
def reportSkid (dclk : Nat) (es : List (Nat × Nat × W40)) : Option (Nat × W40) :=
  (es.find? (fun e => decide (e.1 = dclk))).map (fun e => e.2)

/-- The first report frame of a lane concerned, inside the window of a bench's request: the lane has reported; when all have,
the report is recorded, and the window runs on (R38, R139). -/
def takeReport (l b : Nat) (q : Quench) (es : List (Nat × Nat × W40)) (s : State) : State :=
  if q.lanes.any (fun p => decide (p.1 = l) && p.2.isNone) then
    let r := reportSkid q.dclk es
    let rep : Report := { skid := r.map Prod.fst, last := (r.map Prod.snd).getD 0#40 }
    let q1 := { q with lanes := q.lanes.map (fun p => if p.1 = l then (l, some rep) else p) }
    let s1 := (setSkid l ((r.map Prod.fst).getD 0xFFFFFFFE) s).modBench b (fun x => { x with quench := some q1 })
    if quenchComplete q1 then reportAsync b q1 s1 else s1
  else s

/-- The benches whose report window is open for a request on a lane. -/
def State.quenchesOn (s : State) (l : Nat) (req : BitVec 16) : List (Nat × Quench) :=
  s.benches.filterMap (fun p =>
    match p.2.quench with
    | none => none
    | some q => if q.req = req && q.lanes.any (fun x => decide (x.1 = l)) then some (p.1, q) else none)

/-- A `QUENCH_REPORT` frame: of a request in its window, or, of the lane's latest request after the window, a replacement for the
value in `QUENCH_SKID`. A late frame that does not name the deciding clock replaces only the "no report" value (DEDUCED, log entry
138). -/
def quenchReport (l : Nat) (hdr : W40) (pay : List W40) (s : State) : State :=
  if !s.isLocked l then s
  else if hdrKind hdr ≠ 2 || hdrType hdr ≠ 4 then frameError l s
  else
    let req := BitVec.ofNat 16 (hdrReqId hdr)
    let es := reportEntries (min 14 (hdrMid hdr)) pay
    match s.quenchesOn l req with
    | (b, q) :: _ => takeReport l b q es s
    | [] =>
      match (s.lane l).quenchReqs.head? with
      | none => s
      | some (_, r, dclk) =>
        if r ≠ req then s
        else
          match reportSkid dclk es with
          | some k => setSkid l k.1 s
          | none => if s.elN O.QUENCH_SKID l = 0xFFFFFFFF then setSkid l 0xFFFFFFFE s else s

/-- QUENCH_REPORT. -/
def execQuenchReport (l : Fin 256) (hdr : W40) (pay : List W40) (s : State) : Host.Outcome State Fault Refusal :=
  .next (quenchReport l.val hdr pay s)

/-- The report window of a bench reaches its end (R38); what is not recorded yet is recorded now (R139). -/
def windowCloses (b : Nat) (s : State) : State :=
  match (s.bench b).quench with
  | none => s
  | some q =>
    let s1 := advanceTo q.closeAt s
    endWindow b (if quenchComplete q then s1 else reportAsync b q s1)

/-- QUENCH_REPORT_WINDOW_CLOSE. -/
def execQuenchReportWindowClose (b : Fin 1024) (s : State) : Host.Outcome State Fault Refusal := .next (windowCloses b.val s)

/-! ## Acknowledgements (R36, R140) -/

/-- One bench that waits for a lane's `ACK` of its `RESUME`: `QUENCH_LAST` [19] is set when all came with status 0. -/
def takeAck (l : Nat) (req : BitVec 16) (st b : Nat) (s : State) : State :=
  let x := s.bench b
  if x.ackReq = req && x.acks.any (fun p => decide (p.1 = l)) then
    let a := x.acks.map (fun p => if p.1 = l then (l, some st) else p)
    let s1 := s.modBench b (fun y => { y with acks := a })
    s1.setEl O.QUENCH_LAST b (setBit (s1.el O.QUENCH_LAST b) 19 (a.all (fun p => decide (p.2 = some 0))))
  else s

/-- An `ACK` frame: of a `RESUME`, for every bench that resumed with that request. Message types are those of Table 1.8. -/
def ackFrame (l : Nat) (hdr : W40) (s : State) : State :=
  if !s.isLocked l then s
  else if hdrKind hdr ≠ 2 || hdrType hdr ≠ 5 then frameError l s
  else if hdrMid hdr = 4 then
    (s.benches.map Prod.fst).foldl (fun t b => takeAck l (BitVec.ofNat 16 (hdrReqId hdr)) (hdrStatus hdr) b t) s
  else s

/-- ACK. -/
def execAck (l : Fin 256) (hdr : W40) (_pay : List W40) (s : State) : Host.Outcome State Fault Refusal :=
  .next (ackFrame l.val hdr s)

end Sys2Proof.Machine
end

