-- ==== Sys2Proof/Machine/Sequencer.lean ====
section
/-! DEFINITION. Sequencers (04_sequencers.md): writes of their settings (R120, R121, R123, R127, R134, R135, R144, R158), and
one step on a row of the step clock (R122-R133). -/

namespace Sys2Proof.Machine

/-! ## Writes of settings -/

/-- The bench of a sequencer's element is armed. -/
def State.sqArmed (s : State) (q : Nat) : Bool :=
  match s.sqBench q with
  | none => false
  | some b => s.isArmed b

/-- A write of `SQ_CONFIG`: `DENIED` when it enables a sequencer of no bench; reserved bits; `ENABLE` and `STEP_CLOCK` are
refused while armed, `START_LEVEL` and `LEVEL_EVENTS` shadowed (R158, Table 4.10). A write that carries the refused fields unchanged
goes to the shadow copy (DESIGN CHOICE, log entry 137). -/
def sqConfigAct (q : Nat) (v : W64) (s : State) : State × Status :=
  if sqEnable v && (s.sqBench q).isNone then (s, .denied)
  else if fld v 63 14 ≠ 0 then (s, .invalid)
  else if s.sqArmed q && decide (fld v 8 0 ≠ fld (s.el O.SQ_CONFIG q) 8 0) then (s, .busy)
  else writeShadowed O.SQ_CONFIG q v s

/-- A write of `SQ_BRANCH_INPUTS`: its four selects (R120). -/
def sqInputsAct (e : Nat) (v : W64) (s : State) : State × Status :=
  let q := e / 64
  match worst ((selects v).map (fun w => selStatus [0, 1, 2, 3, 4] (s.sqBench q) (sqTile q) w s)) with
  | .ok => writeShadowed O.SQ_BRANCH_INPUTS e v s
  | st => (s, st)

/-- A write of `SQ_LEVEL_BRANCH`: reserved bits (Table 4.2). -/
def sqLevelAct (e : Nat) (v : W64) (s : State) : State × Status :=
  if fld v 63 21 ≠ 0 then (s, .invalid) else writeShadowed O.SQ_LEVEL_BRANCH e v s

/-- The fields of `SQ_BRANCH_ACTION` (Table 4.4). -/
def actTrigger (w : W64) : Bool := bit w 0
def actMarkEn (w : W64) : Bool := bit w 1
def actMarkN (w : W64) : Nat := fld w 5 2
def actResolveEn (w : W64) : Bool := bit w 6
def actResolveN (w : W64) : Nat := fld w 10 7
def actStart (w : W64) : Bool := bit w 11
def actStop (w : W64) : Bool := bit w 12
def actCntInc (w : W64) (n : Nat) : Bool := bit w (13 + n)
def actCntClear (w : W64) (n : Nat) : Bool := bit w (17 + n)
def actQuench (w : W64) : Bool := bit w 21
def actPinOp (w : W64) : Nat := fld w 23 22
def actPin (w : W64) : Nat := fld w 25 24
def actXsSet (w : W64) (j : Nat) : Bool := bit w (26 + j)
def actXsClear (w : W64) (j : Nat) : Bool := bit w (30 + j)
def actEventEn (w : W64) : Bool := bit w 34
def actEventCode (w : W64) : Nat := fld w 42 35

/-- A write of `SQ_BRANCH_ACTION`: `DENIED` for a pin that is not the bench's output (R135) or a quench without the right
(R137); `INVALID_VALUE` for both store actions or a reserved bit (R127). -/
def sqActionAct (e : Nat) (v : W64) (s : State) : State × Status :=
  let denied := match s.sqBench (e / 64) with
    | none => decide (actPinOp v ≠ 0) || actQuench v
    | some b => (decide (actPinOp v ≠ 0) && !s.pinActs b (actPin v)) || (actQuench v && !s.mayQuench b)
  if denied then (s, .denied)
  else if fld v 63 43 ≠ 0 || (actStart v && actStop v) then (s, .invalid)
  else writeShadowed O.SQ_BRANCH_ACTION e v s

/-- A write of `SQ_CNT_CONFIG`: reserved bits, and kinds `CONDITION`, `CROSS` or `ZERO` (R123). -/
def sqCntConfigAct (e : Nat) (v : W64) (s : State) : State × Status :=
  let q := e / 4
  match selStatus [0, 3, 4] (s.sqBench q) (sqTile q) (fld v 15 0) s with
  | .ok => if fld v 63 16 ≠ 0 then (s, .invalid) else writeShadowed O.SQ_CNT_CONFIG e v s
  | st => if st = .denied then (s, .denied) else (s, .invalid)

/-- The check of a `HOLDOFF_SEL` write against the bench as a whole (R144): a local `CONDITION` is not checked for its unit. -/
def holdoffSelStatus (b w : Nat) (s : State) : Status :=
  if selKind w = 0 && decide (selRef w / 2048 = 0) then (if selRef w / 512 % 4 = 0 then .ok else .invalid)
  else selStatus [0, 3, 4] (some b) 0 w s

/-- A write of `HOLDOFF_SEL`. -/
def holdoffSelAct (b : Nat) (v : W64) (s : State) : State × Status :=
  match holdoffSelStatus b v.toNat s with
  | .ok => writeShadowed O.HOLDOFF_SEL b v s
  | st => (s, st)

/-- The check of the hold-off settings in the lead sequencer's tile, at ARM and at a commit that applies them (R144): value,
kind and select as they would stand. The select is the bench's whatever the kind; a hold-off on events needs one other than `ZERO`. -/
def holdoffOk (b kind value sel : Nat) (s : State) : Bool :=
  decide (selStatus [0, 3, 4] (some b) (sqTile (s.lead b).1) sel s = .ok)
    && !(decide (kind = 2) && decide (value ≠ 0) && decide (selKind sel = 4))

/-- A write of `TRIG_PULSE_NS`: refused while any bench is armed (Table 4.10). -/
def trigPulseAct (n : Nat) (v : W64) (s : State) : State × Status :=
  if s.elN O.ARMED_COUNT 0 ≠ 0 then (s, .busy) else (s.put O.TRIG_PULSE_NS n v, .ok)

/-! ## A step (R125) -/

/-- The largest counter and timer value. -/
def max48 : Nat := 2 ^ 48 - 1

/-- The bit an input select names, for a sequencer on a row at time t, given its counter and timer bits (Table 4.1). -/
def selBit (q w : Nat) (t : Int) (cbits : List Bool) (tbit : Bool) (s : State) : Bool :=
  match selKind w with
  | 0 => condBit (sqTile q) (selRef w) s
  | 1 => cbits.getD (selRef w % 4) false
  | 2 => tbit
  | 3 => s.line512 (selRef w % 512) t
  | _ => false

/-- The counters after step 1 (R125): each whose `INC_SEL` bit is 1 adds 1, saturating. -/
def countersAfter (q : Nat) (t : Int) (s : State) : List Nat :=
  (List.range 4).map (fun n =>
    let c := s.elN O.SQ_CNT_VALUE (4 * q + n)
    if selBit q (fld (s.el O.SQ_CNT_CONFIG (4 * q + n)) 15 0) t [] false s then min (c + 1) max48 else c)

/-- The `COUNTER` bits (R123). -/
def counterBits (q : Nat) (cs : List Nat) (s : State) : List Bool :=
  (List.range 4).map (fun n => decide (s.elN O.SQ_CNT_LIMIT (4 * q + n) ≤ cs.getD n 0))

/-- The level timer: whole nanoseconds since the level was entered, saturated (R124). -/
def levelTimer (entry t : Int) : Nat := min ((t - entry) / (ns : Int)).toNat max48

/-- Whether rule b of a level is true: the truth table's entry for its four input bits (R121, Table 4.2). -/
def ruleTrue (q level b : Nat) (t : Int) (cbits : List Bool) (tbit : Bool) (s : State) : Bool :=
  let e := 64 * q + 4 * level + b
  let ins := (selects (s.el O.SQ_BRANCH_INPUTS e)).map (fun w => (selBit q w t cbits tbit s).toNat)
  let i := 8 * ins.getD 3 0 + 4 * ins.getD 2 0 + 2 * ins.getD 1 0 + ins.getD 0 0
  bit (s.el O.SQ_LEVEL_BRANCH e) i

/-- The winning rule: the lowest-lettered true one (R122). -/
def winner (q level : Nat) (t : Int) (cbits : List Bool) (tbit : Bool) (s : State) : Option Nat :=
  (List.range 4).find? (fun b => ruleTrue q level b t cbits tbit s)

/-- The counters after the actions: clear, then add 1 (R126). -/
def countersActed (cs : List Nat) (a : W64) : List Nat :=
  (List.range 4).map (fun n =>
    let c := if actCntClear a n then 0 else cs.getD n 0
    if actCntInc a n then min (c + 1) max48 else c)

/-- The counters of a sequencer take values. -/
def setCounters (q : Nat) (cs : List Nat) (s : State) : State :=
  (List.range 4).foldl (fun t n => t.setN O.SQ_CNT_VALUE (4 * q + n) (cs.getD n 0)) s

/-- `SQ_MARK` of a row (Table 4.15). -/
def markWord (stamp : W40) : W64 := put 1 63 ||| stamp.setWidth 64

/-- The row a mark holds: its stamp and its time. -/
def State.markRow (s : State) (q m : Nat) : Option (W40 × Int) :=
  let w := s.el O.SQ_MARK (16 * q + m)
  if bit w 63 then
    some (w.setWidth 40, (((s.seqx q).marks.find? (fun p => decide (p.1 = m))).map Prod.snd).getD 0)
  else none

/-- A mark takes a row (R130). -/
def setMark (q m : Nat) (r : Row) (s : State) : State :=
  let x := s.seqx q
  (s.setEl O.SQ_MARK (16 * q + m) (markWord r.stamp)).setSeqx q
    { x with marks := (m, r.time) :: x.marks.filter (fun p => !decide (p.1 = m)) }

/-- A cross-signal line takes a value on a step row of time t: in effect 64 ns later (R132, R133). -/
def setLine (k : Nat) (v : Bool) (t : Int) (s : State) : State :=
  let old := Tab.get (fun _ => []) s.xs k
  { s with xs := Tab.set (fun _ => []) s.xs k ((t + ((64 * ns : Nat) : Int), v) :: old) }

/-- The line changes of a rule: `XS_SET` wins over `XS_CLEAR` (R132). -/
def xsActions (q : Nat) (a : W64) (t : Int) (s : State) : State :=
  (List.range 4).foldl (fun u j =>
    if actXsSet a j then setLine (4 * q + j) true t u
    else if actXsClear a j then setLine (4 * q + j) false t u
    else u) s

/-- The values of a sequencer's own lines after its latest changes. -/
def State.ownLines (s : State) (q : Nat) : Nat :=
  ((List.range 4).map (fun j =>
    match Tab.get (fun _ => []) s.xs (4 * q + j) with
    | [] => 0
    | p :: _ => if p.2 then 2 ^ j else 0)).sum

/-- `SQ_STATUS` (Table 4.15). -/
def sqStatusWord (level : Nat) (stepping tbit : Bool) (cbits : List Bool) (lines : Nat) : W64 :=
  put level 0 ||| put stepping.toNat 4 ||| put tbit.toNat 5
    ||| put (((List.range 4).map (fun n => if cbits.getD n false then 2 ^ n else 0)).sum) 6 ||| put lines 10

/-- What a step gives besides the state: the decisions for the bench, in order, and the pin operations. -/
structure StepOut where
  acts : List Act := []
  pins : List (Nat × Nat) := []

/-- An event of a sequencer's own tile or of every stream, raised by its actions (rank 3 of R507). -/
def sqEvent (kind q level : Nat) (arg : W40) (tile : Option Nat) : Act :=
  .ev { kind := kind, sq := q, level := level, arg := arg, tile := tile, rank := 3 }

/-- The winner's actions in the order of Table 4.3, up to the change of level: decisions, pin operations and state. The QUENCH events of a
quench carry this sequencer and its level; a REPORT that comes later carries the lead (DESIGN CHOICE, log entry 166). -/
def doActions (b q level : Nat) (r : Row) (a : W64) (s : State) : StepOut × State :=
  let s1 := if actMarkEn a then setMark q (actMarkN a) r s else s
  let s2 := if actTrigger a then s1.inc O.SQ_TRIGGERS q else s1
  let mark := if actMarkEn a then [Act.mark q level (actMarkN a)] else []
  let trig := if actTrigger a then [Act.trigger q level] else []
  let res := if actResolveEn a then [Act.resolve q level (actResolveN a) (s2.markRow q (actResolveN a))] else []
  let store := (if actStart a then [Act.storeStart] else []) ++ (if actStop a then [Act.storeStop] else [])
  let s3 := xsActions q a r.time s2
  let pins := if actPinOp a ≠ 0 && s3.pinActs b (actPin a) then [(actPin a, actPinOp a)] else []
  let q3 := if actQuench a && s3.mayQuench b then requestQuench b 0 r.dclk r.stamp s3 else ([], s3)
  let quench := q3.1.map (fun g => sqEvent 3 q level g none)
  let s4 := if actEventEn a then postEvent b q level (actEventCode a) r.dclk r.stamp q3.2 else q3.2
  ({ acts := mark ++ trig ++ res ++ store ++ quench, pins := pins }, s4)

/-- One step row of a sequencer (R125). -/
def sqStep (b q : Nat) (r : Row) (s : State) : StepOut × State :=
  let entry := (s.seqx q).entry.getD r.time
  let level := s.sqLevel q
  let cs := countersAfter q r.time s
  let cbits := counterBits q cs s
  let tbit := decide (s.elN O.SQ_LEVEL_TIMEOUT (16 * q + level) ≤ levelTimer entry r.time)
  let win := winner q level r.time cbits tbit s
  let s1 := (setCounters q cs s).inc O.SQ_STEPS q
  match win with
  | none =>
    ({}, (s1.setSeqx q { s1.seqx q with entry := some entry }).setEl O.SQ_STATUS q (sqStatusWord level true tbit cbits (s1.ownLines q)))
  | some k =>
    let a := s.el O.SQ_BRANCH_ACTION (64 * q + 4 * level + k)
    let lb := s.el O.SQ_LEVEL_BRANCH (64 * q + 4 * level + k)
    let goto := bit lb 20
    let next := if goto then fld lb 19 16 else level
    let r2 := doActions b q level r a (setCounters q (countersActed cs a) s1)
    let lev := if goto && sqLevelEvents (s.el O.SQ_CONFIG q) then
        [sqEvent 2 q level (put40 level 4 ||| put40 next 0) (some (sqTile q))]
      else []
    let s2 := (r2.2.setSeqx q { r2.2.seqx q with entry := some (if goto then r.time else entry) }).setEl O.SQ_STATUS q
      (sqStatusWord next true tbit cbits (r2.2.ownLines q))
    ({ r2.1 with acts := r2.1.acts ++ lev }, s2)

/-! ## ARM and the end of an acquisition (R117, R119) -/

/-- The cross-signal lines of a sequencer are 0 (R132). -/
def clearLines (q : Nat) (s : State) : State :=
  ((List.range 4).foldl (fun (t : State) j => { t with xs := Tab.set (fun _ => []) t.xs (4 * q + j) [] }) s).setEl O.SQ_STATUS q
    (setFld (s.el O.SQ_STATUS q) 13 10 0)

/-- An enabled sequencer at ARM: start level, counters 0, marks empty, lines 0, no entry time yet. -/
def sqArm (q : Nat) (s : State) : State :=
  let s1 := setCounters q [] s
  let s2 := (List.range 16).foldl (fun t m => t.setEl O.SQ_MARK (16 * q + m) 0#64) s1
  let s3 := clearLines q s2
  let s4 := ((s3.setSeqx q {}).setN O.SQ_TRIGGERS q 0).setN O.SQ_STEPS q 0
  s4.setEl O.SQ_STATUS q (sqStatusWord (sqStartLevel (s4.el O.SQ_CONFIG q)) true false [] 0)

/-- A sequencer stops stepping; its level, counters, marks and timer stay readable. -/
def sqStop (q : Nat) (s : State) : State := s.setEl O.SQ_STATUS q (setBit (s.el O.SQ_STATUS q) 4 false)

/-! ## A row of the bench's domain -/

/-- Whether a bench processes a row: it runs, its ARM is in effect for the row's domain and time, and no scheduled disarm has
passed (R117, R155). -/
def State.takesRow (s : State) (b : Nat) (r : Row) : Bool :=
  let x := s.bench b
  s.running b && x.armed && decide (x.triple.map (fun p => p.1) = some r.design)
    && (match x.startAt with | none => true | some t => decide (t ≤ r.time))
    && (match x.stopAt with | none => true | some t => decide (r.time < t))

/-- The sequencers of a bench that step on a row: enabled, on its step clock, on a tile that is `ON`, ascending (R114). -/
def State.stepping (s : State) (b : Nat) (r : Row) : List Nat :=
  (s.enabledSqs b).filter (fun q => decide (sqStepClock (s.el O.SQ_CONFIG q) = r.dclk) && s.tileOn (sqTile q))

/-- The steps of a bench's sequencers on a row, ascending: decisions and pin operations joined. -/
def stepBench (b : Nat) (r : Row) (s : State) : StepOut × State :=
  (s.stepping b r).foldl (fun (p : StepOut × State) q =>
    let x := sqStep b q r p.2
    ({ acts := p.1.acts ++ x.1.acts, pins := p.1.pins ++ x.1.pins }, x.2)) ({}, s)

end Sys2Proof.Machine
end

