-- ==== Sys2Proof/Machine/Segment.lean ====
section
/-! DEFINITION. The trigger and segment machine of a bench (R128-R131, R143-R145, R164-R175): what the decisions of each row
mean for the trigger point, the store gate, and the opening and closing of segments. It takes the rows of one slot once every
verdict on them has arrived (R166, R237). -/

namespace Sys2Proof.Machine

/-! ## Accessors -/

def State.seg (s : State) (b : Nat) : Seg := (s.bench b).seg
def State.modSeg (s : State) (b : Nat) (f : Seg → Seg) : State := s.modBench b (fun x => { x with seg := f x.seg })

/-- The number of a trigger state (R143). -/
def TrigState.num : TrigState → Nat
  | .idle => 0 | .waiting => 1 | .triggered => 2 | .holdoff => 3 | .ended => 4

/-- The trigger state a number stands for. -/
def TrigState.of : Nat → TrigState
  | 1 => .waiting | 2 => .triggered | 3 => .holdoff | 4 => .ended | _ => .idle

/-- `TRIG_STATE` of a bench. -/
def State.trigState (s : State) (b : Nat) : TrigState := TrigState.of (s.elN O.TRIG_STATE b)
def State.setTrigState (s : State) (b : Nat) (x : TrigState) : State := s.setN O.TRIG_STATE b x.num

/-- `SEG_INDEX`: the current segment, or the next one between segments. -/
def State.segIndex (s : State) (b : Nat) : Nat := s.elN O.SEG_INDEX b

/-- The hold-off in force: 0 `NONE`, 1 `TIME`, 2 `EVENTS`; a value of 0 behaves as `NONE` (R144). -/
def State.holdoff (s : State) (b : Nat) : Nat × Nat :=
  (if s.elN O.HOLDOFF_VALUE b = 0 then 0 else s.elN O.HOLDOFF_KIND b, s.elN O.HOLDOFF_VALUE b)

/-- What a row's sequencers decided, then its engines in ascending order (R235, R507). -/
def RowDec.all (d : RowDec) : List Act := d.acts ++ d.engines.flatMap Prod.snd

/-- `GATE_STATE` follows the gate (Table 5.6). -/
def refreshGate (b : Nat) (s : State) : State :=
  let g := s.seg b
  s.setEl O.GATE_STATE b
    (put (g.gate && g.stopFrom.isNone && !g.assayStopped).toNat 0 ||| put g.pend.isSome.toNat 1
      ||| put (g.pend.getD false).toNat 2)

/-- `ACQ_END_CAUSE` values (Table 5.6). -/
def endDisarm : Nat := 1
def endLimit : Nat := 2
def endSpace : Nat := 3
def endFault : Nat := 4
def endQuiesce : Nat := 5

/-! ## Pre-trigger start (R174) -/

/-- Whether stamp a is stamp b or follows it, modulo 2^40 (R151, R171). -/
def atOrAfter (a b : W40) : Bool := decide ((a - b).toNat < 2 ^ 39)

/-- The rows of a clock among the rows of the open segment: stamp and time, in emission order. -/
def clockRows (hist : List (Nat × W40 × Int)) (d : Nat) : List (W40 × Int) :=
  hist.filterMap (fun p => if p.1 = d then some p.2 else none)

/-- Stamp and time of the pre-trigger start, for the trigger clock's rows of a segment opened at a time: O and the opening row's
time where `PRE_COUNT` covers the distance D from O to P, else the row named by P - `PRE_COUNT`, or the first one that follows: that
whose distance from O is at least D - `PRE_COUNT`. -/
def preStart (rows : List (W40 × Int)) (openTime : Int) (point : W40) (pre : Nat) : W40 × Int :=
  match rows with
  | [] => (point, openTime)
  | (o, _) :: _ =>
    if (point - o).toNat ≤ pre then (o, openTime)
    else
      match rows.find? (fun p => decide ((point - o).toNat - pre ≤ (p.1 - o).toNat)) with
      | none => (o, openTime)
      | some p => p

/-- From when the rows of the open segment must be kept: its pre-trigger start's time under a `PRE_COUNT`, once a trigger is accepted
(R177). -/
def State.keepFrom (s : State) (b pre : Nat) : Option Int :=
  let g := s.seg b
  match g.trig with
  | none => none
  | some a => some (preStart (clockRows g.hist a.dclk) g.openTime g.point pre).2

/-! ## Decisions of a row -/

/-- The highest row time that a stream of the bench no longer holds (R131, R178). -/
def State.lostTo (s : State) (b : Nat) : Option Int :=
  (List.range 16).foldl (fun m t =>
    match m, (s.stream (16 * b + t)).lostTo with
    | none, x => x
    | some a, none => some a
    | some a, some c => some (max a c)) none

/-- A TRIGGER on a row (R128, R129): accepted while the bench is `WAITING`, its segment open yet or not. The answer is the event. -/
def takeTrigger (b : Nat) (r : Row) (sq level rank : Nat) (engine : Bool) (post : W40) (s : State) : Event × State :=
  let ok : Bool := decide (s.trigState b = .waiting)
  let arg := put40 (s.segIndex b) 24 ||| put40 r.dclk 16 ||| put40 ok.toNat 8
  let e : Event := { kind := 0, sq := sq, level := level, arg := arg, tile := none, rank := rank }
  if ok then
    let a : Trig := { dclk := r.dclk, stamp := r.stamp, time := r.time, sq := sq, engine := engine,
                      post := post }
    (e, (s.modSeg b (fun g => { g with trig := some a, point := r.stamp, resolved := none })).setTrigState b .triggered)
  else (e, s)

/-- The status of a RESOLVE whose mark holds a row of a stamp and a time (R131): 0 `APPLIED`, 1 `EMPTY`, 2 `EXPIRED`,
3 `NOT_ELIGIBLE`. A row expires once a stream no longer holds it, and where it lies before the opening row of the current segment: of a
segment that has accepted a trigger and has yet to open, every row that has come does (DEDUCED, log entry 35). -/
def resolveStatus (b : Nat) (r : Row) (sq : Nat) (mark : Option (W40 × Int)) (s : State) : Nat :=
  let g := s.seg b
  match mark with
  | none => 1
  | some m =>
    let inSeg := g.hist.any (fun p => decide (p.1 = r.dclk) && decide (p.2.1 = m.1))
    let lost := match s.lostTo b with
      | none => false
      | some k => decide (m.2 ≤ k)
    if lost || (g.open_ && !inSeg) then 2
    else
      match g.trig with
      | some a =>
        if s.trigState b = .triggered && !a.engine && decide (a.sq = sq) && g.resolved.isNone && decide (m.2 ≤ a.time) then
          (if g.open_ then 0 else 2)
        else 3
      | none => 3

/-- A RESOLVE on a row: the event, and the trigger point moved when it is `APPLIED`. The distance of an empty mark is left open
by the manual: a free value. -/
def takeResolve (b : Nat) (r : Row) (sq level m : Nat) (mark : Option (W40 × Int)) (s : State) : Event × State :=
  let st := resolveStatus b r sq mark s
  let dist := match mark with
    | none => fld s.freeNext 31 0
    | some k => min (r.stamp - k.1).toNat 0xFFFFFFFF
  let s1 := if mark.isNone then s.drawn else s
  let e : Event := { kind := 11, sq := sq, level := level, arg := put40 dist 8 ||| put40 m 4 ||| put40 st 0, tile := none, rank := 3 }
  if st = 0 then (e, s1.modSeg b (fun g => { g with point := (mark.map Prod.fst).getD g.point, resolved := some m })) else (e, s1)

/-- The decisions of a row but for the store actions, in order; the answer is the row's events. -/
def takeAct (b : Nat) (r : Row) (lead : Nat × Nat) (post : W40) (a : Act) (s : State) : List Event × State :=
  match a with
  | .trigger sq level => let x := takeTrigger b r sq level 3 false post s; ([x.1], x.2)
  | .mark sq level m =>
    ([{ kind := 1, sq := sq, level := level, arg := put40 m 0, tile := some (sqTile sq), rank := 3 }], s)
  | .resolve sq level m row => let x := takeResolve b r sq level m row s; ([x.1], x.2)
  | .ev e => ([e], s)
  | .assayTrigger _ => let x := takeTrigger b r lead.1 lead.2 4 true post s; ([x.1], x.2)
  | .storeStart | .storeStop | .assayStop => ([], s)

/-- The decisions of a row, folded. -/
def takeActs (b : Nat) (r : Row) (lead : Nat × Nat) (post : W40) : List Act → State → List Event × State
  | [], s => ([], s)
  | a :: t, s =>
    let x := takeAct b r lead post a s
    let y := takeActs b r lead post t x.2
    (x.1 ++ y.1, y.2)

/-- Whether a row closes the open segment (R171): the first of the trigger clock at least `POST_COUNT` cycles after A. -/
def State.closesOn (s : State) (b : Nat) (r : Row) : Bool :=
  let g := s.seg b
  g.open_ && (match g.trig with
    | none => false
    | some a => decide (r.dclk = a.dclk) && decide (a.post.toNat ≤ (r.stamp - a.stamp).toNat))

/-- The rows of a slot as they go to the planisher, each with whether it lies in the segment. -/
abbrev SlotRows := List (PlanRow × Bool)

/-- A gate opened on a row opens for every row of its slot that lies in the segment (R166); where it was closed, a snapshot of
every clock is due from the first of them on (R188). -/
def openGateIn (idx : Nat) (assay : Bool) : Bool → SlotRows → SlotRows
  | _, [] => []
  | fresh, p :: t =>
    if p.2 && decide (p.1.segment = idx) then
      ({ p.1 with stored := !assay, gateOpens := p.1.opens && !assay, snap := p.1.snap || fresh }, true) :: openGateIn idx assay false t
    else p :: openGateIn idx assay fresh t

/-- One store action (R166, R167): on the gate inside a segment, else on the pending value of the next opening; after the
acquisition's end it means nothing. -/
def takeStore (b : Nat) (r : Row) (inside start : Bool) (acc : SlotRows) (s : State) : SlotRows × State :=
  if inside then
    if start then
      (openGateIn (s.segIndex b) (s.seg b).assayStopped (!(s.seg b).gate) acc, s.modSeg b (fun g => { g with gate := true, stopFrom := none }))
    else (acc, s.modSeg b (fun g => { g with stopFrom := some r.time }))
  else if s.trigState b = .ended then (acc, s)
  else (acc, s.modSeg b (fun g => { g with pend := some start }))

/-- The store actions of a row, in order. -/
def takeStores (b : Nat) (r : Row) (inside : Bool) : List Act → SlotRows → State → SlotRows × State
  | [], acc, s => (acc, s)
  | a :: t, acc, s =>
    let x := match a with
      | .storeStart => takeStore b r inside true acc s
      | .storeStop => takeStore b r inside false acc s
      | _ => (acc, s)
    takeStores b r inside t x.1 x.2

/-! ## Opening and closing -/

/-- Whether a segment opens on a row: segment 0 on the lead sequencer's first step, a later one on the first row after H
(R169); after a hold-off of `NONE` that is the first row later than the closing row's slot (R172, R173). A trigger accepted before
the opening does not put it off (R128). -/
def State.opensOn (s : State) (b : Nat) (d : RowDec) : Bool :=
  let g := s.seg b
  (decide (s.trigState b = .waiting) || decide (s.trigState b = .triggered)) && !g.open_ &&
    (if g.first then d.leadStep
     else match g.after with
       | none => true
       | some t => decide (t < d.row.time))

/-- The segment opens (R165): the gate takes its pending value, or that of the mode; `hist` are the rows of the opening row's slot
before it that lie in no earlier segment: O may be one of them (R174). -/
def openSegment (b : Nat) (r : Row) (hist : List (Nat × W40 × Int)) (s : State) : State :=
  s.modSeg b (fun g =>
    { g with open_ := true, first := false, openTime := r.time, hist := hist, gapped := false,
             gate := g.pend.getD (!decide (s.elN O.STORE_MODE b = 2)), pend := none, stopFrom := none, after := none })

/-- What the closing of the open segment fixes, on a row on which a `PRE_COUNT` is in force. -/
def State.closing (s : State) (b reason dclk : Nat) (stamp : W40) (pre : Nat) : Closing :=
  let g := s.seg b
  match g.trig with
  | none => { reason := reason, trig := none, point := 0#40, resolved := none, start := 0#40, startTime := g.openTime, dclk := dclk,
              stamp := stamp, rows := [] }
  | some a =>
    let rows := clockRows g.hist a.dclk
    let p := preStart rows g.openTime g.point pre
    { reason := reason, trig := some a, point := g.point, resolved := g.resolved, start := p.1, startTime := p.2, dclk := dclk,
      stamp := stamp, rows := rows }

/-- The event HOLDOFF_END on H, with the index of the next segment. -/
def holdoffEnd (lead : Nat × Nat) (next : Nat) : Event :=
  { kind := 7, sq := lead.1, level := lead.2, arg := put40 next 24, tile := none, rank := 6 }

/-- The segment closes on a row (R171, R179, R144): the index advances; the bench is `ENDED` at the limit, `WAITING` without a
hold-off, else in `HOLDOFF`. The answer is the HOLDOFF_END event where H is the closing row. -/
def closeSegment (b : Nat) (r : Row) (lead : Nat × Nat) (hold : Nat × Nat) (s : State) : List Event × State :=
  let next := s.segIndex b + 1
  let s1 := (s.setN O.SEG_INDEX b next).modSeg b (fun g =>
    { g with open_ := false, trig := none, resolved := none, closeTime := r.time, closeKey := some (r.dclk, r.stamp), holdCount := 0, hist := [],
             after := some r.time })
  if s.elN O.SEGMENT_LIMIT b ≤ next then ([], (s1.setTrigState b .ended).setN O.ACQ_END_CAUSE b endLimit)
  else if hold.1 = 0 then ([holdoffEnd lead next], s1.setTrigState b .waiting)
  else ([], s1.setTrigState b .holdoff)

/-- A row during the hold-off, after the closing row: H ends it (R144). A hold-off whose kind a commit has set to `NONE` ends as under
`TIME` (DESIGN CHOICE, log entry 136). -/
def holdoffRow (b : Nat) (d : RowDec) (s : State) : List Event × State :=
  if !d.leadStep then ([], s)
  else
    let g := s.seg b
    let n := g.holdCount + d.holdBit.toNat
    let done := if d.hold.1 = 2 then d.holdBit && decide (d.hold.2 ≤ n)
      else decide (g.closeTime + ((d.hold.2 * ns : Nat) : Int) ≤ d.row.time)
    let s1 := s.modSeg b (fun g => { g with holdCount := n })
    if done then
      ([holdoffEnd d.lead (s.segIndex b)], (s1.modSeg b (fun g => { g with after := none })).setTrigState b .waiting)
    else ([], s1)

/-- A lane event among others in ascending lane order: lanes stand in bits [7:0] of the argument. -/
def insertLane (e : Event) : List Event → List Event
  | [] => [e]
  | x :: t => if fld e.arg 7 0 < fld x.arg 7 0 then e :: x :: t else x :: insertLane e t

/-- The events of one kind stand in ascending lane order in the places they have. -/
def laneOrder (kind : Nat) (l : List Event) : List Event :=
  let sorted := (l.filter (fun e => decide (e.kind = kind))).foldl (fun acc e => insertLane e acc) []
  place sorted l
where
  place : List Event → List Event → List Event
    | _, [] => []
    | [], l => l
    | x :: xs, e :: t => if e.kind = kind then x :: place xs t else e :: place (x :: xs) t

/-- Events in the order of R507: by rank, and within one rank in the order in which they arose; LANE_FAULT and TIME_SUSPECT in
ascending lane order (R46). -/
def sortEvents (l : List Event) : List Event :=
  laneOrder 9 (laneOrder 10 (l.filter (fun e => decide (e.rank = 0))))
    ++ (List.range 6).flatMap (fun k => l.filter (fun e => decide (e.rank = k + 1)))

/-- The rows of the slot that stand before the opening row of segment 0 lie in it, under its gate (R174); those of a hold-off lie in none
(R173). -/
def joinSegment (idx : Nat) (stored : Bool) (l : SlotRows) : SlotRows :=
  l.map (fun p => ({ p.1 with stored := stored, segment := idx }, true))

/-- One row of a slot: opening, events, trigger decisions, closing, store actions, hold-off; the row joins the slot's rows. -/
def decideRow (b : Nat) (d : RowDec) (before : SlotRows) (s : State) : SlotRows × State :=
  let r := d.row
  let held := s.trigState b = .holdoff
  let opens := s.opensOn b d
  let early := opens && (s.seg b).first
  let s1 := if opens then
      openSegment b r ((before.filter (fun p => !p.2)).map (fun p => (p.1.row.dclk, p.1.row.stamp, p.1.row.time))) s
    else s
  let acc := if early then joinSegment (s1.segIndex b) ((s1.seg b).gate && !(s1.seg b).assayStopped) before else before
  let s2 := if (s1.seg b).open_ then s1.modSeg b (fun g => { g with hist := g.hist ++ [(r.dclk, r.stamp, r.time)] }) else s1
  let armNow := d.leadStep && (s2.bench b).armEvent
  let armEv : List Event := if armNow then
      [{ kind := 6, sq := d.lead.1, level := d.lead.2, arg := put40 (s2.bench b).armKind 0, tile := none, rank := 1 }] else []
  let s3 := if armNow then s2.modBench b (fun x => { x with armEvent := false }) else s2
  let x := takeActs b r d.lead d.post d.all s3
  let closes := x.2.closesOn b r
  let idx := if (x.2.seg b).open_ || decide (x.2.seg b).closeKey.isNone then x.2.segIndex b
    else if (x.2.seg b).closeTime = r.time then x.2.segIndex b - 1 else x.2.segIndex b
  let inSeg := (x.2.seg b).open_ || ((x.2.seg b).closeKey.isSome && decide ((x.2.seg b).closeTime = r.time))
  let keep := x.2.keepFrom b d.pre
  let g := x.2.seg b
  let clos := if closes then some (x.2.closing b 0 r.dclk r.stamp d.pre) else none
  let y := if closes then closeSegment b r d.lead d.hold x.2 else ([], x.2)
  let base : PlanRow :=
    { row := r, stored := inSeg && g.gate && !g.assayStopped, opens := opens, gateOpens := g.gate && !g.assayStopped,
      snap := opens && g.gate && (decide (s.elN O.STORE_MODE b = 2) || !((s.seg b).first || (s.seg b).gate)),
      closes := clos, segment := idx, keepFrom := keep, events := [], lead := d.lead, last := none, sync := d.sync }
  let w := takeStores b r (g.open_ && !closes) d.all (acc ++ [(base, inSeg)]) y.2
  let h := if held then holdoffRow b d w.2 else ([], w.2)
  let evs := sortEvents (armEv ++ x.1 ++ y.1 ++ h.1)
  let rows := (w.1.dropLast) ++ (match w.1.getLast? with
    | none => []
    | some p => [({ p.1 with events := evs }, p.2)])
  (rows, h.2.modSeg b (fun q => { q with last := some (r.dclk, r.stamp, r.time) }))

/-- The rows of a slot, in emission order. -/
def decideRows (b : Nat) : List RowDec → SlotRows → State → SlotRows × State
  | [], acc, s => (acc, s)
  | d :: t, acc, s =>
    let x := decideRow b d acc s
    decideRows b t x.1 x.2

/-- The last row of a slot on which the acquisition ended carries END with reason 1 (R179). -/
def markLast (l : List PlanRow) : List PlanRow :=
  l.dropLast ++ (match l.getLast? with
    | none => []
    | some p => [{ p with last := some 1 }])

/-- The decisions of one slot are taken, and its rows go to the planisher (R166, R167, R234). -/
def decideSlot (b : Nat) (ds : List RowDec) (s : State) : State :=
  if s.trigState b = .ended then s
  else
    let t := (ds.map (fun d => d.row.time)).headD 0
    let s1 := s.modSeg b (fun g =>
      match g.stopFrom with
      | none => g
      | some k => if k < t then { g with gate := false, stopFrom := none } else g)
    let x := decideRows b ds [] s1
    let rows := x.1.map Prod.fst
    let rows1 := if x.2.trigState b = .ended then markLast rows else rows
    let stop := ds.any (fun d => d.all.contains .assayStop)
    let s2 := x.2.modBench b (fun y => { y with plan := y.plan ++ rows1 })
    refreshGate b (s2.modSeg b (fun g => { g with assayStopped := g.assayStopped || stop }))

/-! ## Rows whose verdicts have all arrived (R237) -/

/-- The engines of a bench that still have to decide a row. -/
def State.awaits (s : State) (b : Nat) (r : Row) : Bool :=
  (List.range 4).any (fun a => decide (s.elN O.AE_OWNER a = b)
    && (s.engine a).rows.any (fun x => decide (x.dclk = r.dclk) && decide (x.stamp = r.stamp)))

/-- The rows of the first slot among undecided rows, and the rest. -/
def firstSlot : List RowDec → List RowDec × List RowDec
  | [] => ([], [])
  | d :: t => (d :: t.takeWhile (fun x => !x.slotStart), t.dropWhile (fun x => !x.slotStart))

/-- Slots are decided from the oldest on, as far as every verdict on their rows has arrived; `n` bounds the number of slots. -/
def settleN (b : Nat) : Nat → State → State
  | 0, s => s
  | n + 1, s =>
    let p := firstSlot (s.bench b).undecided
    if p.1.isEmpty || p.1.any (fun d => s.awaits b d.row) then s
    else settleN b n (decideSlot b p.1 (s.modBench b (fun x => { x with undecided := p.2 })))

/-- Every slot of a bench that can be decided is. -/
def settle (b : Nat) (s : State) : State := settleN b (s.bench b).undecided.length s

end Sys2Proof.Machine
end

