-- ==== Sys2Proof/Machine/Planisher.lean ====
section
/-! DEFINITION. The planisher (05_acquisition.md): records and their placing in cells and ingots (R182-R196), change tracking
(R163), gaps (R197-R202), the ring of ingots (R176, R177), the segment table (R175, R181), and END. -/

namespace Sys2Proof.Machine

/-! ## Record words (Table 5.3) -/

/-- The record types. -/
def recChange : Nat := 1
def recRun : Nat := 2
def recFull : Nat := 3
def recClock : Nat := 4
def recSync : Nat := 5
def recGap : Nat := 6
def recEvent : Nat := 7
def recDelta : Nat := 8
def recEnd : Nat := 15

/-- A record to be placed: of one piece, or with a list of groups that may be split (R193). -/
inductive Rec where
  | one (ws : List W40)
  | vec (ty group delta : Nat) (vals : List W40)
  deriving DecidableEq, Repr

/-- First word of RUN and FULL. -/
def vecHead (ty group n delta : Nat) : W40 := put40 ty 36 ||| put40 group 20 ||| put40 (n - 1) 12 ||| put40 delta 0

/-- CHANGE, CLOCK, GAP, EVENT, DELTA, END. -/
def changeRec (group delta : Nat) (v : W40) : Rec := .one [put40 recChange 36 ||| put40 group 20 ||| put40 delta 0, v]
def clockRec (d : Nat) : Rec := .one [put40 recClock 36 ||| put40 d 28]
def gapRec (d cause rows cycles : Nat) : Rec :=
  .one [put40 recGap 36 ||| put40 d 28 ||| put40 cause 24, BitVec.ofNat 40 (sat 40 rows), BitVec.ofNat 40 (sat 40 cycles)]
def eventRec (e : Event) (delta : Nat) : Rec :=
  .one [put40 recEvent 36 ||| put40 e.kind 32 ||| put40 e.sq 25 ||| put40 e.level 21 ||| put40 delta 0, e.arg]
def deltaRec (advance : Nat) : Rec := .one [put40 recDelta 36 ||| put40 advance 0]
def endRec (reason : Nat) : Rec := .one [put40 recEnd 36 ||| put40 reason 32]

/-- SYNC of a clock: of its latest row, or with `NO_ROW` (R186). -/
def syncRec (d : Nat) (suspect ingot : Bool) (seg : Nat) (row : Option (W40 × Int)) : Rec :=
  let head := put40 recSync 36 ||| put40 d 28 ||| put40 suspect.toNat 27 ||| put40 ingot.toNat 26 ||| put40 row.isNone.toNat 25
    ||| put40 (seg % 65536) 0
  match row with
  | none => .one [head, 0#40, 0#40, 0#40]
  | some (st, t) =>
    let n := t.toNat
    .one [head, st, BitVec.ofNat 40 (secondsOf n), put40 (n % sec / ns) 10 ||| put40 (n % ns / 64) 0]

/-- The words of a clock's cycles from one stamp to another, both included. -/
def cyclesSpan (first last : W40) : Nat := (last - first).toNat + 1

/-! ## Cells (R190-R195) -/

/-- Words in a cell. -/
def cellWords : Nat := 204

/-- The 1,024 bytes of a cell: 204 words and the trailer with CRC and sequence number (R190, R191). -/
def cellBytes (ws : List W40) (seq : Nat) : List Byte :=
  let body := bytesLE 1020 (packWords ws)
  body ++ bytesLE 2 (crc16 body).toNat ++ bytesLE 2 (seq % 65536)

/-- The directory entry of a position of a bench. -/
def State.dirAt (s : State) (b pos : Nat) : DirEntry := (s.dir b).getD pos { ingot := 0 }
/-- The same entry replaced. -/
def State.setDirAt (s : State) (b pos : Nat) (e : DirEntry) : State := s.setDir b ((s.dir b).set pos e)

/-- Words left in the cell being filled; none where no cell is begun. -/
def State.room (s : State) (k : Nat) : Nat := if (s.stream k).cell.isEmpty then 0 else cellWords - (s.stream k).cell.length

/-- Cells the stream can still begin in its current ingot. -/
def State.cellsLeft (s : State) (k : Nat) : Nat :=
  match (s.stream k).ingot with
  | none => 0
  | some pos => 1024 - (s.dirAt (k / 16) pos).cells - (if (s.stream k).cell.isEmpty then 0 else 1)

/-- Whether a record fits in the current ingot (R195). -/
def recFits (k : Nat) (r : Rec) (s : State) : Bool :=
  let room := s.room k
  match r with
  | .one ws => decide (ws.length ≤ room) || decide (1 ≤ s.cellsLeft k)
  | .vec _ _ _ vals =>
    let rest := if 2 ≤ room then vals.length - (room - 1) else vals.length
    decide (vals.length + 1 ≤ room) || decide ((rest + 202) / 203 ≤ s.cellsLeft k)

/-- The drain queue bound to a stream. -/
def State.drainOf (s : State) (k : Nat) : Option Nat :=
  (s.queuesOf (k / 16)).find? (fun q => decide (s.qKind q = 1) && decide (qSource (s.el O.Q_CONFIG q) = k))

/-- The pool cell of a begun store cell is released: a transfer of it that had begun is over, and so is a flush that waited for it. -/
def dropHand (k : Nat) (s : State) : State :=
  match (s.stream k).inHand with
  | none => s
  | some id =>
    let s1 := match s.drainOf k with
      | none => s
      | some q => s.modQueue q (fun x =>
          { x with inTransfer := x.inTransfer && !x.pkts.isEmpty, sent := if x.pkts.isEmpty then 0 else x.sent,
                   flushing := x.flushing && decide (x.flushPkt ≠ some id), flushPkt := if x.flushPkt = some id then none else x.flushPkt })
    releaseLink id (s1.modStream k (fun x => { x with inHand := none, noDrain := false, cell := [] }))

/-- A full cell is committed (R194): trailer, its place in the ingot with the segment written (Table 9.4), the stream's store-write list,
and the drain queue. -/
def commitCell (k : Nat) (s : State) : State :=
  let x := s.stream k
  match x.inHand, x.ingot with
  | some id, some pos =>
    let b := k / 16
    let e := s.dirAt b pos
    let q := if x.noDrain then none else s.drainOf k
    let p := s.packet id
    let s1 := s.setPacket id { p with bytes := cellBytes x.cell x.seq, complete := true, links := 1 + q.isSome.toNat }
    let s2 := (s1.setDirAt b pos { e with cells := e.cells + 1, segment := if e.sealed_ then e.segment else x.seg }).setStream k
      { x with cell := [], inHand := none, noDrain := false, seq := (x.seq + 1) % 65536 }
    let req : StoreReq := { cls := 1, bench := b, func := none, ingot := e.ingot, cell := e.cells, op := .write id k }
    let s4 := (acceptReq req s2).inc O.STREAM_CELLS k
    match q with
    | none => match s.drainOf k with
      | none => s4
      | some n => noteQueue s n s4
    | some n =>
      let o := offerPacket n id s4
      if o.1 then o.2 else noteQueue s4 n o.2
  | _, _ => s

/-- Words are written to the cell; a full cell is committed. -/
def appendWords (k : Nat) (ws : List W40) (s : State) : State :=
  let s1 := s.modStream k (fun x => { x with cell := x.cell ++ ws })
  if cellWords ≤ (s1.stream k).cell.length then commitCell k s1 else s1

/-- The rest of a begun cell is filled with PAD, and the cell is committed. -/
def padCell (k : Nat) (s : State) : State :=
  if (s.stream k).cell.isEmpty then s else appendWords k (List.replicate (s.room k) 0#40) s

/-- What stopped a record: the cause of the loss (R197), none where nothing did. -/
abbrev Put := State × Option Nat

/-- The next part of a writing, unless the first was stopped. -/
def Put.andThen (r : Put) (f : State → Put) : Put :=
  match r.2 with
  | none => f r.1
  | some _ => r

/-- A pool cell for the next store cell: none while the backlog stands at its limit (cause 0, R295) or the allocator grants
none (cause 1). -/
def takeHand (k : Nat) (s : State) : Put :=
  if s.elN O.STORE_BACKLOG 0 ≤ s.backlog k then (s, some 0)
  else
    match (s.stream k).inHand with
    | some _ => (s, none)
    | none =>
      if (s.stream k).refused then (s.modStream k (fun x => { x with refused := false }), some 1) else
      match allocPacket { kind := .storeCell, bench := some (k / 16), cells := [], complete := false } .acquisition (k % 16) 4 s with
      | (none, t) => (t, some 1)
      | (some id, t) =>
        let u := t.modStream k (fun x => { x with inHand := some id })
        (match t.drainOf k with | none => u | some q => noteQueue t q u, none)

/-- A record of one piece (R192). -/
def putOne (k : Nat) (ws : List W40) (s : State) : Put :=
  if ws.length ≤ s.room k then (appendWords k ws s, none)
  else (takeHand k (padCell k s)).andThen (fun t => (appendWords k ws t, none))

/-- A record of several groups, split at cell ends (R193); `n` bounds the number of parts. -/
def putVec (k ty : Nat) : Nat → Nat → Nat → List W40 → State → Put
  | 0, _, _, _, s => (s, none)
  | n + 1, g, delta, vals, s =>
    if vals.isEmpty then (s, none)
    else
      let go (room : Nat) (t : State) : Put :=
        let m := min vals.length (room - 1)
        putVec k ty n (g + m) 0 (vals.drop m) (appendWords k (vecHead ty g m delta :: vals.take m) t)
      if vals.length + 1 ≤ s.room k || decide (2 ≤ s.room k) then go (s.room k) s
      else (takeHand k (padCell k s)).andThen (fun t => go cellWords t)

/-- A record that fits in the current ingot. -/
def putRec (k : Nat) (r : Rec) (s : State) : Put :=
  match r with
  | .one ws => putOne k ws s
  | .vec ty g delta vals => putVec k ty (vals.length + 1) g delta vals s

/-! ## The ring of ingots (R176, R177, R319, R321) -/

/-- The positions allotted to a stream. -/
def Stream.positions (x : Stream) : List Nat := (List.range x.alloc.2).map (fun i => x.alloc.1 + i)

/-- The span of a written position. -/
def Stream.spanOf (x : Stream) (pos : Nat) : Option IngotSpan := x.spans.find? (fun p => decide (p.pos = pos))

/-- The position filled first among some. -/
def State.oldestOf (s : State) (b : Nat) : List Nat → Option Nat
  | [] => none
  | p :: t => some (t.foldl (fun m q => if (s.dirAt b q).fillSeq < (s.dirAt b m).fillSeq then q else m) p)

/-- The next ingot under R319 and R177: an unwritten position, or the oldest unsealed one, after the trigger only one whose rows
all lie before the pre-trigger start. -/
def State.freeIngot (s : State) (k : Nat) (keep : Option Int) : Option Nat :=
  let x := s.stream k
  let at_ (p : Nat) : DirEntry := s.dirAt (k / 16) p
  match x.positions.find? (fun p => decide ((at_ p).fillSeq = 0xFFFFFFFF#32)) with
  | some p => some p
  | none =>
    match s.oldestOf (k / 16) (x.positions.filter (fun p => !(at_ p).sealed_)) with
    | none => none
    | some p =>
      match keep, x.spanOf p with
      | some t, some q => if q.hi < t then some p else none
      | _, _ => some p

/-- The oldest segment to which ingots are sealed, in any stream of a bench. -/
def State.oldestSealed (s : State) (b : Nat) : Option Nat := listMin ((s.dir b).flatMap (fun e => e.holds))

/-- An ingot is no longer sealed to a segment; it returns to its ring once no segment it is sealed to stands (R176, R177). -/
def DirEntry.release (e : DirEntry) (seg : Nat) : DirEntry :=
  let hs := e.holds.filter (fun g => !decide (g = seg))
  if e.holds.contains seg && hs.isEmpty then { e with holds := [], sealed_ := false, state := if e.state = 3 then 2 else e.state }
  else { e with holds := hs }

/-- A segment is given up (R177): its entry is marked `OVERWRITTEN`, its ingots return to the rings. -/
def giveUp (b seg : Nat) (s : State) : State :=
  noteSeg s b ((s.setDir b ((s.dir b).map (fun e => e.release seg))).modBench b (fun x =>
    let e := Tab.get (fun _ => {}) x.segs seg
    { x with segs := Tab.set (fun _ => {}) x.segs seg { e with w3 := setBit e.w3 53 true } }))

/-- The stream leaves its ingot: `OPEN` becomes `SEALED` or `RING`. -/
def leaveIngot (k : Nat) (s : State) : State :=
  match (s.stream k).ingot with
  | none => s
  | some pos =>
    let e := s.dirAt (k / 16) pos
    (s.setDirAt (k / 16) pos { e with state := if e.sealed_ then 3 else 2 }).modStream k (fun x => { x with ingot := none })

/-- The latest row time that goes with the span of an ingot taken again: a row begun in it and covered by the start of the next one is
still held (R178, R196). -/
def Stream.goneTo (x : Stream) (q : IngotSpan) : Int :=
  if x.spans.any (fun p => decide (p.pos ≠ q.pos) && decide (p.lo = q.hi)) then q.hi - 1 else q.hi

/-- The stream opens an ingot at a position: what it held is no longer retained, no context stands, and the start block is due (R196). -/
def openIngot (k pos seg : Nat) (s : State) : State :=
  let x := s.stream k
  let e := s.dirAt (k / 16) pos
  let lost := match x.spanOf pos, x.lostTo with
    | none, l => l
    | some q, none => some (x.goneTo q)
    | some q, some l => some (max (x.goneTo q) l)
  (s.setDirAt (k / 16) pos { e with tile := k % 16, state := 4, segment := seg, firstSeq := x.seq, cells := 0, sealed_ := false, holds := [],
                                    fillSeq := BitVec.ofNat 32 x.fillSeq }).setStream k
    { x with ingot := some pos, fillSeq := x.fillSeq + 1, lostTo := lost, ctxs := [], synced := [], cur := none,
             starts := x.clocks, startAt := none, spans := x.spans.filter (fun q => !decide (q.pos = pos)) }

/-- The stream finds no ingot: `NO_SPACE`. -/
def noSpace (k : Nat) (s : State) : State := s.setEl O.STREAM_STATUS k (setBit (s.el O.STREAM_STATUS k) 2 true)

/-- The choice of a new ingot: R177's policy where none remains. Under `OVERWRITE` segments are given up, oldest first, until one of
their ingots serves; under `END` the stream has none until the segment closes, and the bench ends after it. `n` bounds the number of
segments. -/
def chooseIngot (k : Nat) (keep : Option Int) : Nat → State → Option Nat × State
  | 0, s => (none, s)
  | n + 1, s =>
    match s.freeIngot k keep with
    | some p => (some p, s)
    | none =>
      if s.elN O.SEG_FULL_POLICY (k / 16) = 1 then
        match s.oldestSealed (k / 16) with
        | none => (none, noSpace k s)
        | some g => chooseIngot k keep n (giveUp (k / 16) g s)
      else (none, ((noSpace k s).modSeg (k / 16) (fun g => { g with endAfter := true })).modStream k (fun x => { x with noIngot := true }))

/-! ## Contexts (R183, R184) -/

/-- The value kept for a key of a list of pairs. -/
def pairGet {α : Type} (l : List (Nat × α)) (k : Nat) : Option α := (l.find? (fun p => decide (p.1 = k))).map Prod.snd
/-- The list with a key's value replaced. -/
def pairSet {α : Type} (l : List (Nat × α)) (k : Nat) (v : α) : List (Nat × α) :=
  l.filter (fun p => !decide (p.1 = k)) ++ [(k, v)]

/-- The latest row of a clock in a stream. -/
def Stream.latestOf (x : Stream) (d : Nat) : Option (W40 × Int) := pairGet x.latest d

/-- The stamp of a clock's context. -/
def Stream.ctxOf (x : Stream) (d : Nat) : W40 := (pairGet x.ctxs d).getD 0#40

/-- The context after a SYNC of a clock. -/
def afterSync (k d : Nat) (s : State) : State :=
  s.modStream k (fun x =>
    let st := ((x.latestOf d).map Prod.fst).getD 0#40
    { x with ctxs := pairSet x.ctxs d st, synced := pairSet x.synced d st, cur := some d,
             syncDue := x.syncDue.filter (fun c => !decide (c = d)) })

/-- A clock's context stands at a stamp. -/
def setCtx (k d : Nat) (st : W40) (s : State) : State := s.modStream k (fun x => { x with ctxs := pairSet x.ctxs d st })

/-- Whether a lane that carries the stream's groups of a clock is `TIME_SUSPECT` (R49). -/
def State.suspect (s : State) (k d : Nat) : Bool :=
  let gs := (s.stream k).groups.filterMap (fun p => if p.2 = d then some p.1 else none)
  (List.range 16).any (fun i =>
    let l := 16 * (k % 16) + i
    s.laneFlag l 1 && ((s.lane l).map.groupsOf d).any (fun g => gs.contains g))

/-- The SYNC of a clock as it stands now. -/
def State.sync (s : State) (k d seg : Nat) (ingot : Bool) : Rec := syncRec d (s.suspect k d) ingot seg ((s.stream k).latestOf d)

/-! ## Values -/

/-- The groups of a stream on a clock, ascending. -/
def Stream.groupsOf (x : Stream) (d : Nat) : List Nat :=
  ((x.groups.filterMap (fun p => if p.2 = d then some p.1 else none))).mergeSort (fun a b => decide (a ≤ b))

/-- The latest received words of groups; the word of one never received since ARM is left open: a free value (R188). -/
def groupValues (k : Nat) : List Nat → State → List (Nat × W40) × State
  | [], s => ([], s)
  | g :: t, s =>
    match pairGet (s.stream k).recv g with
    | some w =>
      let r := groupValues k t s
      ((g, w) :: r.1, r.2)
    | none =>
      let r := groupValues k t s.drawn
      ((g, s.freeNext.setWidth 40) :: r.1, r.2)

/-- Groups with their words cut into maximal runs of consecutive IDs, of at most 256 groups counted from the first (R187). -/
def runsFwd (l : List (Nat × W40)) : List (Nat × List W40) :=
  (l.foldl (fun (acc : List (Nat × List W40)) p =>
    match acc with
    | [] => [(p.1, [p.2])]
    | (g, ws) :: rest =>
      if p.1 = g + ws.length && decide (ws.length < 256) then (g, ws ++ [p.2]) :: rest else (p.1, [p.2]) :: (g, ws) :: rest) []).reverse

/-! ## Items of a row (R185) -/

/-- What is written for a row, piece by piece: a GAP; the SYNC of a clock after its GAP, and a record of the snapshot that follows; the
row's context; data records (with `full`, as FULL) of a clock at its latest stamp; an EVENT; END. -/
inductive Item where
  | gap (d cause rows cycles : Nat)
  | resync (d : Nat)
  | snap (d g : Nat) (vals : List W40)
  | ctx (d : Nat)
  | data (d : Nat) (full : Bool) (g : Nat) (vals : List W40)
  | event (e : Event)
  | ending (reason : Nat)
  deriving DecidableEq, Repr

/-- What is left of a row's items after the start of a new ingot, whose snapshots cover the row's data (R196): the GAPs, each lost one with
the SYNC and snapshot after it (R199), and the EVENTs. `after`: such a GAP has just been written. -/
def afterIngot : Bool → List Item → List Item
  | _, [] => []
  | after, it :: t =>
    match it with
    | .gap _ c _ _ => it :: afterIngot (decide (c ≠ 2)) t
    | .resync _ | .snap .. => if after then it :: afterIngot after t else afterIngot after t
    | .ctx _ | .data .. => afterIngot false t
    | .event _ | .ending _ => it :: afterIngot false t

/-- Place a record, then change the context. -/
def putThen (k : Nat) (r : Rec) (f : State → State) (s : State) : Put := (putRec k r s).andThen (fun t => (f t, none))

/-- Place a record where the current ingot holds it; `none` of the first part where it does not fit. -/
def tryRec (k : Nat) (r : Rec) (f : State → State) (s : State) : Option Put :=
  if recFits k r s then some (putThen k r f s) else none

/-- A sequence of records, each computed from the state before it. `none`: a record did not fit in the ingot; the state before it
is then the second part. -/
def tryAll (k : Nat) : List (State → Option (Rec × (State → State))) → State → Option Put × State
  | [], s => (some (s, none), s)
  | m :: t, s =>
    match m s with
    | none => tryAll k t s
    | some (r, f) =>
      match tryRec k r f s with
      | none => (none, s)
      | some (s1, none) => tryAll k t s1
      | some (s1, some c) => (some (s1, some c), s1)

/-- The SYNC or CLOCK that makes a clock the current context, where one is needed (R185 step 2, R186): a SYNC when one is due, and for a
clock that has no context in the ingot. -/
def needCtx (k d seg interval : Nat) (s : State) : Option (Rec × (State → State)) :=
  let x := s.stream k
  let stamp := ((x.latestOf d).map Prod.fst).getD 0#40
  let old := (stamp - (pairGet x.synced d).getD 0#40).toNat
  let adv := (stamp - x.ctxOf d).toNat
  if (pairGet x.ctxs d).isNone || x.syncDue.contains d || decide (interval ≤ old) || decide (2 ^ 36 ≤ adv) then some (s.sync k d seg false, afterSync k d)
  else if x.cur ≠ some d then some (clockRec d, fun t => t.modStream k (fun y => { y with cur := some d }))
  else none

/-- The CLOCK that makes a clock current without a SYNC that is due by interval. -/
def needClock (k d : Nat) (s : State) : Option (Rec × (State → State)) :=
  if (s.stream k).cur ≠ some d then some (clockRec d, fun t => t.modStream k (fun y => { y with cur := some d })) else none

/-- The DELTA, or for a very long advance the SYNC, before a record whose field cannot carry the advance (R184). -/
def needDelta (k d seg bits : Nat) (s : State) : Option (Rec × (State → State)) :=
  let x := s.stream k
  let stamp := ((x.latestOf d).map Prod.fst).getD 0#40
  let adv := (stamp - x.ctxOf d).toNat
  if adv < 2 ^ bits then none
  else if adv < 2 ^ 36 then some (deltaRec adv, setCtx k d stamp)
  else some (s.sync k d seg false, afterSync k d)

/-- The advance a record carries, and the context after it. -/
def advanceOf (k d : Nat) (s : State) : Nat :=
  let x := s.stream k
  ((((x.latestOf d).map Prod.fst).getD 0#40) - x.ctxOf d).toNat
def ctxNow (k d : Nat) (s : State) : State := setCtx k d ((((s.stream k).latestOf d).map Prod.fst).getD 0#40) s

/-- The FULL records of a clock's snapshot (R188). -/
def snapRuns (k d : Nat) (s : State) : List (Nat × List W40) × State :=
  let r := groupValues k ((s.stream k).groupsOf d) s
  (runsFwd r.1, r.2)

/-- The data record of a run (R187). -/
def dataRec (full : Bool) (g : Nat) (vals : List W40) (delta : Nat) : Rec :=
  if full then .vec recFull g delta vals
  else
    match vals with
    | [v] => changeRec g delta v
    | _ => .vec recRun g delta vals

/-- The width of a data record's `DELTA`. -/
def dataBits (full : Bool) (vals : List W40) : Nat := if !full && decide (vals.length = 1) then 20 else 12

/-- The records that write one data record of a clock: a CLOCK and a DELTA where they are needed, then it. -/
def dataRecs (k d seg : Nat) (full : Bool) (g : Nat) (vals : List W40) : List (State → Option (Rec × (State → State))) :=
  [needClock k d, needDelta k d seg (dataBits full vals), fun s => some (dataRec full g vals (advanceOf k d s), ctxNow k d)]

/-- The records of one item of a row of clock `dr`. -/
def itemRecs (k dr seg interval : Nat) (it : Item) : List (State → Option (Rec × (State → State))) :=
  match it with
  | .gap d c n m => [fun _ => some (gapRec d c n m, id)]
  | .resync d => [fun s => some (s.sync k d seg false, afterSync k d)]
  | .snap d g vals => dataRecs k d seg true g vals
  | .ctx d => [needCtx k d seg interval]
  | .data d full g vals => dataRecs k d seg full g vals
  | .event e =>
    [needCtx k dr seg interval, needDelta k dr seg 21, fun s => some (eventRec e (advanceOf k dr s), ctxNow k dr)]
  | .ending reason => [fun _ => some (endRec reason, id)]

/-- What a stopped writing leaves: the state before it, but for a request that was given no cell (R298): one that an allocator round has
refused is counted already, and is over. -/
def undo (k cause : Nat) (s : State) : State :=
  if cause ≠ 1 then s
  else if (s.stream k).refused then s.modStream k (fun x => { x with refused := false })
  else refusedCell (some (k / 16)) s

/-- The groups of the first run of some (R187). -/
def firstRun (gs : List Nat) : List Nat := gs.take ((((runsFwd (gs.map (fun g => (g, 0#40)))).head?).map (fun p => p.2.length)).getD 0)

/-- The next record of what is left of an ingot's start block (R196, R202), and what it leaves; none when nothing is left or a clock is
through. -/
def startRecs (k seg : Nat) (s : State) : List (State → Option (Rec × (State → State))) × State :=
  let x := s.stream k
  if x.resetGap then
    ([fun _ => some (gapRec 0 5 (2 ^ 40 - 1) (2 ^ 40 - 1), fun u => u.modStream k (fun y => { y with resetGap := false }))], s)
  else
    match x.starts with
    | [] => ([], s)
    | d :: rest =>
      match x.startAt with
      | none =>
        ([fun t => some (t.sync k d seg true, fun u => (afterSync k d u).modStream k (fun y =>
          if (y.latestOf d).isNone then { y with starts := rest } else { y with startAt := some 0 }))], s)
      | some i =>
        let gs := firstRun ((x.groupsOf d).drop i)
        if gs.isEmpty then
          ([], s.modStream k (fun y => { y with starts := rest, startAt := none, snapDue := y.snapDue.filter (fun c => !decide (c = d)) }))
        else
          let r := groupValues k gs s
          (dataRecs k d seg true (gs.headD 0) (r.1.map Prod.snd),
            r.2.modStream k (fun y => { y with startAt := some (i + gs.length) }))

/-- What is left of an ingot's start block is written; a record that is stopped leaves the rest for later. `n` bounds the records. -/
def writeStarts (k seg : Nat) : Nat → State → Put
  | 0, s => (s, none)
  | n + 1, s =>
    if !(s.stream k).resetGap && (s.stream k).starts.isEmpty then (s, none)
    else
      let r := startRecs k seg s
      match tryAll k r.1 r.2 with
      | (some (t, none), _) => writeStarts k seg n t
      | (some (_, some c), _) => (undo k c s, some c)
      | (none, _) => (s, none)

/-- The bound on the records of a start block. -/
def State.startBound (s : State) (k : Nat) : Nat := (s.stream k).groups.length + 3 * (s.stream k).clocks.length + 2

/-- A new ingot begins: the old one's cell is filled up and committed, its other cells stay unused (R195), an ingot is chosen, and the SYNCs
and snapshots of the active clocks are its first records (R196); before them stands the GAP of R202. A stream that was left without an
ingot under `END` gets none until the segment closes (R177). -/
def startIngot (k seg : Nat) (keep : Option Int) (s : State) : Put :=
  if (s.stream k).noIngot then (s, some 3) else
  let s1 := leaveIngot k (padCell k s)
  let c := chooseIngot k keep (((s1.dir (k / 16)).flatMap (fun e => e.holds)).length + 1) s1
  match c.1 with
  | none => (c.2, some 3)
  | some pos =>
    let t := openIngot k pos seg c.2
    writeStarts k seg (t.startBound k) t

/-- The current ingot holds rows from lo to hi. -/
def noteSpan (k : Nat) (t : Int) (s : State) : State :=
  match (s.stream k).ingot with
  | none => s
  | some pos =>
    s.modStream k (fun x =>
      match x.spanOf pos with
      | none => { x with spans := x.spans ++ [{ pos := pos, lo := t, hi := t }] }
      | some q => { x with spans := x.spans.map (fun p => if p.pos = pos then { p with lo := min q.lo t, hi := max q.hi t } else p) })

/-- What stopped the writing of a row's items: the ingot is full, or the row is lost with a cause. -/
inductive Stop where
  | full
  | lost (cause : Nat)
  deriving DecidableEq, Repr

/-- The items of a row are written in order to the current ingot. The answer names what was not written, and what stopped it. -/
def writeHere (k : Nat) (pr : PlanRow) (interval : Nat) : List Item → State → List Item × State × Option Stop
  | [], s => ([], s, none)
  | it :: rest, s =>
    match tryAll k (itemRecs k pr.row.dclk pr.segment interval it) s with
    | (some (t, none), _) => writeHere k pr interval rest t
    | (some (t, some c), _) => (it :: rest, t, some (.lost c))
    | (none, t) => (it :: rest, t, some .full)

/-- The items of a row are written, over a new ingot where one is needed, whose snapshots cover the row's remaining data (R196); `n` bounds
the number of ingots. -/
def writeItems (k : Nat) (pr : PlanRow) (interval : Nat) : Nat → List Item → State → Put
  | 0, _, s => (s, none)
  | n + 1, its, s =>
    let r := writeHere k pr interval its s
    match r.2.2 with
    | none => (noteSpan k pr.row.time r.2.1, none)
    | some (.lost c) => (r.2.1, some c)
    | some .full =>
      let t := if r.1.length < its.length then noteSpan k pr.row.time r.2.1 else r.2.1
      (startIngot k pr.segment pr.keepFrom t).andThen (fun u => writeItems k pr interval n (afterIngot false r.1) u)

/-- Whether a stream has left an ingot on the way from one state to another, or has none. -/
def leftIngot (k : Nat) (s t : State) : Bool := (t.stream k).ingot.isNone || decide ((t.stream k).fillSeq ≠ (s.stream k).fillSeq)

/-- A row's items are placed as a whole or not at all (R197, log entry 146): where they are stopped, only the new ingot stays that the row
had to begin, with its start block as far as it came (R195, R196). What an earlier start block still lacks comes first. -/
def placeRow (k : Nat) (pr : PlanRow) (interval : Nat) (its : List Item) (s0 : State) : Put :=
  if its.isEmpty then (s0, none)
  else
    (writeStarts k pr.segment (s0.startBound k) s0).andThen (fun s =>
      let r := writeItems k pr interval 4 its s
      match r.2 with
      | none => r
      | some c =>
        if leftIngot k s r.1 then
          let u := startIngot k pr.segment pr.keepFrom s
          (if u.2.isNone then undo k c u.1 else u.1, some c)
        else (undo k c s, some c))

/-! ## A row in a stream -/

/-- The words a row, as its bench has it, brings to a stream: each group of the row's clock with the word received, none where it is
missing, held (R75), or not delivered to the tile (R77). -/
def rowWords (k : Nat) (r : Row) (s : State) : List (Nat × Option W40) :=
  ((s.stream k).groupsOf r.dclk).map (fun g =>
    match r.words.find? (fun w => decide (w.group = g)) with
    | none => (g, none)
    | some w => (g, if r.off.contains (k % 16) then none else w.word))

/-- The groups that changed on the row (R163). -/
def changedOf (x : Stream) (ws : List (Nat × Option W40)) : List (Nat × W40) :=
  ws.filterMap (fun p =>
    match p.2 with
    | none => none
    | some w => if pairGet x.recv p.1 = some w then none else some (p.1, w))

/-- One word, where received, replaces the group's last one. -/
def keepWord (l : List (Nat × W40)) (p : Nat × Option W40) : List (Nat × W40) :=
  match p.2 with
  | none => l
  | some w => pairSet l p.1 w

/-- The words received are kept. -/
def keepWords (k : Nat) (ws : List (Nat × Option W40)) (s : State) : State :=
  s.modStream k (fun x => { x with recv := ws.foldl keepWord x.recv })

/-- A row lost with a cause is added to the gap of its clock (R199): a part grows while its cause stays. -/
def addGap (gs : List Gap) (d cause : Nat) (st : W40) : List Gap :=
  match (gs.reverse.find? (fun g => decide (g.dclk = d))) with
  | none => gs ++ [{ dclk := d, cause := cause, first := st, last := st, rows := 1 }]
  | some g =>
    if g.cause = cause then
      gs.map (fun h => if h = g then { h with last := st, rows := h.rows + 1 } else h)
    else gs ++ [{ dclk := d, cause := cause, first := st, last := st, rows := 1 }]

/-- A segment loses a row: its entry shows `GAPPED`, a written one too (R198). -/
def noteGapped (b seg : Nat) (s : State) : State :=
  noteSeg s b (s.modBench b (fun y =>
    let e := Tab.get (fun _ => {}) y.segs seg
    { y with gapped := addNew y.gapped seg,
             segs := if bit e.w3 54 then Tab.set (fun _ => {}) y.segs seg { e with w3 := setBit e.w3 52 true } else y.segs }))

/-- The stream loses a row (R197, R198), with so many EVENT records: all of the row's. -/
def loseRow (k : Nat) (pr : PlanRow) (cause events : Nat) (s : State) : State :=
  let d := pr.row.dclk
  let s1 := s.count O.STREAM_EVENTS_LOST k events
  if pr.stored then
    noteGapped (k / 16) pr.segment ((s1.inc O.STREAM_ROWS_LOST k).modStream k (fun x =>
      { x with gaps := addGap x.gaps d cause pr.row.stamp, snapDue := addNew x.snapDue d, syncDue := addNew x.syncDue d }))
  else s1

/-- A lane-loss gap of the row's clock begins or goes on: some group of it is missing or held (R200). -/
def growLaneGap (k : Nat) (r : Row) (missing : List Nat) (s : State) : State :=
  s.modStream k (fun x =>
    match x.laneGaps.find? (fun g => decide (g.dclk = r.dclk)) with
    | none => { x with laneGaps := x.laneGaps ++ [{ dclk := r.dclk, first := r.stamp, last := r.stamp, rows := 1, groups := missing }] }
    | some g => { x with laneGaps := x.laneGaps.map (fun h =>
        if h.dclk = r.dclk then { h with last := r.stamp, rows := g.rows + 1, groups := missing.foldl addNew g.groups } else h) })

/-- The lane-loss gaps that end on a row: that of its clock when every group is received, and all on the segment's closing row
(R200). -/
def endedGaps (x : Stream) (pr : PlanRow) (anyMissing : Bool) : List LaneGap :=
  x.laneGaps.filter (fun g => pr.closes.isSome || (decide (g.dclk = pr.row.dclk) && !anyMissing))

/-- Whether the bench writes every group of a stored row (R164). -/
def State.fullMode (s : State) (k : Nat) : Bool := decide (s.elN O.STORE_MODE (k / 16) = 1)

/-- Runs of groups as data items. -/
def dataOf (d : Nat) (full : Bool) (l : List (Nat × W40)) : List Item := (runsFwd l).map (fun p => Item.data d full p.1 p.2)

/-- The items of a stored row's data: a snapshot where one is due, every group in `FULL`, else the changed groups and those
whose values a lane-loss gap hid (R187, R188, R201). -/
def dataItems (k : Nat) (pr : PlanRow) (changed : List (Nat × W40)) (hidden : List Nat) (s : State) : List Item × State :=
  let x := s.stream k
  let d := pr.row.dclk
  let all := x.snapDue.contains d || s.fullMode k
  let gs := if all then x.groupsOf d else (x.groupsOf d).filter (fun g => changed.any (fun p => decide (p.1 = g)) || hidden.contains g)
  let r := groupValues k gs s
  (dataOf d all r.1, r.2)

/-- The items of a lane-loss gap that has ended, on a stored row: its GAP, and for a clock other than the row's the words of its groups. -/
def laneGapItems (k dr : Nat) (g : LaneGap) (s : State) : List Item × State :=
  let gap := Item.gap g.dclk 2 g.rows (cyclesSpan g.first g.last)
  if g.dclk = dr then ([gap], s)
  else
    let r := groupValues k (((s.stream k).groupsOf g.dclk).filter (fun h => g.groups.contains h)) s
    (gap :: dataOf g.dclk (s.fullMode k) r.1, r.2)

/-- The items of a gap of lost rows (R199): its GAP, and the SYNC and snapshot of its clock. -/
def lostGapItems (k : Nat) (g : Gap) (s : State) : List Item × State :=
  let r := snapRuns k g.dclk s
  (.gap g.dclk g.cause g.rows (cyclesSpan g.first g.last) :: .resync g.dclk :: r.1.map (fun p => Item.snap g.dclk p.1 p.2), r.2)

/-- Items of a list of things, in order. -/
def gather {α : Type} (f : α → State → List Item × State) : List α → State → List Item × State
  | [], s => ([], s)
  | a :: t, s =>
    let x := f a s
    let y := gather f t x.2
    (x.1 ++ y.1, y.2)

/-- The events of a row that go to one stream. -/
def eventsFor (k : Nat) (es : List Event) : List Event :=
  es.filter (fun e => match e.tile with | none => true | some t => decide (t = k % 16))

/-- The end of a row's writing: the row is lost with all its events where it was stopped (R197, R198); what was due of GAPs is written, and
of a stored row its snapshot. -/
def finishRow (k : Nat) (pr : PlanRow) (evs : List Event) (r : Put) : State :=
  match r.2 with
  | none => r.1.modStream k (fun x =>
      if pr.stored then
        { x with gaps := [], doneGaps := [],
                 snapDue := x.snapDue.filter (fun e => !decide (e = pr.row.dclk) && !x.gaps.any (fun g => decide (g.dclk = e))) }
      else { x with doneGaps := [] })
  | some cause => loseRow k pr cause evs.length r.1

/-- A stored row: the GAPs due, the row's context, its data, its events (R185). The snapshot after a GAP of the row's own clock stands
for its data (R188). -/
def storedRow (k : Nat) (pr : PlanRow) (changed : List (Nat × W40)) (evs : List Event) (s : State) : State :=
  let d := pr.row.dclk
  let x := s.stream k
  let hidden := (x.doneGaps.filter (fun g => decide (g.dclk = d))).flatMap (fun g => g.groups)
  let a := gather (lostGapItems k) x.gaps s
  let l := gather (laneGapItems k d) x.doneGaps a.2
  let c := if x.gaps.any (fun g => decide (g.dclk = d)) then ([], l.2) else dataItems k pr changed hidden l.2
  finishRow k pr evs (placeRow k pr pr.sync (a.1 ++ l.1 ++ [Item.ctx d] ++ c.1 ++ evs.map Item.event) c.2)

/-- A row that is not stored: its events are written (R168, R185), and the GAPs of the lane-loss gaps that end on it (R201, log entry
145). -/
def unstoredRow (k : Nat) (pr : PlanRow) (evs : List Event) (s : State) : State :=
  let gs := (s.stream k).doneGaps.map (fun g => Item.gap g.dclk 2 g.rows (cyclesSpan g.first g.last))
  finishRow k pr evs (placeRow k pr pr.sync (gs ++ evs.map Item.event) s)

/-- The lane-loss gaps of a stream after a row: those that end on it wait to be written (R200, R201). -/
def laneGapsOn (k : Nat) (pr : PlanRow) (missing : List Nat) (off : Bool) (s : State) : State :=
  let s1 := if missing.isEmpty || off then s else growLaneGap k pr.row missing s
  let ended := endedGaps (s1.stream k) pr (!missing.isEmpty)
  s1.modStream k (fun x => { x with laneGaps := x.laneGaps.filter (fun g => !ended.contains g), doneGaps := x.doneGaps ++ ended })

/-- The stream reaches a row: its clock's latest one, of a segment. -/
def reachRow (k : Nat) (pr : PlanRow) (s : State) : State :=
  s.modStream k (fun x => { x with latest := pairSet x.latest pr.row.dclk (pr.row.stamp, pr.row.time), seg := pr.segment })

/-- A row of a clock the stream has no groups and no step clock of: its events are written behind a SYNC of that clock (R208), and before
them the GAPs of the lane-loss gaps that end on it as the closing row (R200, R201). -/
def foreignRow (k : Nat) (pr : PlanRow) (evs : List Event) (s0 : State) : State :=
  let s := laneGapsOn k pr [] false (reachRow k pr s0)
  if pr.stored then
    let l := gather (laneGapItems k pr.row.dclk) (s.stream k).doneGaps s
    finishRow k { pr with stored := false } evs (placeRow k pr pr.sync (l.1 ++ evs.map Item.event) l.2)
  else unstoredRow k pr evs s

/-- A row in one open stream (R163, R185, R197-R201). -/
def streamRow (k : Nat) (pr : PlanRow) (es : List Event) (s : State) : State :=
  let x0 := s.stream k
  let evs := eventsFor k es
  let d := pr.row.dclk
  if !x0.open_ then s
  else if !x0.clocks.contains d then
    if evs.isEmpty then s else foreignRow k pr evs s
  else
    let s1 := reachRow k pr s
    let ws := rowWords k pr.row s1
    let off := pr.row.off.contains (k % 16) && !ws.isEmpty
    let g := laneGapsOn k pr ((ws.filter (fun p => p.2.isNone)).map Prod.fst) off (keepWords k ws s1)
    if pr.stored then (if off then loseRow k pr 4 evs.length g else storedRow k pr (changedOf x0 ws) evs g)
    else unstoredRow k pr evs (g.modStream k (fun x => { x with snapDue := addNew x.snapDue d }))

/-! ## END and the closing of streams (R179, R180, R203) -/

/-- A row that is not there: where END and late events are written, at the clock's latest row. -/
def endRow (d : Nat) (st : W40) (t : Int) (seg : Nat) (lead : Nat × Nat) : PlanRow :=
  { row := { design := 0#64, dclk := d, stamp := st, time := t, incomplete := false, words := [] }, stored := false, opens := false,
    gateOpens := false, snap := false, closes := none, segment := seg, keepFrom := none, events := [], lead := lead, last := none }

/-- A stream writes END with a reason and closes (R179, R180). -/
def endStream (k reason : Nat) (pr : PlanRow) (s : State) : State :=
  if (s.stream k).open_ then
    let r := placeRow k pr (2 ^ 40) [Item.ending reason] s
    (r.1.modStream k (fun x => { x with open_ := false })).setEl O.STREAM_STATUS k (setBit (r.1.el O.STREAM_STATUS k) 0 false)
  else s

/-- The streams of a bench. -/
def streamsOf (b : Nat) : List Nat := (List.range 16).map (fun t => 16 * b + t)

/-- The open cells of a stream are filled with PAD and committed (R203, R204, R206). -/
def closeCell (k : Nat) (s : State) : State := padCell k s

/-! ## Closing a segment (R175-R178, R181) -/

/-- The words of an entry (Table 5.2): `lost` is the highest row time no stream holds any more. -/
def segEntry (c : Closing) (reason : Nat) (gapped : Bool) (lost : Option Int) : SegEntry :=
  let short := match c.trig, lost with
    | some _, some t => decide (c.startTime ≤ t)
    | _, _ => false
  let start := if short then
      match c.rows.find? (fun p => match lost with | none => true | some t => decide (t < p.2)) with
      | none => c.stamp
      | some p => p.1
    else c.start
  let w3 := c.stamp.setWidth 64 ||| put c.dclk 40 ||| put reason 48 ||| put c.trig.isSome.toNat 51 ||| put gapped.toNat 52
    ||| put 1 54
  match c.trig with
  | none => { w0 := 0#64, w1 := 0#64, w2 := 0#64, w3 := w3 }
  | some a =>
    { w0 := a.stamp.setWidth 64 ||| put a.dclk 40 ||| put a.sq 48,
      w1 := c.point.setWidth 64 ||| put (c.resolved.getD 0) 40 ||| put (c.resolved.isSome && !decide (c.point = a.stamp)).toNat 44,
      w2 := start.setWidth 64 ||| put short.toNat 40,
      w3 := w3 }

/-- The ingots of a stream that hold a row from the pre-trigger start on are sealed to the segment, beside the segments they are sealed to
already (R176). -/
def sealStream (k seg : Nat) (start : Int) (s : State) : State :=
  ((s.stream k).spans.filter (fun q => decide (start ≤ q.hi))).foldl (fun t q =>
    let e := t.dirAt (k / 16) q.pos
    t.setDirAt (k / 16) q.pos { e with sealed_ := true, holds := addNew e.holds seg, segment := seg, state := if e.state = 4 then 4 else 3 }) s

/-- The entry of a segment is written. -/
def writeEntry (b seg : Nat) (e : SegEntry) (s : State) : State :=
  noteSeg s b (s.modBench b (fun x => { x with segs := Tab.set (fun _ => {}) x.segs seg e }))

/-- SEGMENT_CLOSE: the entry, and the ingots of a triggered segment sealed; a stream without an ingot may look for one again (R177). -/
def segmentClose (b seg : Nat) (c : Closing) (reason : Nat) (s : State) : State :=
  let e := segEntry c reason ((s.bench b).gapped.contains seg) (s.lostTo b)
  let s1 := writeEntry b seg e s
  let s2 := if c.trig.isSome then (streamsOf b).foldl (fun t k => sealStream k seg c.startTime t) s1 else s1
  (streamsOf b).foldl (fun t k => t.modStream k (fun x => { x with noIngot := false })) s2

/-- The events of segment boundaries on a row (Table 5.4). `GAPPED` of SEGMENT_END counts the losses before the row is written in any
stream (DESIGN CHOICE, log entry 165). -/
def boundaryEvents (b : Nat) (pr : PlanRow) (reason : Nat) (s : State) : List Event :=
  (if pr.opens then
    [{ kind := 4, sq := pr.lead.1, level := pr.lead.2, arg := put40 pr.segment 24 ||| put40 pr.gateOpens.toNat 0, tile := none,
       rank := 2 }]
   else []) ++
  (if pr.closes.isSome then
    [{ kind := 5, sq := pr.lead.1, level := pr.lead.2,
       arg := put40 pr.segment 24 ||| put40 reason 0 ||| put40 ((s.bench b).gapped.contains pr.segment).toNat 3, tile := none,
       rank := 5 }]
   else [])

/-- The bench's acquisition ends for want of ingots after the segment that met it (R177); the rows of the closing row's time are still
recorded, and END follows the last of them (R172, R179). -/
def endForSpace (b seg : Nat) (pr : PlanRow) (s : State) : State :=
  let s1 := ((s.setTrigState b .ended).setN O.ACQ_END_CAUSE b endSpace).setN O.SEG_INDEX b (seg + 1)
  let same := (s.bench b).plan.takeWhile (fun p => decide (p.row.time = pr.row.time))
  let s2 := s1.modBench b (fun x => { x with plan := markLast same, undecided := [], seg := { x.seg with open_ := false } })
  if same.isEmpty then (streamsOf b).foldl (fun t k => endStream k 1 pr t) s2 else s2

/-- A snapshot of every clock of a stream's groups is due (R188). -/
def snapAll (k : Nat) (s : State) : State :=
  s.modStream k (fun x => if x.open_ then { x with snapDue := (x.clocks.filter (fun d => !(x.groupsOf d).isEmpty)).foldl addNew x.snapDue }
    else x)

/-- One row of a bench in all its streams, with the segment boundaries on it and the events that no decision raised (R507); an
acquisition that ends for want of ingots has no hold-off (R144, R177). -/
def planRow (b : Nat) (pr : PlanRow) (s : State) : State :=
  let async := (s.bench b).events
  let s1 := s.modBench b (fun x => { x with events := [] })
  let endSpaceNow := pr.closes.isSome && (s.seg b).endAfter
  let reason := if endSpaceNow then 4 else (pr.closes.map (fun c => c.reason)).getD 0
  let own := if endSpaceNow then pr.events.filter (fun e => !decide (e.kind = 7)) else pr.events
  let es := sortEvents (async ++ own ++ boundaryEvents b pr reason s1)
  let s2 := (streamsOf b).foldl (fun t k => streamRow k pr es (if pr.snap then snapAll k t else t)) s1
  let s3 := match pr.closes with
    | none => s2
    | some c => segmentClose b pr.segment c reason s2
  if endSpaceNow then endForSpace b pr.segment pr s3
  else
    match pr.last with
    | none => s3
    | some reason => (streamsOf b).foldl (fun t k => endStream k reason pr t) s3

/-- The oldest row that waits for the planisher is recorded. -/
def planNext (b : Nat) (s : State) : State :=
  match (s.bench b).plan with
  | [] => s
  | pr :: rest => planRow b pr (s.modBench b (fun x => { x with plan := rest }))

/-- PLANISHER_ROW (R185). -/
def execPlanisherRow (b : Fin 1024) (s : State) : Host.Outcome State Fault Refusal := .next (planNext b.val s)

/-- Every row that waits is recorded; `n` bounds their number. -/
def planAll (b : Nat) : Nat → State → State
  | 0, s => s
  | n + 1, s => if (s.bench b).plan.isEmpty then s else planAll b n (planNext b s)

end Sys2Proof.Machine
end

