-- ==== Sys2Proof/Machine/Journal.lean ====
section
/-! DEFINITION. The flash journal at work (R477-R479): content programs, seal programs, and what a `SAFE` trigger leaves of them
(R476). -/

namespace Sys2Proof.Machine

/-- `FW_STATE` values (R481, R488): 0 `IDLE`, 1 `RECEIVING`, 2 `VERIFYING`, 3 `READY`, 4 `FAILED`. -/
def fwIdle : Nat := 0
def fwReceiving : Nat := 1
def fwVerifying : Nat := 2
def fwReady : Nat := 3
def fwFailed : Nat := 4

/-- What the journal holds once an entry is sealed. -/
def sealedFlash (e : JEntry) (f : Flash) : Flash :=
  match e with
  | .protection set => { f with prot := set }
  | .propReserve n => { f with propReserved := n }
  | .checkpoint src tgt chunks => { f with mig := some (src, tgt, chunks) }
  | .settings spare subsys => { f with spare := spare, subsys := subsys }
  | .activeSlot k => { f with active := k }
  | .fatal w => { f with fatal := w }

/-- `MIG_STATUS` follows the migration (R351). -/
def refreshMig (s : State) : State :=
  match s.mig with
  | none => s.setEl O.MIG_STATUS 0 0#64
  | some m =>
    s.setEl O.MIG_STATUS 0 (put (m.src % 32) 0 ||| put (m.tgt % 32) 5 ||| put (m.chunks % 256) 10 ||| put (m.sealedChunks % 256) 18
      ||| put (if m.done then 3 else if m.held && !s.mode.migrating then 2 else 1) 26 ||| put m.resumed.toNat 28)

/-- A checkpoint is sealed: when the copy has crossed further boundaries meanwhile, the next checkpoint carries the latest (R347). -/
def checkpointSealed (src tgt chunks : Nat) (s : State) : State :=
  match s.mig with
  | none => s
  | some m =>
    if m.src = src && decide (m.tgt = tgt) then
      let s1 := refreshMig { s with mig := some { m with sealedChunks := chunks } }
      if chunks < m.chunks then journalAdd (.checkpoint src tgt m.chunks) s1 else s1
    else s

/-- A slot's mark and image take values. -/
def Firmware.withSlot (x : Firmware) (k : Nat) (valid : Bool) (image : List (Nat × List W64)) : Firmware :=
  if k = 0 then { x with valid0 := valid, image0 := image } else { x with valid1 := valid, image1 := image }

/-- The pages written to a slot. -/
def Firmware.image (x : Firmware) (k : Nat) : List (Nat × List W64) := if k = 0 then x.image0 else x.image1

/-- What an entry's seal means to the module at once: reserved proposal numbers (R479), the slot that is active, valid from here on
(R482), and an update that is `READY` (R481), the migration's checkpoint. -/
def sealEffect (e : JEntry) (s : State) : State :=
  match e with
  | .propReserve n => { s with propReserved := n }
  | .activeSlot k =>
    let s1 := ({ s with fw := s.fw.withSlot k true (s.fw.image k) }).setN O.FW_ACTIVE 0 k
    if s1.elN O.FW_STATE 0 = fwVerifying then s1.setN O.FW_STATE 0 fwReady else s1
  | .checkpoint src tgt chunks => checkpointSealed src tgt chunks s
  | _ => s

/-- The first entry is sealed; `JOURNAL_STATE` counts it. -/
def sealFirst (s : State) : State :=
  match s.journal.pending with
  | [] => s
  | e :: rest =>
    let s1 : State := { s with flash := sealedFlash e s.flash, journal := { s.journal with pending := rest, content := false } }
    let w := s1.el O.JOURNAL_STATE 0
    refreshJournal (sealEffect e (s1.setEl O.JOURNAL_STATE 0 (setFld w 47 16 ((fld w 47 16 + 1) % 2 ^ 32))))

/-- Every entry requested so far is sealed, in order; `n` bounds their number. -/
def sealAll : Nat → State → State
  | 0, s => s
  | n + 1, s => if s.journal.pending.isEmpty then s else sealAll n (sealFirst s)

/-- The program in progress is over and no further one starts: a `SAFE` trigger that waited for it takes effect (R476). -/
def programOver (s : State) : State := if s.health.safePend && s.fw.page.isNone then enterSafe s else s

/-- The seal program of the entry in hand completes; the next entry starts unless no new program may start. -/
def journalSealed (s : State) : State :=
  if s.journal.pending.isEmpty || (s.journal.blocked && !s.journal.content) then s
  else
    let t := sealFirst s
    programOver (if t.journal.blocked then { t with journal := { t.journal with stopped := true } } else t)

/-- JOURNAL_ENTRY_SEALED. -/
def execJournalEntrySealed (s : State) : Host.Outcome State Fault Refusal := .next (journalSealed s)

/-- A program that met a bad block is recorded as `FLASH_ERROR`; the block is retired and the journal continues (Table 13.7). -/
def blockRetired (bad : Bool) (s : State) : State := if bad then raiseError 0xB1 1 11 noUnit 0xFFFF 0#64 s else s

/-- A content program of the entry in hand completes. How many an entry takes is left open: a free value says whether it was the last,
and whether the program met a block that had to be retired. After the last the seal follows; after another one the next content
program starts, unless no new program may start. -/
def contentProgram (s : State) : State :=
  if s.journal.pending.isEmpty || s.journal.content || s.journal.stopped then s
  else
    let last := bit s.freeNext 0
    let s1 := blockRetired (bit s.freeNext 1) s.drawn
    if last then { s1 with journal := { s1.journal with content := true } }
    else if s1.journal.blocked then programOver { s1 with journal := { s1.journal with stopped := true } }
    else s1

/-- FLASH_PROGRAM_COMPLETE. -/
def execFlashProgramComplete (s : State) : Host.Outcome State Fault Refusal := .next (contentProgram s)

end Sys2Proof.Machine
end

