-- ==== Sys2Proof/Machine/Ranks.lean ====
section
/-! DEFINITION. The ranks of the capture store (09_capture_store.md): their states and the candidate order (R313, R314), the state the
store shows (R508), retirement and migration (R342-R350), and their commands. -/

namespace Sys2Proof.Machine

/-! ## Rank states (Table 9.2) -/

/-- Values of `RANK_STATE`. -/
def rankInService : Nat := 0
def rankSpare : Nat := 1
def rankRetiring : Nat := 2
def rankFilling : Nat := 3
def rankRetired : Nat := 4
def rankParked : Nat := 5

/-- The candidate order of R314: k descending from 3 to 0, within one k the stacks 7, 3, 5, 1, 6, 2, 4, 0. -/
def candidates : List Nat :=
  [31, 15, 23, 7, 27, 11, 19, 3, 30, 14, 22, 6, 26, 10, 18, 2, 29, 13, 21, 5, 25, 9, 17, 1, 28, 12, 20, 4, 24, 8, 16, 0]

/-- The state of a rank. -/
def State.rankState (s : State) (r : Nat) : Nat := s.elN O.RANK_STATE r

/-- The first `SPARE` rank in the candidate order. -/
def State.firstSpare (s : State) : Option Nat := candidates.find? (fun r => decide (s.rankState r = rankSpare))

/-- The ranks that are powered: `IN_SERVICE`, `SPARE`, `RETIRING` or `FILLING`. -/
def State.poweredRanks (s : State) : List Nat := (List.range 32).filter (fun r => decide (s.rankState r < rankRetired))

/-- `TRACE_INGOTS` for a number of ranks in service (R315). -/
def traceIngots (inService : Nat) : Nat := inService * 12288 - 8192

/-! ## What the store shows (R508) -/

/-- Whether the controller of a rank's stack is frozen (Table 9.7). -/
def State.frozenAt (s : State) (r : Nat) : Bool := s.frozen.contains (r / 4)

/-- `STORE_STATE`: 0 `UNCALIBRATED`, 1 `READY`, 2 `SELF_REFRESH`, 3 `SPEED_CHANGE`, 4 `FROZEN`. -/
def State.storeShown (s : State) : Nat :=
  if !s.calibrated then 0
  else if !s.frozen.isEmpty then 4
  else if s.speedChange then 3
  else if s.poweredRanks.all (fun r => (s.rank r).selfRef) then 2
  else 1

/-- `STORE_STATE` follows. -/
def refreshStore (s : State) : State := s.setN O.STORE_STATE 0 s.storeShown

/-- Whether background jobs have stopped: `SAFE` or `RECOVERY` is set (R461). -/
def State.jobsStopped (s : State) : Bool := s.mode.safe || s.mode.recovery.isSome

/-- Whether the controllers take requests at all: calibrated, and no speed change (R334, R335). -/
def State.storeTakes (s : State) : Bool := s.calibrated && !s.speedChange

/-! ## Migration (R342-R347, R350) -/

/-- A migration runs or is held: one whose copy is not complete. -/
def State.migrates (s : State) : Bool := (s.mig.map (fun m => !m.done)).getD false

/-- A rank migration begins: states, progress map, `MIGRATING`, and a background job (R342, R344). -/
def startMig (src tgt : Nat) (s : State) : State :=
  let s1 := (s.setN O.RANK_STATE src rankRetiring).setN O.RANK_STATE tgt rankFilling
  let s2 := s1.setRank src { s1.rank src with retireDue := false }
  let m : Mig := { src := src, tgt := tgt, chunks := 0, sealedChunks := 0, held := false, done := false, resumed := false }
  let s3 : State := { s2 with mig := some m }
  refreshMig (toService (s3.setMode { s3.mode with migrating := true }))

/-- No rank is `SPARE`: the rank stays `IN_SERVICE`, and the module is `DEGRADED` with cause `NO_SPARE` (R343). -/
def noSpare (r : Nat) (s : State) : State :=
  let s1 := (s.setN O.RANK_STATE r rankInService).setRank r { s.rank r with retireDue := false }
  raiseError 0x64 2 6 r 0xFFFF 0#64 (s1.setMode { s1.mode with noSpare := true })

/-- A retirement starts: onto the first spare, or not at all where there is none. -/
def beginRetire (r : Nat) (s : State) : State :=
  match s.firstSpare with
  | some t => startMig r t s
  | none => noSpare r s

/-- The target of a migration is retired: the copy starts again onto the next spare, or R343 applies (R347); while background jobs have
stopped the source is in service again, and its retirement waits (R341, R461; DESIGN CHOICE, log entry 170). -/
def targetLost (m : Mig) (s : State) : State :=
  let s1 : State := { s.setN O.RANK_STATE m.tgt rankRetired with mig := none }
  let s2 := s1.setRank m.tgt { s1.rank m.tgt with retireDue := false }
  let s3 := refreshMig (s2.setMode { s2.mode with migrating := false, rankRetired := true })
  if s3.jobsStopped then (s3.setN O.RANK_STATE m.src rankInService).setRank m.src { s3.rank m.src with retireDue := true }
  else beginRetire m.src s3

/-- What waited for its retirement is retired: the target of a running migration, else, where none runs, the lowest such rank in service;
nothing while background jobs have stopped (R341, R343, R461). -/
def nextRetire (s : State) : State :=
  if s.jobsStopped then s
  else
    match s.mig.filter (fun m => !m.done) with
    | some m => if (s.rank m.tgt).retireDue then targetLost m s else s
    | none =>
      match (List.range 32).find? (fun r => (s.rank r).retireDue && decide (s.rankState r = rankInService)) with
      | none => s
      | some r => beginRetire r s

/-- Whether a rank is the target of a migration that is not complete. -/
def State.isTarget (s : State) (r : Nat) : Bool := (s.mig.map (fun m => !m.done && decide (m.tgt = r))).getD false

/-- A rank is to be retired (R342, R343): at once, or when a running migration completes or `SAFE` is left; a rank that is the target
of a migration ends it; a rank out of service is not retired again. -/
def retireRank (r : Nat) (s : State) : State :=
  if s.isTarget r || decide (s.rankState r = rankInService) then nextRetire (s.setRank r { s.rank r with retireDue := true }) else s

/-- The last chunk is copied: the target takes the source's place, the source is retired, `MIGRATION_DONE` is raised and the module
is `DEGRADED`; a retirement that waited starts (R343, R350). -/
def migDone (m : Mig) (s : State) : State :=
  let s1 := (s.setN O.RANK_STATE m.tgt rankInService).setN O.RANK_STATE m.src rankRetired
  let s2 := (List.range 8).foldl (fun t st => t.setHomeRanks st ((t.homeRanks st).map (fun r => if r = m.src then m.tgt else r))) s1
  let s3 : State := { s2 with mig := some { m with done := true } }
  let s4 := refreshMig (s3.setMode { s3.mode with migrating := false, rankRetired := true })
  nextRetire (raiseError 0x63 1 6 m.src 0xFFFF 0#64 s4)

/-- The checkpoint of a chunk boundary: requested unless one is being written, which the next then follows (R347). -/
def checkpoint (m : Mig) (s : State) : State :=
  let writing := s.journal.pending.any (fun e => match e with
    | .checkpoint a b _ => decide (a = m.src) && decide (b = m.tgt)
    | _ => false)
  if writing then s else journalAdd (.checkpoint m.src m.tgt m.chunks) s

/-- A chunk is copied: the progress map advances, a held migration stops here, and the last chunk completes it. -/
def chunkCopied (m : Mig) (s : State) : State :=
  let n : Mig := { m with chunks := m.chunks + 1 }
  if 192 ≤ n.chunks then migDone n s
  else
    let s1 : State := { s with mig := some n }
    let s2 := checkpoint n s1
    refreshMig (if m.held then s2.setMode { s2.mode with migrating := false } else s2)

/-- A write of `RANK_RETIRE` (R342): a rank in service; `BUSY` while a migration runs, `NO_RESOURCE` without a spare. -/
def rankRetireAct (v : W64) (s : State) : State × Status :=
  if 32 ≤ v.toNat || decide (s.rankState v.toNat ≠ rankInService) then (s, .invalid)
  else if s.migrates then (s, .busy)
  else
    match s.firstSpare with
    | none => (s, .noResource)
    | some _ => (retireRank v.toNat s, .ok)

/-- RANK_RETIRE. -/
def execRankRetire (via : Via) (v : W64) (s : State) : Host.Outcome State Fault Refusal :=
  .next (cmdWrite via O.RANK_RETIRE 0 v (rankRetireAct v) s)

/-! ## Self-refresh, speed and delays (R332-R336) -/

/-- Every powered rank enters or leaves self-refresh. -/
def allSelfRefresh (v : Bool) (s : State) : State :=
  s.poweredRanks.foldl (fun t r => t.setRank r { t.rank r with selfRef := v, lastReq := t.clock }) s

/-- A write of `STORE_SPEED` (R334): `BUSY` while a bench is armed or a migration runs; else the change runs. -/
def storeSpeedAct (v : W64) (s : State) : State × Status :=
  if !s.armedBenches.isEmpty || s.migrates then (s, .busy)
  else (refreshStore (allSelfRefresh true { s.put O.STORE_SPEED 0 v with speedChange := true }), .ok)

/-- STORE_SPEED. -/
def execStoreSpeed (via : Via) (v : W64) (s : State) : Host.Outcome State Fault Refusal :=
  .next (cmdWrite via O.STORE_SPEED 0 v (storeSpeedAct v) s)

/-- The speed change is complete: the ranks leave self-refresh, except in `IDLE`, which keeps them in it (R333). -/
def speedDone (s : State) : State :=
  if s.speedChange then
    let s1 : State := { s with speedChange := false }
    refreshStore (if s1.mode.base = .idle then s1 else allSelfRefresh false s1)
  else s

/-- The band of 5 °C of a stack temperature: 0 to 19, the end bands beyond (R336). -/
def bandOf (milliC : Int) : Nat := min (milliC / 5000).toNat 19

/-- The delay tables are loaded and checked: every pseudo-channel applies the band of its stack's temperature, and the store is no
longer `UNCALIBRATED` (R335, R336). -/
def loadDelays (s : State) : State :=
  let s1 := (List.range 256).foldl (fun (t : State) c =>
    t.setChan c { t.chan c with band := bandOf (w64Int (t.el O.TEMP_MC (1 + c / 32))), bandDue := none }) s
  let s2 := s1.setEl O.DELAY_TABLE_ID 0 ((Config.delayTableId s1.fresh).setWidth 64)
  refreshStore { s2.drawn with calibrated := true }

/-- A write of `DELAY_LOAD`. -/
def delayLoadAct (s : State) : State × Status := (loadDelays s, .ok)

/-- DELAY_LOAD. -/
def execDelayLoad (via : Via) (v : W64) (s : State) : Host.Outcome State Fault Refusal :=
  .next (cmdWrite via O.DELAY_LOAD 0 v delayLoadAct s)

/-- A stack enters a band: each of its pseudo-channels applies it at its next refresh. -/
def bandChange (stack band : Nat) (s : State) : State :=
  if s.calibrated then
    (List.range 32).foldl (fun (t : State) i => t.setChan (32 * stack + i) { t.chan (32 * stack + i) with bandDue := some band }) s
  else s

/-- TEMP_BAND_CHANGE. -/
def execTempBandChange (stack : Fin 8) (milliC : Int) (s : State) : Host.Outcome State Fault Refusal :=
  .next (bandChange stack.val (bandOf milliC) s)

end Sys2Proof.Machine
end

