-- ==== Sys2Proof/Machine/Golden.lean ====
section
/-! DEFINITION. The golden traces of the assay engines (06_assay.md): their owners and fields, the golden items (R216, R217, R220,
R221), the cells an engine has read ahead (R230), and the golden rows it reads from them (R228, R231, R232). -/

namespace Sys2Proof.Machine

/-! ## Owner and fields -/

/-- The bench of an engine. -/
def State.aeBench (s : State) (a : Nat) : Option Nat := ownerOf (s.elN O.AE_OWNER a)

/-- The engines of a bench, ascending. -/
def State.enginesOf (s : State) (b : Nat) : List Nat := (List.range 4).filter (fun a => decide (s.elN O.AE_OWNER a = b))

/-- Whether the engine's bench is armed. -/
def State.aeArmed (s : State) (a : Nat) : Bool :=
  match s.aeBench a with
  | none => false
  | some b => s.isArmed b

/-- The fields of `AE_CONFIG` (Table 6.2). -/
def aeEnable (c : W64) : Bool := bit c 0
def aeDclk (c : W64) : Nat := fld c 8 1
def aeByCond (c : W64) : Bool := bit c 9
def aeStopStore (c : W64) : Bool := bit c 10
def aeTrigger (c : W64) : Bool := bit c 11
def aeQuench (c : W64) : Bool := bit c 12
def aeContinue (c : W64) : Bool := bit c 13
def aeCond (c : W64) : Nat := fld c 25 14

/-- The list length N, and the groups listed. -/
def State.aeLen (s : State) (a : Nat) : Nat := s.elN O.AE_LIST_LEN a
def State.aeGroups (s : State) (a : Nat) : List Nat :=
  (List.range (s.aeLen a)).map (fun i => s.elN O.AE_GROUP_LIST (1024 * a + i))

/-- Engine states and golden states as numbers (Tables 6.4, 6.7). -/
def aeAligning : Nat := 1
def aeComparing : Nat := 2
def aePassed : Nat := 3
def aeFailed : Nat := 4
def aeAborted : Nat := 5
def aeMissed : Nat := 6
def aeStopped : Nat := 7
def goldEmpty : Nat := 0
def goldUnsealed : Nat := 1
def goldSealing : Nat := 2
def goldSealed : Nat := 3
def goldBad : Nat := 4

/-- Whether an engine still takes rows. -/
def State.aeLive (s : State) (a : Nat) : Bool :=
  decide (s.elN O.AE_STATE a = aeAligning) || decide (s.elN O.AE_STATE a = aeComparing)

/-- The cause of `BAD` or `ABORTED` and the failing cell in `AE_STATUS`. -/
def setAeCause (a cause cell : Nat) (s : State) : State :=
  s.setEl O.AE_STATUS a (setFld (setFld (s.el O.AE_STATUS a) 3 0 cause) 39 8 cell)

/-! ## The golden trace (R216, R217, R220, R221) -/

/-- The bytes of cell `idx` of an engine's trace; none where its directory lacks the ingot. -/
def goldBytes (a idx : Nat) (s : State) : List Byte :=
  match s.aeBench a with
  | none => []
  | some b =>
    match (s.dir b)[s.elN O.GOLD_FIRST a + idx / 1024]? with
    | none => []
    | some e => s.cellRead e.ingot (idx % 1024)

/-- Whether cell `idx` passes its CRC and carries its index. -/
def goldCellOk (a idx : Nat) (s : State) : Bool := cellOk (goldBytes a idx s) idx

/-- Words of a trace from a place on. -/
def goldWords (a pos n : Nat) (s : State) : List W40 :=
  (List.range n).map (fun i => wordAt (goldBytes a ((pos + i) / 204) s) ((pos + i) % 204))

/-- The words of a trace. -/
def State.goldTotal (s : State) (a : Nat) : Nat := 204 * s.elN O.GOLD_CELLS a

/-- A golden item (Table 6.1). -/
inductive GoldItem where
  | pad
  | row (mask : Nat) (vals : List W40)
  | hold (mask n : Nat)
  | skip (n : Nat)
  | header (design build : W64) (map : Nat)
  | ending
  deriving DecidableEq, Repr

/-- The item at the head of words, for a list of n groups, and its length; none for a format error. -/
def goldItem (n : Nat) : List W40 → Option (GoldItem × Nat)
  | [] => none
  | w :: rest =>
    let c := fld w 31 0
    match fld w 39 36 with
    | 0 => if w = 0#40 then some (.pad, 1) else none
    | 1 => if c = 0 && decide (n ≤ rest.length) then some (.row (fld w 35 32) (rest.take n), n + 1) else none
    | 2 => if 1 ≤ c then some (.hold (fld w 35 32) c, 1) else none
    | 3 => if 1 ≤ c && decide (fld w 35 32 = 0) then some (.skip c, 1) else none
    | 8 =>
      let x (i : Nat) : Nat := fld (rest.getD i 0#40) 31 0
      if fld w 25 0 = 0 && decide (fld w 35 26 + 1 = n) && decide (5 ≤ rest.length)
          && (rest.take 5).all (fun y => decide (fld y 39 32 = 0)) then
        some (.header (BitVec.ofNat 64 (x 0 * 2 ^ 32 + x 1)) (BitVec.ofNat 64 (x 2 * 2 ^ 32 + x 3)) (x 4), 6)
      else none
    | 15 => if fld w 35 0 = 0 then some (.ending, 1) else none
    | _ => none

/-- Whether an item may stand here (R221): HEADER first and once, no HOLD before the first ROW. -/
def GoldItem.allowed (it : GoldItem) (first haveRow : Bool) : Bool :=
  match it with
  | .header .. => first
  | .hold .. => !first && haveRow
  | _ => !first

/-- Whether an item is a ROW. -/
def GoldItem.isRow : GoldItem → Bool
  | .row .. => true
  | _ => false

/-- The structure of a trace (R221): the word at which it fails, none where it is right; `fuel` bounds the number of items. -/
def goldWalk (n : Nat) : Nat → Bool → Bool → List W40 → Nat → Option Nat
  | 0, _, _, _, i => some i
  | fuel + 1, first, haveRow, ws, i =>
    match goldItem n ws with
    | none => some i
    | some (it, len) =>
      if !it.allowed first haveRow then some i
      else if it = .ending then none
      else goldWalk n fuel false (haveRow || it.isRow) (ws.drop len) (i + len)

/-- The header of a trace. -/
def goldHeader (n : Nat) (ws : List W40) : Option (W64 × W64 × Nat) :=
  match goldItem n ws with
  | some (.header d h m, _) => some (d, h, m)
  | _ => none

/-! ## Cells read ahead (R230) -/

/-- Packets of cells that an engine no longer needs are released. -/
def trimAhead (a lo : Nat) (s : State) : State :=
  let gone := (s.engine a).ahead.filter (fun p => decide (p.1 < lo))
  gone.foldl (fun t p => releaseLink p.2 t) (s.modEngine a (fun e => { e with ahead := e.ahead.filter (fun p => !decide (p.1 < lo)) }))

/-- Read-ahead requests that wait for an engine are dropped, and every packet it holds is released. -/
def dropAhead (a : Nat) (s : State) : State :=
  let mine (r : StoreReq) : Bool := match r.op with
    | .goldRead x _ => decide (x = a)
    | _ => false
  let s1 := trimAhead a (2 ^ 40) s
  let gone := s1.storeReqs.filter mine
  let s2 : State := { s1 with storeReqs := s1.storeReqs.filter (fun r => !mine r) }
  gone.foldl (fun t r => match r.op with | .goldRead _ p => releaseLink p t | _ => t) s2

/-! ## Golden rows (R221, R228, R232) -/

/-- What reading the trace gives: an engine that stands on a golden row, with the golden words read; the END; a failure with its
cause and cell. -/
inductive GoldRes where
  | row (e : Engine) (words : Nat)
  | ended (e : Engine)
  | bad (cause cell : Nat)
  deriving DecidableEq, Repr

/-- The bytes of cell `idx` of its trace that an engine has in hand: read ahead into a packet (R230). -/
def heldGold (a idx : Nat) (s : State) : Option (List Byte) :=
  ((s.engine a).ahead.find? (fun p => decide (p.1 = idx))).map (fun p => (s.packet p.2).bytes)

/-- Words of a trace from a place on, of the cells in hand. -/
def heldWords (a pos n : Nat) (s : State) : List W40 :=
  (List.range n).map (fun i => wordAt ((heldGold a ((pos + i) / 204) s).getD []) ((pos + i) % 204))

/-- What is wrong with cell `idx` when the engine reads in it, with the cause of `ABORTED`: it is not in hand (R231), or it fails its CRC or
its index (R232). -/
def cellFault (a idx : Nat) (s : State) : Option Nat :=
  match heldGold a idx s with
  | none => some 3
  | some bs => if cellOk bs idx then none else some 1

/-- The first cell of a stretch of words that the engine cannot read: cause and, but for `RATE`, its index. -/
def badCell (a pos len : Nat) (s : State) : Option (Nat × Nat) :=
  ((List.range ((pos + len - 1) / 204 + 1 - pos / 204)).map (fun i => pos / 204 + i)).findSome? (fun i =>
    (cellFault a i s).map (fun c => (c, if c = 3 then 0 else i)))

/-- The words an item takes, as its first word has it (Table 6.1). -/
def itemLen (n : Nat) (w : W40) : Nat :=
  match fld w 39 36 with
  | 1 => n + 1
  | 8 => 6
  | _ => 1

/-- One item of the trace is taken by the engine. -/
def takeItem (e : Engine) (len : Nat) : GoldItem → Engine
  | .row m vals => { e with pos := e.pos + len, values := vals, maskSet := m, holdLeft := 1 }
  | .hold m n => { e with pos := e.pos + len, maskSet := m, holdLeft := n }
  | .skip n => { e with pos := e.pos + len, skipLeft := n }
  | _ => { e with pos := e.pos + len }

/-- The golden words an item costs (R230). -/
def itemCost : GoldItem → Nat
  | .row _ vals => vals.length + 1
  | .hold .. | .skip _ => 1
  | _ => 0

/-- Items are read, in cells in hand and in the order of R221, until the engine stands on a golden row; `fuel` bounds their number. -/
def goldLoad (a : Nat) (s : State) : Nat → Engine → Nat → GoldRes
  | 0, e, _ => .bad 2 (e.pos / 204)
  | fuel + 1, e, words =>
    if 0 < e.holdLeft || decide (0 < e.skipLeft) then .row e words
    else
      let n := s.aeLen a
      let left := s.goldTotal a - e.pos
      let len := itemLen n ((heldWords a e.pos 1 s).getD 0 0#40)
      if left = 0 then .bad 2 (e.pos / 204)
      else
        match badCell a e.pos (min len left) s with
        | some (c, i) => .bad c i
        | none =>
          match goldItem n (heldWords a e.pos (min len left) s) with
          | none => .bad 2 (e.pos / 204)
          | some (it, k) =>
            if !it.allowed (decide (e.pos = 0)) (!e.values.isEmpty) then .bad 2 (e.pos / 204)
            else if it = .ending then .ended e
            else goldLoad a s fuel (takeItem e k it) (words + itemCost it)

/-- The bound on the items left of a trace. -/
def State.goldFuel (s : State) (a : Nat) : Nat := s.goldTotal a + 1

/-- `m` golden rows pass without being compared; `fuel` bounds the number of items. -/
def goldPass (a : Nat) (s : State) : Nat → Nat → Engine → Nat → GoldRes
  | 0, _, e, words => .row e words
  | fuel + 1, m, e, words =>
    if m = 0 then .row e words
    else
      match goldLoad a s (s.goldFuel a) e words with
      | .row x w =>
        let k := min m (x.holdLeft + x.skipLeft)
        goldPass a s fuel (m - k)
          { x with holdLeft := x.holdLeft - k, skipLeft := x.skipLeft - (k - x.holdLeft), goldRow := x.goldRow + k } w
      | r => r

/-! ## The end of a trace -/

/-- An engine comes to its end: `FAILED` or `PASSED` (R238, R239). -/
def finishEngine (a : Nat) (failed : Bool) (s : State) : State :=
  dropAhead a ((s.setN O.AE_STATE a (if failed then aeFailed else aePassed)).modEngine a (fun e => { e with rows := [] }))

/-- After a row: the END is taken where nothing but PAD stands before it, and it is in hand. -/
def atEnd (a : Nat) (s : State) : Bool :=
  match goldLoad a s (s.goldFuel a) (s.engine a) 0 with
  | .ended _ => true
  | _ => false

end Sys2Proof.Machine
end

