-- ==== Sys2Proof/Machine/Store.lean ====
section
/-! DEFINITION. Accesses of store cells by the pseudo-channel controllers (09_capture_store.md, R323-R331, R337-R343): the pick, the
activate tables, errors and poison, writes and reads, refresh, and the requests that a reader waits for. -/

namespace Sys2Proof.Machine

/-! ## Time (Table 9.5) -/

/-- MEM cycles of 1.2 GHz. -/
def memCycles (n : Nat) : Nat := n * ns * 5 / 6

/-- A pin slot: 32 cycles, 48 at `ECO` (R324, R334). -/
def State.pinSlot (s : State) : Nat := memCycles (if s.elN O.STORE_SPEED 0 = 1 then 48 else 32)

/-- The cycles a bank is busy after an access: Table 9.5 at `FULL`; the manual gives none at `ECO`. -/
def State.bankBusy (s : State) (write : Bool) : Nat :=
  memCycles (if s.elN O.STORE_SPEED 0 = 1 then Config.ecoBankBusy write else if write then 94 else 70)

/-- The refresh window an instant lies in: 32 ms each (R327). -/
def State.window (s : State) : Nat := s.clock / (32 * ms)

/-! ## Activates (R328) -/

/-- The entry with the lowest count. -/
def lowest : List (Nat × Nat) → Nat × Nat
  | [] => (0, 0)
  | x :: t => t.foldl (fun m y => if y.2 < m.2 then y else m) x

/-- One activate of a row in a bank's table: the table, and whether the row's neighbours are refreshed. -/
def activate (row : Nat) (t : List (Nat × Nat)) : List (Nat × Nat) × Bool :=
  let u :=
    if t.any (fun p => decide (p.1 = row)) then t.map (fun p => if p.1 = row then (p.1, p.2 + 1) else p)
    else if t.length < 32 then t ++ [(row, 1)]
    else t.map (fun p => if p = lowest t then (row, p.2 + 1) else p)
  if u.any (fun p => decide (p.1 = row) && decide (16384 ≤ p.2)) then (u.map (fun p => if p.1 = row then (p.1, 0) else p), true)
  else (u, false)

/-- The number of a bank of a pseudo-channel among all tables. -/
def bankNo (chan bank : Nat) : Nat := chan * 128 + bank

/-- A bank's table in the window at hand; it clears at the start of a window. -/
def State.rowTab (s : State) (k : Nat) : List (Nat × Nat) :=
  if Tab.get (fun _ => 0) s.rowWindow k = s.window then Tab.get (fun _ => []) s.rowTabs k else []
def State.setRowTab (s : State) (k : Nat) (t : List (Nat × Nat)) : State :=
  { s with rowTabs := Tab.set (fun _ => []) s.rowTabs k t, rowWindow := Tab.set (fun _ => 0) s.rowWindow k s.window }

/-- The activate tables of the banks, the window each belongs to, and the neighbour refreshes made. -/
structure RowTabs where
  tabs : Tab (List (Nat × Nat))
  windows : Tab Nat
  refreshes : Nat := 0
  deriving DecidableEq, Repr

/-- One activate, of a bank and a row, in a window: the bank's table clears at the start of a window. -/
def activateIn (window : Nat) (a : RowTabs) (p : Nat × Nat) : RowTabs :=
  let r := activate p.2 (if Tab.get (fun _ => 0) a.windows p.1 = window then Tab.get (fun _ => []) a.tabs p.1 else [])
  { tabs := Tab.set (fun _ => []) a.tabs p.1 r.1, windows := Tab.set (fun _ => 0) a.windows p.1 window
    refreshes := a.refreshes + r.2.toNat }

/-- Rows are activated, each given with its bank; every neighbour refresh is counted. -/
def activateRows (l : List (Nat × Nat)) (s : State) : State :=
  let a := l.foldl (activateIn s.window) { tabs := s.rowTabs, windows := s.rowWindow }
  { s with
    rowTabs := a.tabs, rowWindow := a.windows, neighbours := sat 64 (s.neighbours + a.refreshes)
    cc := if a.refreshes = 0 then s.cc else s.ccTouched O.NEIGHBOUR_REFRESHES 0 }

/-- An access of a row of a bank through a pseudo-channel on one rank (R323): the rank wakes, the bank is busy, the next pin slot starts
after this one, the row is activated. -/
def accessAt (write : Bool) (c bk row : Nat) (s : State) (r : Nat) : State :=
  let x := s.chan c
  let s1 := s.setRank r { s.rank r with selfRef := false, lastReq := s.clock }
  let s2 := s1.setChan c { x with
    lastBank := bk
    busy := (x.busy.filter (fun p => !decide (p.1 = bk))) ++ [(bk, s.clock + s.bankBusy write)]
    slotAt := s.clock + s.pinSlot }
  activateRows [(bankNo c bk, row)] s2

/-- An access of a cell on one rank. -/
def accessRank (write : Bool) (ingot cell : Nat) (s : State) (r : Nat) : State :=
  accessAt write (chanOf r ingot cell) (bankOf r ingot cell) (rowOf ingot cell) s r

/-- The accesses a background job has made by its completion (R326): its ranks wake and have had requests, and its rows are activated;
their banks are free again (timing, log entry 94). -/
def jobAccesses (ranks : List Nat) (rows : List (Nat × Nat)) (s : State) : State :=
  activateRows rows { s with
    ranks := ranks.foldl (fun t r =>
      Tab.set (fun _ => {}) t r { Tab.get (fun _ => ({} : Rank)) t r with selfRef := false, lastReq := s.clock }) s.ranks }

/-- The bank, among all tables, and the row of a cell on a rank. -/
def cellRow (r ingot cell : Nat) : Nat × Nat := (bankNo (chanOf r ingot cell) (bankOf r ingot cell), rowOf ingot cell)

/-! ## Errors (R337-R343) -/

/-- 24 hours. -/
def day : Nat := 86400 * sec

/-- The bench an error of an ingot concerns: its holder, or none. -/
def State.errBench (s : State) (ingot : Nat) : Nat := if s.ingotHolder ingot < 1024 then s.ingotHolder ingot else noBench

/-- A corrected error on a rank: counted and recorded; more than `CE_RETIRE_LIMIT` of them within 24 h retire the rank (R337, R342). -/
def correctedAt (r bench : Nat) (detail : W64) (s : State) : State :=
  let recent := (s.rank r).ceTimes.filter (fun t => decide (s.clock < t + day))
  let s1 := (s.inc O.RANK_CE r).setRank r { s.rank r with ceTimes := recent ++ [s.clock] }
  let s2 := raiseError 0x60 0 6 r bench detail s1
  if s2.elN O.CE_RETIRE_LIMIT 0 < (s2.rank r).ceTimes.length then retireRank r s2 else s2

/-- `DETAIL` of an error of a cell (Table 13.8). -/
def cellDetail (ingot cell : Nat) : W64 := put ingot 0 ||| put cell 19

/-- A corrected error of a cell. -/
def correctedError (r ingot cell : Nat) (s : State) : State := correctedAt r (s.errBench ingot) (cellDetail ingot cell) s

/-- Whether an uncorrectable error freezes the controller that meets it in the mode at hand (Table 9.7). -/
def State.freezes (s : State) : Bool :=
  !s.mode.safe && (s.mode.recovery.isSome || decide (s.mode.base = .bringup) || decide (s.mode.base = .factory))

/-- Whether the resumed copy of a migration passes over it: a cell of the source that already carries the mark (R348). -/
def State.resumedMark (s : State) (r ingot cell : Nat) : Bool :=
  s.poisoned ingot cell && (s.mig.map (fun m => m.resumed && !m.done && decide (m.src = r))).getD false

/-- The controller of a rank's stack freezes, which sets `RECOVERY` (Table 9.7, Table 13.7). -/
def freezeAt (r bench : Nat) (s : State) : State :=
  refreshStore (enterRecovery 0x65 (raiseError 0x65 3 6 r bench s.freeNext { s.drawn with frozen := addNew s.frozen (r / 4) }))

/-- A cell is written back, with the pattern that marks it poisoned: one write access on every rank it goes to (R323, R338, R345). -/
def writeBackCell (ingot cell : Nat) (s : State) : State :=
  poisonCell ingot cell ((s.writeRanks ingot cell).foldl (fun t r => accessRank true ingot cell t r) s)

/-- An uncorrectable error of one burst: counted and recorded, and answered as Table 9.7 gives. -/
def uncorrectableError (r ingot cell : Nat) (s : State) : State :=
  let s1 := raiseError 0x61 2 6 r (s.errBench ingot) (cellDetail ingot cell) (s.inc O.RANK_UE r)
  if s1.freezes && !s1.resumedMark r ingot cell then freezeAt r (s1.errBench ingot) s1
  else retireRank r (writeBackCell ingot cell s1)

/-- The 64 bytes of a burst that could not be corrected are free values. -/
def garble (ingot cell burst : Nat) (s : State) : State :=
  (List.range 8).foldl (fun (t : State) i =>
    (t.writeBytes (cellAddr ingot cell + 64 * burst + 8 * i) (bytesLE 8 t.freeNext.toNat)).drawn) s

/-- What the check symbols of one burst show: bad symbols found, none, one (corrected) or more. -/
def burstError (r ingot cell : Nat) (s : State) (p : Nat × Nat) : State :=
  if p.2 = 0 then s
  else if p.2 = 1 then correctedError r ingot cell s
  else uncorrectableError r ingot cell (if s.freezes && !s.resumedMark r ingot cell then s else garble ingot cell p.1 s)

/-- The errors of the sixteen bursts of a read, in order; a frozen controller takes no further one. -/
def readErrors (r ingot cell : Nat) (errs : List Nat) (s : State) : State :=
  ((errs.take 16).mapIdx (fun i e => (i, e))).foldl (fun t p => if t.frozenAt r then t else burstError r ingot cell t p) s

/-- An access of the metadata reserve on a rank (R316, R340): corrected errors as of any burst; an uncorrectable one is fatal. Which row of
which bank is accessed is left open: a free value. -/
def reserveAccess (c r : Nat) (errs : List Nat) (s : State) : State :=
  let n := s.freeNext.toNat
  let s1 := accessAt false c (32 * (r % 4) + n % 32) (n / 32 % 12288) s.drawn r
  (errs.take 16).foldl (fun t e =>
    if e = 0 then t
    else if e = 1 then correctedAt r noBench t.freeNext t.drawn
    else enterRecovery 0x62 (raiseError 0x62 3 6 r noBench t.freeNext (t.drawn.inc O.RANK_UE r))) s1

/-! ## Performing a request -/

/-- A request leaves the controllers' queues. -/
def State.dropReq (s : State) (i : Nat) : State := { s with storeReqs := s.storeReqs.eraseIdx i }

/-- A read of a cell through its controller, with what its check symbols show. -/
def fetchCell (ingot cell : Nat) (errs : List Nat) (s : State) : State :=
  let r := s.readRank ingot cell
  readErrors r ingot cell errs (accessRank false ingot cell s r)

/-- A whole cell is written, on every rank it goes to. -/
def storeCell (ingot cell : Nat) (bs : List Byte) (s : State) : State :=
  writeCell ingot cell bs ((s.writeRanks ingot cell).foldl (fun t r => accessRank true ingot cell t r) s)

/-- Bytes given by offset, in ascending order. -/
def wholeBytes (bs : List (Nat × Byte)) : List Byte := (List.range 1024).map (fun i => lookupByte i bs)
where
  lookupByte (i : Nat) : List (Nat × Byte) → Byte
    | [] => 0#8
    | p :: t => if p.1 = i then p.2 else lookupByte i t

/-- A merge (R331): the cell is read, its bytes replaced, and the whole cell written; a poisoned cell stays poisoned, and its read is noted
(R338, R339). -/
def mergeStaged (ingot cell : Nat) (bs : List (Nat × Byte)) (errs : List Nat) (s : State) : State :=
  let s0 := fetchCell ingot cell errs s
  let s1 := (readCell ingot cell s0).2
  if s0.frozenAt (s.readRank ingot cell) then s0
  else mergeCell ingot cell bs ((s1.writeRanks ingot cell).foldl (fun t r => accessRank true ingot cell t r) s1)

/-- A golden cell arrives with its engine, complete in its packet (R230); where it brings the END to an engine that waits for nothing
else, the engine comes to its end (R239). -/
def goldArrives (r : StoreReq) (a pkt : Nat) (s : State) : State :=
  let p := readCell r.ingot r.cell s
  let t := (p.2.setPacket pkt { p.2.packet pkt with bytes := p.1, complete := true }).modEngine a (fun e =>
    { e with ahead := e.ahead ++ [(1024 * ((s.posOf r.bench r.ingot).getD 0 - s.elN O.GOLD_FIRST a) + r.cell, pkt)] })
  if t.elN O.AE_STATE a = aeComparing && (t.engine a).rows.isEmpty && atEnd a t then finishEngine a (t.engine a).verdict t else t

/-- The rows of an ingot's cells, with their banks among all tables. -/
def State.scrubRows (s : State) (ingot : Nat) : List (Nat × Nat) :=
  (List.range 1024).flatMap (fun c => (s.writeRanks ingot c).map (fun r => cellRow r ingot c))

/-- An ingot is overwritten with zeros, by a background job (R273): no cell of it is poisoned any more. -/
def scrubCells (ingot : Nat) (s : State) : State :=
  let t := (jobAccesses (s.scrubRanks ingot) (s.scrubRows ingot) s).zeroIngot ingot
  { t with poison := t.poison.filter (fun p => decide (p.1 / 1024 ≠ ingot)) }

/-- The request at a place is performed; one that meets the freeze stays (Table 9.7). A written packet releases its link slot. -/
def performReq (i : Nat) (errs : List Nat) (s : State) : State :=
  match s.storeReqs[i]? with
  | none => s
  | some r =>
    let stuck (t : State) : Bool := t.frozenAt (s.readRank r.ingot r.cell)
    match r.op with
    | .write pkt _ => releaseLink pkt (storeCell r.ingot r.cell (s.packet pkt).bytes (s.dropReq i))
    | .hostWrite pkt bs whole =>
      if whole then releaseLink pkt (storeCell r.ingot r.cell (wholeBytes bs) (s.dropReq i))
      else
        let s1 := mergeStaged r.ingot r.cell bs errs s
        if stuck s1 then s1 else releaseLink pkt (s1.dropReq i)
    | .goldRead a pkt =>
      let s1 := fetchCell r.ingot r.cell errs s
      if stuck s1 then s1 else goldArrives r a pkt (s1.dropReq i)
    | .scrub => scrubCells r.ingot (s.dropReq i)

/-! ## The pick (R324, R329) -/

/-- Whether every controller that a request goes to takes it: none is frozen (Table 9.7), and a scrub is not stopped (R461). -/
def State.canServe (s : State) (r : StoreReq) : Bool := (s.reqRanks r).all (fun k => !s.frozenAt k) && !(r.scrubs && s.jobsStopped)

/-- Whether a request waits for an earlier one: a write of its cell (R329), a scrub writing every cell of its ingot. -/
def waitsFor (r q : StoreReq) : Bool :=
  q.writes && decide (q.ingot = r.ingot) && (decide (q.cell = r.cell) || q.scrubs || r.scrubs)

/-- The rank through whose controller a request is picked. -/
def State.pickRank (s : State) (r : StoreReq) : Nat :=
  if r.writes then s.rankOf r.ingot r.cell else s.readRank r.ingot r.cell

/-- The requests that a pseudo-channel may pick now, with their places: not waiting for an earlier one, their bank free,
no controller of theirs frozen. (A scrub is no single access: it takes the pin slots the background rate gives it, R326.) -/
def pickable (c : Nat) (s : State) : List StoreReq → Nat → List StoreReq → List (Nat × StoreReq)
  | _, _, [] => []
  | before, i, r :: t =>
    let k := s.pickRank r
    let here := decide (chanOf k r.ingot r.cell = c) && !r.scrubs && !before.any (fun q => waitsFor r q) && s.canServe r
      && !(s.chan c).busy.any (fun p => decide (p.1 = bankOf k r.ingot r.cell) && decide (s.clock < p.2))
    let rest := pickable c s (before ++ [r]) (i + 1) t
    if here then (i, r) :: rest else rest

/-- Whether one request is picked before another within a bank: class, then the bench's `PRIORITY`; age decides otherwise. -/
def State.picksBefore (s : State) (r q : StoreReq) : Bool :=
  decide (r.cls < q.cls) || (decide (r.cls = q.cls) && decide (s.elN O.PRIORITY q.bench < s.elN O.PRIORITY r.bench))

/-- The best of a list in age order. -/
def bestReq (s : State) : List (Nat × StoreReq) → Option Nat
  | [] => none
  | x :: t => some (t.foldl (fun m y => if s.picksBefore y.2 m.2 then y else m) x).1

/-- The request a pseudo-channel picks for its pin slot: of the next bank in rotation that has one. -/
def pickReq (c : Nat) (s : State) : Option Nat :=
  let l := pickable c s [] 0 s.storeReqs
  let inBank (bk : Nat) : List (Nat × StoreReq) := l.filter (fun p => decide (bankOf (s.pickRank p.2) p.2.ingot p.2.cell = bk))
  let order := (List.range 128).map (fun i => ((s.chan c).lastBank + 1 + i) % 128)
  match order.find? (fun bk => !(inBank bk).isEmpty) with
  | none => none
  | some bk => bestReq s (inBank bk)

/-- One pin slot of a pseudo-channel: the picked request, or an access of the metadata reserve on a powered rank of the stack. -/
def cellAccess (c : Nat) (x : CellAccess) (s : State) : State :=
  if !s.storeTakes || s.frozen.contains (c / 32) then s
  else
    let s1 := advanceTo (s.chan c).slotAt s
    match x.reserve with
    | some k =>
      let r := 4 * (c / 32) + k.val
      if s1.rankState r < rankRetired then refreshStore (reserveAccess c r x.bursts (toService s1)) else s1
    | none =>
      match pickReq c s1 with
      | none => s1
      | some i => refreshStore (performReq i x.bursts { s1 with idleSince := s1.clock })

/-- STORE_CELL_ACCESS. -/
def execStoreCellAccess (chan : Fin 256) (burstErrs : CellAccess) (s : State) : Host.Outcome State Fault Refusal :=
  .next (cellAccess chan.val burstErrs s)

/-! ## Refresh (R327, R328, R336) -/

/-- A bank's refresh: its activate table is that of the window at hand, and the pseudo-channel applies a temperature band that is
due. -/
def refreshBank (c bk : Nat) (s : State) : State :=
  let x := s.chan c
  (s.setChan c { x with band := x.bandDue.getD x.band, bandDue := none }).setRowTab (bankNo c bk) (s.rowTab (bankNo c bk))

/-- REFRESH. -/
def execRefresh (chan : Fin 256) (rank : Fin 4) (bank : Fin 32) (s : State) : Host.Outcome State Fault Refusal :=
  .next (refreshBank chan.val (32 * rank.val + bank.val) s)

/-! ## Poison list (R340) -/

/-- A write of `POISON_LIST_CLEAR`. -/
def poisonClearAct (s : State) : State × Status := ({ s.clearEls O.POISON_LIST 0 s.poisonUsed with poisonUsed := 0 }, .ok)

/-- POISON_LIST_CLEAR. -/
def execPoisonListClear (via : Via) (v : W64) (s : State) : Host.Outcome State Fault Refusal :=
  .next (cmdWrite via O.POISON_LIST_CLEAR 0 v poisonClearAct s)

/-! ## Staged host cells, and what a reader waits for (R329-R331) -/

/-- A host staging cell is committed: its write is accepted by the controller, whole or to be merged. -/
def commitStage (f : Nat) (s : State) : State :=
  match s.stage f with
  | none => s
  | some x =>
    acceptReq { cls := 4, bench := x.bench, func := some f, ingot := x.ingot, cell := x.cell,
                op := .hostWrite x.pkt x.bytes (decide (1024 ≤ x.bytes.length)) } (s.setStage f none)

/-- The staged cells among those that a source reads are committed. -/
def commitStages (cells : Nat → Nat → Bool) (s : State) : State :=
  ((s.staging.filter (fun p => match p.2 with
    | none => false
    | some x => cells x.ingot x.cell)).map Prod.fst).foldl (fun t f => commitStage f t) s

/-- Whether a request merges bytes into its cell. -/
def StoreReq.merges (r : StoreReq) : Bool :=
  match r.op with
  | .hostWrite _ _ whole => !whole
  | _ => false

/-- The bad symbols in the bursts of a merge's read that no command gives: free values. -/
def freeErrs (s : State) : List Nat := (List.range 16).map (fun i => fld s.freeNext (2 * i + 1) (2 * i))

/-- The request at a place is performed, with free values for the errors of a merge. -/
def performDue (i : Nat) (s : State) : State :=
  if (s.storeReqs[i]?.map StoreReq.merges).getD false then performReq i (freeErrs s) s.drawn else performReq i [] s

/-- The place of the first request of a list that may be performed now: one that `ok` admits, and that waits for none before it. -/
def firstDue (ok : StoreReq → Bool) : List StoreReq → Nat → List StoreReq → Option Nat
  | _, _, [] => none
  | before, i, r :: t => if ok r && !before.any (fun q => waitsFor r q) then some i else firstDue ok (before ++ [r]) (i + 1) t

/-- Waiting writes are performed, oldest first, up to `n` of them; those that meet a frozen controller or a stopped scrub stay, with what
waits for them. -/
def drainWrites (pick : StoreReq → Bool) : Nat → State → State
  | 0, s => s
  | n + 1, s =>
    match firstDue (fun r => r.writes && pick r && s.canServe r) [] 0 s.storeReqs with
    | none => s
    | some i => drainWrites pick n (performDue i s)

/-- Whether the scrub of an ingot waits among the requests. -/
def State.scrubDue (s : State) (ingot : Nat) : Bool := s.storeReqs.any (fun r => r.scrubs && decide (r.ingot = ingot))

/-- Every write of an ingot accepted earlier is performed. -/
def settleIngot (ingot : Nat) (s : State) : State := drainWrites (fun r => decide (r.ingot = ingot)) s.storeReqs.length s

/-- What a read of cells waits for in the native mode: every write of them accepted earlier (R329); with them go the writes of their
ingot whose order with a scrub counts. -/
def settleCells (cells : Nat → Nat → Bool) (s : State) : State :=
  let s1 := commitStages cells s
  let s2 := (((s1.storeReqs.filter StoreReq.scrubs).map (fun r => r.ingot)).filter (fun i => (List.range 1024).any (cells i))).foldl
    (fun t i => settleIngot i t) s1
  drainWrites (fun r => cells r.ingot r.cell) s2.storeReqs.length s2

/-- The same for one cell. -/
def settleCell (ingot cell : Nat) (s : State) : State := settleCells (fun i c => decide (i = ingot) && decide (c = cell)) s

/-! ## The copy of a rank (R344-R348) -/

/-- The rows of a rank that a chunk takes in: 64 of every bank of its 32 pseudo-channels. -/
def chunkRows (r n : Nat) : List (Nat × Nat) :=
  (List.range 32).flatMap (fun c => (List.range 32).flatMap (fun b => (List.range 64).map (fun i =>
    (bankNo (32 * (r / 4) + c) (32 * (r % 4) + b), 64 * n + i))))

/-- The cells of the chunk in hand are read from the source with correction (R344): a cell that cannot be corrected is poisoned, and
every poisoned one is noted as by any read (R339). What was accepted for them before is written first (R329, R331). -/
def copyRead (m : Mig) (errs : List (Nat × Nat × List Nat)) (s : State) : State :=
  let mine (i c : Nat) : Bool := decide (i < s.elN O.TRACE_INGOTS 0) && decide (s.rankOf i c = m.src) && decide (chunkOf i c = m.chunks)
  let s1 := errs.foldl (fun t p => if mine p.1 p.2.1 then readErrors m.src p.1 p.2.1 p.2.2 t else t) (settleCells mine s)
  (s1.poison.filter (fun p => p.2 && mine (p.1 / 1024) (p.1 % 1024))).foldl (fun t p => notePoison (p.1 / 1024) t) s1

/-- The target of a copy meets an uncorrectable error: recorded; its controller freezes where Table 9.7 says so, else the target is lost
(R337, R347). -/
def targetFails (m : Mig) (s : State) : State :=
  let s1 := raiseError 0x61 2 6 m.tgt noBench s.freeNext ((s.drawn).inc O.RANK_UE m.tgt)
  if s1.freezes then freezeAt m.tgt noBench s1 else refreshStore (targetLost m s1)

/-- Whether the next chunk of a migration waits: not copying, the module in `BOOT`, or the controllers take no request. -/
def State.copyWaits (s : State) (m : Mig) : Bool :=
  m.done || !s.mode.migrating || decide (s.mode.base = .boot) || !s.storeTakes || s.frozenAt m.src || s.frozenAt m.tgt

/-- One chunk of a running migration. -/
def migStep (x : ChunkCopy) (s : State) : State :=
  match s.mig with
  | none => s
  | some m =>
    if s.copyWaits m then s
    else
      let s1 := jobAccesses [m.src, m.tgt] (chunkRows m.src m.chunks ++ chunkRows m.tgt m.chunks) s
      if x.target then targetFails m s1
      else
        let s2 := copyRead m x.source s1
        if s2.frozenAt m.src then s2 else refreshStore (chunkCopied m s2)

/-- MIGRATION_CHUNK. -/
def execMigrationChunk (targetError : ChunkCopy) (s : State) : Host.Outcome State Fault Refusal := .next (migStep targetError s)

end Sys2Proof.Machine
end

