-- ==== Sys2Proof/Machine/Assay.lean ====
section
/-! DEFINITION. Assay engines (06_assay.md): golden ingots (R215), the sealing of golden traces (R222, R223), writes of the
engines' objects (R212-R214, R224), ARM (R225), and the comparison of live rows with golden rows (R226-R242). -/

namespace Sys2Proof.Machine

/-! ## Golden ingots (R215) -/

/-- A golden ingot is allocated afresh, in state `GOLDEN`: its scrub stands behind the writes accepted before it (R329), and is performed
at once where the store may. -/
def freshIngot (b pos : Nat) (s : State) : State :=
  match (s.dir b)[pos]? with
  | none => s
  | some e =>
    let s1 := s.setDir b ((s.dir b).set pos { ingot := e.ingot, state := 1 })
    let s2 := acceptReq { cls := 5, bench := b, func := none, ingot := e.ingot, cell := 0, op := .scrub }
      (commitStages (fun i _ => decide (i = e.ingot)) s1)
    if s2.storeTakes then refreshStore (settleIngot e.ingot s2) else s2

/-- Positions that are no longer golden are unused. -/
def ungold (g : Nat) (l : List DirEntry) : List DirEntry :=
  l.mapIdx (fun i e => if g ≤ i && decide (e.state = 1) then { ingot := e.ingot } else e)

/-- A write of `GOLD_INGOTS`. -/
def goldIngotsAct (b : Nat) (v : W64) (s : State) : State × Status :=
  let g := v.toNat
  if s.elN O.INGOT_QUOTA b < g
      || (s.enginesOf b).any (fun a => decide (g * 1024 < s.elN O.GOLD_FIRST a * 1024 + s.elN O.GOLD_CELLS a)) then (s, .invalid)
  else if s.isArmed b then (s, .busy)
  else
    let s1 := s.put O.GOLD_INGOTS b v
    let s2 := (List.range g).foldl (fun t p => freshIngot b p t) (s1.setDir b (ungold g (s1.dir b)))
    ((s2.enginesOf b).foldl (fun t a =>
      ((t.setN O.GOLD_STATE a goldEmpty).setN O.AE_STATE a 0).modEngine a (fun e => { e with header := none })) s2, .ok)

/-- GOLD_INGOTS. -/
def execGoldIngots (via : Via) (b : Nat) (v : W64) (s : State) : Host.Outcome State Fault Refusal :=
  .next (cmdWrite via O.GOLD_INGOTS b v (goldIngotsAct b v) s)

/-! ## Sealing (R219, R222) -/

/-- A write of `GOLD_SEAL`: 1 only. -/
def goldSealAct (a : Nat) (v : W64) (s : State) : State × Status :=
  if v ≠ 1#64 then (s, .invalid)
  else if s.aeArmed a || decide (s.elN O.GOLD_STATE a = goldSealing) then (s, .busy)
  else (toService (s.setN O.GOLD_STATE a goldSealing), .ok)

/-- GOLD_SEAL. -/
def execGoldSeal (via : Via) (a : Nat) (v : W64) (s : State) : Host.Outcome State Fault Refusal :=
  .next (cmdWrite via O.GOLD_SEAL a v (goldSealAct a v) s)

/-- The outcome of reading a trace: none when it is sealed, else cause (1 `CRC`, 2 `FORMAT`) and failing cell, the first one. -/
def sealCheck (a : Nat) (s : State) : Option (Nat × Nat) :=
  let cells := s.elN O.GOLD_CELLS a
  let crc := (List.range cells).find? (fun i => !goldCellOk a i s)
  let fmt := (goldWalk (s.aeLen a) (s.goldTotal a + 1) true false (goldWords a 0 (s.goldTotal a) s) 0).map (fun i => min (i / 204) (cells - 1))
  match crc, fmt with
  | none, none => none
  | some c, none => some (1, c)
  | none, some f => some (2, f)
  | some c, some f => if c ≤ f then some (1, c) else some (2, f)

/-- The store cells of a trace, ascending: ingot and cell; one of a position that the bench lacks is left out. -/
def State.traceCells (s : State) (a : Nat) : List (Nat × Nat) :=
  match s.aeBench a with
  | none => []
  | some b => (List.range (s.elN O.GOLD_CELLS a)).filterMap (fun i =>
      ((s.dir b)[s.elN O.GOLD_FIRST a + i / 1024]?).map (fun e => (e.ingot, i % 1024)))

/-- A seal reads the cells of a trace, with what their check symbols show: errors by index. Poisoned cells are noted. -/
def sealRead (a : Nat) (errs : List (Nat × List Nat)) (s : State) : State :=
  let l := s.traceCells a
  let s1 := jobAccesses ((l.map (fun p => s.readRank p.1 p.2)).foldl addNew [])
    (l.map (fun p => cellRow (s.readRank p.1 p.2) p.1 p.2)) s
  let s2 := errs.foldl (fun (t : State) e =>
    match l[e.1]? with
    | none => t
    | some p => readErrors (t.readRank p.1 p.2) p.1 p.2 e.2 t) s1
  l.foldl (fun t p => (readCell p.1 p.2 t).2) s2

/-- Whether the read of a trace waits: background jobs have stopped (R461), the controllers take no request, or one that it reads from is
frozen. -/
def State.sealWaits (s : State) (a : Nat) : Bool :=
  s.jobsStopped || !s.storeTakes || (s.traceCells a).any (fun p => s.frozenAt (s.readRank p.1 p.2))

/-- Whether a physical cell lies in an engine's trace. -/
def State.inTrace (s : State) (a ingot cell : Nat) : Bool :=
  match s.aeBench a with
  | none => false
  | some b =>
    match s.posOf b ingot with
    | none => false
    | some pos =>
      let lo := s.elN O.GOLD_FIRST a * 1024
      decide (lo ≤ pos * 1024 + cell) && decide (pos * 1024 + cell < lo + s.elN O.GOLD_CELLS a)

/-- What a completed seal read finds: `SEALED` with the trace's header, or `BAD` with cause and cell. -/
def judgeTrace (a : Nat) (s : State) : State :=
  match sealCheck a s with
  | none =>
    ((setAeCause a 0 0 s).setN O.GOLD_STATE a goldSealed).modEngine a (fun e =>
      { e with header := goldHeader (s.aeLen a) (goldWords a 0 6 s) })
  | some (c, i) => (setAeCause a c i s).setN O.GOLD_STATE a goldBad

/-- The state in which a seal read leaves the store: every write accepted before is performed (R329), and the cells are read. -/
def sealTraced (a : Nat) (errs : List (Nat × List Nat)) (s : State) : State :=
  sealRead a errs (settleCells (fun i c => s.inTrace a i c) s)

/-- The module has read a trace that is `SEALING`; a controller that froze meanwhile keeps it from completing (Table 9.7). -/
def sealDone (a : Nat) (errs : List (Nat × List Nat)) (s : State) : State :=
  if s.elN O.GOLD_STATE a = goldSealing && !s.sealWaits a then
    let t := sealTraced a errs s
    refreshStore (if t.sealWaits a then t else judgeTrace a t)
  else s

/-- GOLD_SEAL_DONE. -/
def execGoldSealDone (a : SealRead) (s : State) : Host.Outcome State Fault Refusal := .next (sealDone a.a.val a.errs s)

/-- A `SEALED` or `BAD` trace returns to `UNSEALED` (R219). -/
def unsealTrace (a : Nat) (s : State) : State :=
  if s.elN O.GOLD_STATE a = goldSealed || decide (s.elN O.GOLD_STATE a = goldBad) then s.setN O.GOLD_STATE a goldUnsealed else s

/-- A write has landed in a cell of a bench's golden ingots: traces that cover it are unsealed. -/
def unsealCell (b pos cell : Nat) (s : State) : State :=
  (s.enginesOf b).foldl (fun t a =>
    let lo := t.elN O.GOLD_FIRST a * 1024
    let i := pos * 1024 + cell
    if lo ≤ i && decide (i < lo + t.elN O.GOLD_CELLS a) then unsealTrace a t else t) s

/-! ## Writes of the engines' objects (R212-R214, R216, R224) -/

/-- A setting without a shadow: `BUSY` while the bench is armed (R213). -/
def aeSetAct (o : ObjInfo) (a e : Nat) (v : W64) (s : State) : State × Status :=
  if s.aeArmed a then (s, .busy) else (s.put o e v, .ok)

/-- A setting whose write unseals the trace (R219). -/
def aeTraceAct (o : ObjInfo) (a e : Nat) (v : W64) (s : State) : State × Status :=
  if s.aeArmed a then (s, .busy) else (unsealTrace a (s.put o e v), .ok)

/-- A write of `AE_CONFIG` (R212, R224): reserved bits are those of Table 6.2 and of a reference with `SRC` = 0 (R106). -/
def aeConfigAct (a : Nat) (v : W64) (s : State) : State × Status :=
  let slot := 2048 ≤ aeCond v
  let denied := match s.aeBench a with
    | none => aeEnable v || aeQuench v
    | some b => aeQuench v && !s.mayQuench b
  let ref := if slot then refStatus (s.aeBench a) 0 (aeCond v) s else .ok
  if denied || decide (ref = .denied) then (s, .denied)
  else if fld v 63 26 ≠ 0 || (!slot && (aeByCond v || decide (aeCond v / 512 ≠ 0))) || decide (ref = .invalid) then (s, .invalid)
  else aeSetAct O.AE_CONFIG a a v s

/-- A write of `AE_GROUP_LIST` (R74, R214). -/
def aeListAct (e : Nat) (v : W64) (s : State) : State × Status :=
  let a := e / 1024
  let own := match s.aeBench a with
    | none => false
    | some b => s.groupOf b v.toNat
  if !own then (s, .denied) else aeTraceAct O.AE_GROUP_LIST a e v s

/-- The golden ingots of an engine's bench. -/
def State.goldCount (s : State) (a : Nat) : Nat :=
  match s.aeBench a with
  | none => 0
  | some b => s.elN O.GOLD_INGOTS b

/-- Writes of `GOLD_FIRST` and `GOLD_CELLS` (R216). -/
def goldFirstAct (a : Nat) (v : W64) (s : State) : State × Status :=
  if s.goldCount a * 1024 < v.toNat * 1024 + s.elN O.GOLD_CELLS a then (s, .invalid) else aeTraceAct O.GOLD_FIRST a a v s
def goldCellsAct (a : Nat) (v : W64) (s : State) : State × Status :=
  if s.goldCount a * 1024 < s.elN O.GOLD_FIRST a * 1024 + v.toNat then (s, .invalid) else aeTraceAct O.GOLD_CELLS a a v s

/-! ## ARM (R225, R226, R240, R243) -/

/-- The alignment row S0 under `STAMP` (R226). -/
def State.alignRow (s : State) (a : Nat) : W40 :=
  (s.el O.ALIGN_STAMP a).setWidth 40 + (s.el O.ALIGN_OFFSET a).setWidth 40

/-- A list without repeats. -/
def noRepeats : List Nat → Bool
  | [] => true
  | x :: t => !t.contains x && noRepeats t

/-- The check of one enabled engine at ARM (R225). -/
def aeCheck1 (b a : Nat) (triple : Option (W64 × W64 × Nat)) (s : State) : Status :=
  let c := s.el O.AE_CONFIG a
  let d := aeDclk c
  let gs := s.aeGroups a
  let carried (g : Nat) : Bool := (s.benchLanes b).any (fun l => s.isUp l && s.isAligned l && ((s.lane l).map.groupsOf d).contains g)
  let late := match triple with
    | none => false
    | some t =>
      match s.lastOf t.1 d with
      | none => false
      | some p => atOrAfter p.1 (s.alignRow a)
  if s.elN O.GOLD_STATE a ≠ goldSealed then .invalid
  else if (s.engine a).header ≠ triple then .mismatch
  else if !noRepeats gs || !gs.all (fun g => s.groupOf b g && carried g) then .invalid
  else if 40000000000 < (s.aeLen a + 1) * s.elN O.CLOCK_FREQ_HZ d then .noResource
  else if !aeByCond c && late then .late
  else .ok

/-- The enabled engines of a bench. -/
def State.enabledEngines (s : State) (b : Nat) : List Nat := (s.enginesOf b).filter (fun a => aeEnable (s.el O.AE_CONFIG a))

/-- The checks of the bench's enabled engines, in ascending order. -/
def aeCheck (b : Nat) (triple : Option (W64 × W64 × Nat)) (s : State) : Status :=
  (((s.enabledEngines b).map (fun a => aeCheck1 b a triple s)).find? (fun st => !decide (st = .ok))).getD .ok

/-- An engine of a bench that arms: counters, status and report clear; an enabled one is `ALIGNING`. -/
def aeArm (a : Nat) (s : State) : State :=
  let s1 := [O.AE_ROWS_COMPARED, O.AE_WORDS_COMPARED, O.AE_WORDS_UNCOMPARED, O.AE_DIVERGENT_ROWS, O.AE_STATUS].foldl
    (fun t o => t.setEl o a 0#64) s
  let c := s1.el O.AE_CONFIG a
  if !aeEnable c then s1
  else
    let s2 := (dropAhead a (s1.clearEls O.AE_REPORT (200 * a) 200)).setN O.AE_STATE a aeAligning
    s2.setEngine a { header := (s2.engine a).header, s0 := if aeByCond c then none else some (s2.alignRow a) }

/-- An engine of a bench at the end of an acquisition: `STOPPED` where it was `ALIGNING` or `COMPARING` (Table 6.4). -/
def stopEngine (a : Nat) (s : State) : State :=
  let s1 := dropAhead a (s.modEngine a (fun x => { x with rows := [] }))
  if s1.aeLive a then s1.setN O.AE_STATE a aeStopped else s1

/-- Every engine of a bench. -/
def stopEngines (b : Nat) (s : State) : State := (s.enginesOf b).foldl (fun t a => stopEngine a t) s

/-! ## Comparison (R223, R229-R231) -/

/-- One list position of a row: the live word where it was received and delivered, with its golden word and mask. -/
structure Probe where
  pos : Nat
  group : Nat
  live : Option W40
  gold : W40
  mask : W40
  deriving DecidableEq, Repr

/-- The list positions of a row, as its bench has it (R75), under the golden row the engine stands on; a word is delivered on a match of
the group's owner (R73). -/
def probes (b a : Nat) (r : Row) (e : Engine) (s : State) : List Probe :=
  (s.aeGroups a).mapIdx (fun i g =>
    let w := match r.words.find? (fun w => decide (w.group = g)) with
      | none => none
      | some w => if s.groupOf b g then w.word else none
    { pos := i, group := g, live := w, gold := e.values.getD i 0#40,
      mask := (s.el O.AE_MASK (16384 * a + 1024 * e.maskSet + i)).setWidth 40 })

/-- Whether a position's live word is divergent (R223). -/
def Probe.divergent (p : Probe) : Bool :=
  match p.live with
  | none => false
  | some w => decide ((w ^^^ p.gold) &&& p.mask ≠ 0#40)

/-- The most words per microsecond (R230, R475). -/
def State.assayLimit (s : State) : Nat := if s.health.assayThrottle then 20000 else 40000

/-- From when an engine has done `words` more, at its rate, where it was busy until `free` and the row came at t. -/
def busyUntil (limit words : Nat) (free t : Int) : Int := max free t + ((words * us / limit : Nat) : Int)

/-- What an engine decides for a row reaches the row's decisions (R237). -/
def addActs (b a : Nat) (r : Row) (acts : List Act) (s : State) : State :=
  s.modBench b (fun x => { x with undecided := x.undecided.map (fun d =>
    if decide (d.row.dclk = r.dclk) && decide (d.row.stamp = r.stamp) then { d with engines := Tab.set (fun _ => []) d.engines a acts }
    else d) })

/-- The lead sequencer and level of a row (R118). -/
def State.leadOfRow (s : State) (b : Nat) (r : Row) : Nat × Nat :=
  match (s.bench b).undecided.find? (fun d => decide (d.row.dclk = r.dclk) && decide (d.row.stamp = r.stamp)) with
  | none => s.lead b
  | some d => d.lead

/-- The event ASSAY_FAIL (Table 6.5). -/
def assayFail (lead : Nat × Nat) (arg : W40) : Act :=
  .ev { kind := 8, sq := lead.1, level := lead.2, arg := arg, tile := none, rank := 4 }

/-- The argument of an abort, of a divergence. -/
def abortArg (a cause : Nat) : W40 := put40 1 38 ||| put40 a 36 ||| put40 cause 12
def failArg (a actions group words : Nat) : W40 := put40 a 36 ||| put40 actions 32 ||| put40 group 16 ||| put40 (sat 16 words) 0

/-- An engine aborts on a row (R231, R232): cause, record, event; it takes no further row. -/
def abortEngine (b a cause cell : Nat) (r : Row) (s : State) : State :=
  let s1 := (setAeCause a cause cell s).setN O.AE_STATE a aeAborted
  let s2 := dropAhead a (s1.modEngine a (fun e => { e with rows := [] }))
  raiseError 0x40 1 4 a b 0#64 (addActs b a r [assayFail (s2.leadOfRow b r) (abortArg a cause)] s2)

/-- The elements of a divergence report, written one after the other. -/
def writeReport (k : Nat) : List W64 → State → State
  | [], s => s
  | w :: t, s => writeReport (k + 1) t (s.setEl O.AE_REPORT k w)

/-- The divergence report of the verdict row (Table 6.6). -/
def reportWords (r : Row) (e : Engine) (ps : List Probe) : List W64 :=
  let t := r.time.toNat
  let es := ps.take 64
  [r.stamp.setWidth 64 ||| put r.dclk 40 ||| put e.maskSet 48 ||| put 1 63, put (e.goldRow % 2 ^ 40) 0, put (secondsOf t % 2 ^ 48) 0,
   fracWord t, put (sat 16 ps.length) 0 ||| put es.length 16, 0#64, 0#64, 0#64]
    ++ es.flatMap (fun p => [put p.group 0 ||| put p.pos 16, (p.live.getD 0#40).setWidth 64, p.gold.setWidth 64])

/-- The verdict (R233-R236, R241, R242): the actions once, with the verdict row as the decision row, the event and the report. -/
def giveVerdict (b a : Nat) (r : Row) (e : Engine) (ps : List Probe) (s : State) : State :=
  let c := s.el O.AE_CONFIG a
  let lead := s.leadOfRow b r
  let quench := aeQuench c && s.mayQuench b
  let q := if quench then requestQuench b 1 r.dclk r.stamp s else ([], s)
  let trig := if aeTrigger c then [Act.assayTrigger a] else []
  let evs := q.1.map (fun g => Act.ev { kind := 3, sq := lead.1, level := lead.2, arg := g, tile := none, rank := 4 })
  let stop := if aeStopStore c then [Act.assayStop] else []
  let actions := (aeStopStore c).toNat + 2 * (aeTrigger c).toNat + 4 * quench.toNat
  let fail := assayFail lead (failArg a actions ((ps.head?.map (fun p => p.group)).getD 0) ps.length)
  addActs b a r (trig ++ evs ++ [fail] ++ stop) (writeReport (200 * a) (reportWords r e ps) q.2)

/-- The row is compared with the golden row the engine stands on. -/
def compareRow (b a : Nat) (r : Row) (e : Engine) (words : Nat) (s : State) : State :=
  let n := s.aeLen a
  let skip := decide (0 < e.skipLeft)
  let ps := if skip then [] else (probes b a r e s).filter (fun p => p.live.isSome)
  let rd := busyUntil s.assayLimit words e.readFree r.time
  let cm := busyUntil s.assayLimit ps.length e.cmpFree r.time
  let e1 := { e with holdLeft := e.holdLeft - (!skip).toNat, skipLeft := e.skipLeft - 1, goldRow := e.goldRow + 1,
                     readFree := rd, cmpFree := cm }
  if r.time + ((400 * ns : Nat) : Int) < max rd cm then abortEngine b a 3 0 r s
  else
    let div := ps.filter Probe.divergent
    let s1 := trimAhead a (e1.pos / 204) (s.setEngine a e1)
    let s2 := (s1.count O.AE_WORDS_COMPARED a ps.length).count O.AE_WORDS_UNCOMPARED a (n - ps.length)
    let s3 := if ps.isEmpty then s2 else s2.inc O.AE_ROWS_COMPARED a
    let s4 :=
      if div.isEmpty then s3
      else
        let t := s3.inc O.AE_DIVERGENT_ROWS a
        if e.verdict then t else giveVerdict b a r e div (t.modEngine a (fun x => { x with verdict := true }))
    if !div.isEmpty && !aeContinue (s.el O.AE_CONFIG a) then finishEngine a true s4
    else
      let s5 := if div.isEmpty then s4 else s4.setEl O.AE_STATUS a (setBit (s4.el O.AE_STATUS a) 4 true)
      if atEnd a s5 then finishEngine a (s5.engine a).verdict s5 else s5

/-- The words of stamps that were not emitted are not compared (R229). -/
def countGap (a rows : Nat) (s : State) : State := s.count O.AE_WORDS_UNCOMPARED a (rows * s.aeLen a)

/-- A live row at or after the alignment row, the golden row k: golden rows of stamps that were not emitted pass, then the row is compared
(R228, R229). -/
def engineRow (b a : Nat) (r : Row) (k : Nat) (s : State) : State :=
  let e := s.engine a
  let gap := k - e.goldRow
  match goldPass a s (s.goldFuel a) gap e 0 with
  | .bad c i => abortEngine b a c i r (countGap a gap s)
  | .ended x => finishEngine a e.verdict (countGap a (x.goldRow - e.goldRow) s)
  | .row x w =>
    match goldLoad a s (s.goldFuel a) x w with
    | .bad c i => abortEngine b a c i r (countGap a gap s)
    | .ended _ => finishEngine a e.verdict (countGap a gap s)
    | .row y u => compareRow b a r y u ((countGap a gap s).setN O.AE_STATE a aeComparing)

/-- The golden row that a live row meets: the first from the one that comes next on whose stamp is the row's (R228). -/
def Engine.rowOf (e : Engine) (z stamp : W40) : Nat := e.goldRow + (stamp - z - BitVec.ofNat 40 e.goldRow).toNat

/-- An engine decides the oldest live row that waits for it; `inHand` says whether golden words were in hand within the time of
R231. -/
def assayCompare (a : Nat) (inHand : Bool) (s : State) : State :=
  match (s.engine a).rows, s.aeBench a with
  | r :: rest, some b =>
    let s1 := s.modEngine a (fun e => { e with rows := rest })
    let s2 :=
      if !s1.aeLive a then s1
      else
        match (s1.engine a).s0 with
        | none => s1
        | some z =>
          let k := (s1.engine a).rowOf z r.stamp
          if !inHand then abortEngine b a 3 0 r (countGap a (k - (s1.engine a).goldRow) s1)
          else engineRow b a r k s1
    settle b s2
  | _, _ => s

/-- ASSAY_COMPARE. -/
def execAssayCompare (a : Fin 4) (inHand : Bool) (s : State) : Host.Outcome State Fault Refusal :=
  .next (assayCompare a.val inHand s)

end Sys2Proof.Machine
end

