-- ==== Sys2Proof/Machine/Ends.lean ====
section
/-! DEFINITION. How an acquisition ends: disarm (R119, R180), bench fault (R203, R253, R254) and quiesce (R206), with what becomes
of pending commits (R150) and shadow copies (R148). -/

namespace Sys2Proof.Machine

/-- The number of a fault cause (R254). -/
def FaultCause.num : FaultCause → Nat
  | .none => 0 | .lane => 1 | .functionLoss => 2 | .queueReset => 3 | .reset => 4 | .mode => 5

/-- The commit that is pending ends with state `DONE`; stamp and clock stay those of the previous one (R150). -/
def endCommit (b : Nat) (s : State) : State :=
  if s.commitPending b then
    (s.setEl O.COMMIT_STATUS b (setFld (s.el O.COMMIT_STATUS b) 2 0 2)).modBench b (fun x =>
      { x with commit := none, commitSeen := false, commitLate := false, commitSkip := [] })
  else s

/-- Every shadow copy of the bench becomes the active setting, and `DIRTY` clears (R148). -/
def endShadows (b : Nat) (s : State) : State :=
  refreshDirty b (applyCopies (s.benchShadows (shadowedCu ++ shadowedSq ++ shadowedAcq) b) s)

/-- A row: design clock, stamp, row time. -/
abbrev RowKey := Nat × W40 × Int

/-- The step clock of a bench's lead sequencer, 0 where it has none. -/
def State.leadClock (s : State) (b : Nat) : Nat :=
  match (s.enabledSqs b).head? with
  | none => 0
  | some q => sqStepClock (s.el O.SQ_CONFIG q)

/-- Where every stream of a bench records what belongs to an end: the fault row if there is one, else the last row processed (R180, R203,
R208); without either, on the lead sequencer's step clock, without a row (DESIGN CHOICE, log entry 168). -/
def lateRow (k seg : Nat) (lead : Nat × Nat) (row : Option RowKey) (s : State) : PlanRow :=
  let r : RowKey := match row, (s.seg (k / 16)).last with
    | some p, _ => p
    | none, some p => p
    | none, none => (s.leadClock (k / 16), 0#40, 0)
  { endRow r.1 r.2.1 r.2.2 seg lead with keepFrom := s.keepFrom (k / 16) (s.elN O.PRE_COUNT (k / 16)), sync := s.elN O.SYNC_INTERVAL (k / 16) }

/-- The GAP records that are pending in a stream, each of lost rows with the SYNC and snapshot that follow it (R199, R203). A lane-loss
gap that has no row to end on is not written. -/
def pendingGaps (k : Nat) (s : State) : List Item × State :=
  let a := gather (lostGapItems k) (s.stream k).gaps s
  (a.1 ++ (s.stream k).doneGaps.map (fun g => Item.gap g.dclk 2 g.rows (cyclesSpan g.first g.last)), a.2)

/-- A stream of an ending acquisition: pending GAPs at a fault, the events that wait, SEGMENT_END, END (R180, R203, R206). -/
def finishStream (seg record : Nat) (gaps : Bool) (lead : Nat × Nat) (es : List Event) (row : Option RowKey) (s0 : State) (k : Nat) :
    State :=
  if !(s0.stream k).open_ then s0
  else
    let pr := lateRow k seg lead row s0
    let evs := eventsFor k es
    let s := if row.isNone && (s0.seg (k / 16)).last.isNone then s0 else reachRow k pr s0
    let g := if gaps then pendingGaps k s else ([], s)
    let r := placeRow k pr pr.sync (g.1 ++ evs.map Item.event) g.2
    endStream k record pr (match r.2 with
      | none => r.1
      | some _ => r.1.count O.STREAM_EVENTS_LOST k evs.length)

/-- The event SEGMENT_END of an open segment, on the last row processed (Table 5.4). -/
def segmentEndEvent (b reason : Nat) (lead : Nat × Nat) (s : State) : List Event :=
  if (s.seg b).open_ then
    [{ kind := 5, sq := lead.1, level := lead.2,
       arg := put40 (s.segIndex b) 24 ||| put40 reason 0 ||| put40 ((s.bench b).gapped.contains (s.segIndex b)).toNat 3, tile := none,
       rank := 5 }]
  else []

/-- The open segment's entry, with the last row processed as its closing row (R180). -/
def endSegment (b reason : Nat) (s : State) : State :=
  match (s.seg b).open_, (s.seg b).last with
  | true, some p => segmentClose b (s.segIndex b) (s.closing b reason p.1 p.2.1 (s.elN O.PRE_COUNT b)) reason s
  | _, _ => s

/-- What remains of an armed bench's rows and streams is recorded, and the streams end: `record` is the reason in END, `reason` the
one of an open segment, `row` the fault row. -/
def finishStreams (b record reason : Nat) (gaps : Bool) (row : Option RowKey) (s : State) : State :=
  let s1 := settle b (stopEngines b s)
  let s2 := planAll b (s1.bench b).plan.length s1
  let lead := s2.lead b
  let es := sortEvents ((s2.bench b).events ++ segmentEndEvent b reason lead s2)
  let seg := s2.segIndex b
  endSegment b reason ((streamsOf b).foldl (finishStream seg record gaps lead es row) s2)

/-- The bench holds nothing of its acquisition any more but what stays readable; its recorded design and request stay (R136). -/
def clearRun (x : Bench) : Bench :=
  { x with armed := false, startAt := none, armEvent := false, triple := none, lanes := [], undecided := [], plan := [], seg := {},
           fault := none, events := [], gapped := [] }

/-- The end of an armed bench's acquisition. `cause` is `ACQ_END_CAUSE`, which keeps that of an acquisition already `ENDED`; cells
that are begun are filled up and committed where `commitCells` (R203, R206). -/
def endAcquisition (b record reason cause : Nat) (gaps commitCells : Bool) (row : Option RowKey) (next : BenchState) (s : State) : State :=
  let ended := decide (s.trigState b = .ended)
  let s1 := finishStreams b record reason gaps row s
  let s2 := if commitCells then (streamsOf b).foldl (fun t k => closeCell k t) s1 else s1
  let s3 := (s2.enabledSqs b).foldl (fun t q => sqStop q t) s2
  let s4 := clearPins b (s3.setTrigState b .idle)
  let s5 := endShadows b (endCommit b s4)
  let s6 := if ended then s5 else s5.setN O.ACQ_END_CAUSE b cause
  let s7 := refreshGate b ((clearForeign b s6).modBench b clearRun)
  s7.setBenchState b next

/-- A disarm (R180); in `QUIESCE` the cells that are begun are committed too (R206). -/
def disarmBench (b : Nat) (s : State) : State := endAcquisition b 0 1 endDisarm false (decide (s.mode.base = .quiesce)) none .defined s

/-- A disarm in `QUIESCE` (R206). -/
def quiesceBench (b : Nat) (s : State) : State := endAcquisition b 3 3 endQuiesce false true none .defined s

/-- A bench fault takes effect (R203, R253, R254), with its error record; `row` is the fault row, none where no row brings the
fault. -/
def benchFaults (b : Nat) (cause : FaultCause) (row : Option RowKey) (s : State) : State :=
  let s1 := endAcquisition b 2 2 endFault true true row .faulted s
  let s2 := s1.setEl O.BENCH_STATUS b (setFld (s1.el O.BENCH_STATUS b) 3 0 (FaultCause.num cause))
  raiseError 0x30 1 3 noUnit b 0#64 s2

/-- The fault that awaits a bench at its next row, which is the fault row (R253). -/
def faultAtRow (b : Nat) (row : RowKey) (s : State) : State :=
  if !s.isArmed b then s
  else
    match (s.bench b).fault with
    | some c => benchFaults b c (some row) s
    | none => s

/-- The disarm of `QUIESCE` at the bench's next row: the row is the last one it processes (R206). -/
def quiesceAfterRow (b : Nat) (s : State) : State :=
  if s.mode.base = .quiesce && s.isArmed b then quiesceBench b s else s

/-- A disarm asked for now: a fault that is on its way is handled instead (R254). -/
def disarmNow (b : Nat) (s : State) : State :=
  if !s.isArmed b then s
  else
    match (s.bench b).fault with
    | some c => benchFaults b c none s
    | none => disarmBench b s

/-- BENCH_FAULT: the fault row of an armed bench (R253). -/
def execBenchFault (b : Fin 1024) (cause : FaultCause) (s : State) : Host.Outcome State Fault Refusal :=
  let c := ((s.bench b.val).fault).getD cause
  if s.isArmed b.val && decide (c ≠ .none) then .next (benchFaults b.val c none s) else .next s

/-- QUIESCE_DISARM_TIMEOUT: 1 ms after entry to `QUIESCE`, a bench still armed is disarmed at the last row it processed (R206). -/
def execQuiesceDisarmTimeout (b : Fin 1024) (s : State) : Host.Outcome State Fault Refusal :=
  if s.mode.base = .quiesce && s.isArmed b.val then
    let t := advanceTo (s.quiesceSince + 1 * ms) s
    match (t.bench b.val).fault with
    | some c => .next (benchFaults b.val c none t)
    | none => .next (quiesceAfterRow b.val t)
  else .next s

end Sys2Proof.Machine
end

