-- ==== Sys2Proof/Machine/Locks.lean ====
section
/-! DEFINITION. The hardware locks (07_benches.md, R259-R262), and the state of a proposal as far as its lock LK000 governs it (R267,
R268). -/

namespace Sys2Proof.Machine

/-! ## The state of the proposal (R267) -/

/-- A draft begins: the number it would have, and its proposer's principal (Table 7.7 step 1); the last refusal stays. -/
def beginDraft (princ : Nat) (s : State) : State :=
  setPropStatus (put propDraft 0 ||| put (fld (s.el O.PROP_STATUS 0) 15 8) 8 ||| put ((s.elN O.PROP_SEQ 0 + 1) % 2 ^ 32) 16
    ||| put (princ % 2048) 48) s

/-- A refusal of a lock, which for LK000 is one of the exchange's step 1. -/
def lockRefuse (k : Nat) (st : Status) (s : State) : State × Status := if k = 0 then propRefuse st s else (s, st)

/-- The proposal is void, where it is `DRAFT` or `OPEN` (R267). -/
def voidProposal (cause : Nat) (s : State) : State :=
  if s.propState = propDraft || s.propState = propOpen then setPropState propVoid cause s else s

/-! ## Owners (Table 7.5) -/

/-- A lock owner: `OWNER_KIND` (0 function, 1 service core, 2 session) and `OWNER_ID`. -/
def lockCaller (via : Via) (s : State) : Nat × Nat :=
  match via with
  | .wctl f | .relay f => (0, f.val)
  | .service c => (1, c.val)
  | .vdp k => (2, ((s.session k.val).map (fun x => x.id)).getD 0)

/-- Whether a lock is held, and by whom. -/
def State.lockHeld (s : State) (k : Nat) : Bool := bit (s.el O.LOCK_STATE k) 0
def State.lockOwner (s : State) (k : Nat) : Nat × Nat := (fld (s.el O.LOCK_STATE k) 3 2, fld (s.el O.LOCK_STATE k) 31 16)
def State.holds (s : State) (via : Via) (k : Nat) : Bool := s.lockHeld k && decide (s.lockOwner k = lockCaller via s)

/-- `LOCK_STATE` as it reads: `LEASE_LEFT_MS` is what is left of the lease, in whole milliseconds. -/
def State.lockView (s : State) (k : Nat) : W64 :=
  let left := if s.lockHeld k then ((s.lock k).leaseEnd - s.clock) / ms else 0
  setFld (s.el O.LOCK_STATE k) 53 32 left

/-- The custodians enrolled (R245, R269): entries with the Custodian right. -/
def State.custodians (s : State) : List Nat := (s.principals.foldl addNew []).filter (fun n => bit (s.el O.PRINC_RIGHTS n) 3)

/-- Whether a caller is an Admin principal acting through a physical function while fewer than two custodians are enrolled (R269). -/
def firstCustodians (via : Via) (s : State) : Bool :=
  decide (s.custodians.length < 2) && (viaRights via s).admin
    && (match via with
        | .wctl f | .relay f => isPF f.val
        | _ => false)

/-- Who may acquire a lock (R259). -/
def mayLock (via : Via) (k : Nat) (s : State) : Bool :=
  let r := viaRights via s
  if k = 0 then r.custodian || firstCustodians via s
  else
    match ownerOf (s.elN O.LOCK_BENCH k) with
    | none => r.admin || r.service
    | some b => r.admin || decide (r.bench = some b)

/-! ## Taking and freeing -/

/-- The lease of a lock starts. -/
def startLease (k lease : Nat) (s : State) : State := s.setLock k { leaseEnd := s.clock + lease * ms, lease := lease }

/-- The lease of a held lock starts anew; what is left of it changes (R358). -/
def renewLease (k lease : Nat) (s : State) : State :=
  let t := startLease k lease s
  t.touchIf (!decide (s.lockView k = t.lockView k)) O.LOCK_STATE k

/-- A free lock is taken: owner, lease, `GENERATION`; `BROKEN` stays (R259, R262). -/
def takeLock (k lease : Nat) (who : Nat × Nat) (s : State) : State :=
  let w := s.el O.LOCK_STATE k
  (startLease k lease s).setEl O.LOCK_STATE k
    (setFld (setFld (setFld (setFld w 0 0 1) 3 2 who.1) 31 16 who.2) 63 54 ((fld w 63 54 + 1) % 1024))

/-- A lock becomes free, with `BROKEN` as given. -/
def freeLock (k : Nat) (broken : Bool) (s : State) : State :=
  let w := s.el O.LOCK_STATE k
  (s.setLock k { s.lock k with leaseEnd := 0, lapsed := none }).setEl O.LOCK_STATE k (put broken.toNat 1 ||| put (fld w 63 54) 54)

/-- A held lock breaks; a broken LK000 voids the proposal, with a cause (R262, R267). -/
def breakLock (cause k : Nat) (s : State) : State :=
  if s.lockHeld k then
    let s1 := freeLock k true s
    if k = 0 then voidProposal cause s1 else s1
  else s

/-- Every lock an owner holds breaks: the owner is lost (R262). -/
def breakLocksOf (who : Nat × Nat) (s : State) : State :=
  ((List.range 256).filter (fun k => s.lockHeld k && decide (s.lockOwner k = who))).foldl (fun t k => breakLock voidBroken k t) s

/-- Every held lock breaks: a module warm reset (R262). -/
def breakAllLocks (s : State) : State := (List.range 256).foldl (fun t k => breakLock voidBroken k t) s

/-! ## Commands -/

/-- The lease a write of L to `LOCK_ACQUIRE` gives: LK000's is always `PROP_EXPIRY_S` × 1,000 ms. -/
def State.leaseOf (s : State) (k l : Nat) : Nat := if k = 0 then s.elN O.PROP_EXPIRY_S 0 * 1000 else l

/-- A write of `LOCK_ACQUIRE` (R259). Taking LK000 starts a draft unless an application runs. -/
def lockAcquireAct (via : Via) (k : Nat) (v : W64) (s : State) : State × Status :=
  if !mayLock via k s then lockRefuse k .denied s
  else if k ≠ 0 && (decide (v.toNat < 1) || decide (600000 < v.toNat)) then (s, .invalid)
  else if s.holds via k then (renewLease k (s.leaseOf k v.toNat) s, .ok)
  else if s.lockHeld k then lockRefuse k .busy s
  else
    let s1 := takeLock k (s.leaseOf k v.toNat) (lockCaller via s) s
    (if k = 0 && decide (s.propState ≠ propApplying) then beginDraft ((viaPrinc via s).getD 0) s1 else s1, .ok)

/-- LOCK_ACQUIRE. -/
def execLockAcquire (via : Via) (k : Nat) (v : W64) (s : State) : Host.Outcome State Fault Refusal :=
  .next (cmdWrite via O.LOCK_ACQUIRE k v (lockAcquireAct via k v) s)

/-- Whether a caller's lease of a lock ran out in the cycle at hand. -/
def State.justLapsed (s : State) (via : Via) (k : Nat) : Bool :=
  !s.lockHeld k && decide ((s.lock k).lapsed = some (s.ctlCycle, lockCaller via s))

/-- A proposal that the lease's end has just voided is cancelled instead. -/
def cancelLapsed (s : State) : State :=
  if s.propState = propVoid && decide (fld (s.el O.PROP_STATUS 0) 7 4 = voidExpired) then setPropState propVoid voidCancelled s else s

/-- A write of `LOCK_RELEASE` by the owner (R261); a release of LK000 cancels the proposal (Table 7.7). One in the cycle in which the lease
ran out takes effect in its place. -/
def lockReleaseAct (via : Via) (k : Nat) (s : State) : State × Status :=
  if s.holds via k then
    let s1 := freeLock k false s
    (if k = 0 then voidProposal voidCancelled s1 else s1, .ok)
  else if s.justLapsed via k then
    let s1 := freeLock k false s
    (if k = 0 then cancelLapsed s1 else s1, .ok)
  else (s, .denied)

/-- LOCK_RELEASE. -/
def execLockRelease (via : Via) (k : Nat) (v : W64) (s : State) : Host.Outcome State Fault Refusal :=
  .next (cmdWrite via O.LOCK_RELEASE k v (lockReleaseAct via k) s)

/-- A write of `LOCK_RENEW` by the owner; never of LK000 (R261). -/
def lockRenewAct (via : Via) (k : Nat) (s : State) : State × Status :=
  if k = 0 || !s.holds via k then (s, .denied) else (renewLease k (s.lock k).lease s, .ok)

/-- LOCK_RENEW. -/
def execLockRenew (via : Via) (k : Nat) (v : W64) (s : State) : Host.Outcome State Fault Refusal :=
  .next (cmdWrite via O.LOCK_RENEW k v (lockRenewAct via k) s)

/-- A write of `LOCK_BREAK` (R262). -/
def lockBreakAct (k : Nat) (s : State) : State × Status := (breakLock voidBroken k s, .ok)

/-- LOCK_BREAK. -/
def execLockBreak (via : Via) (k : Nat) (v : W64) (s : State) : Host.Outcome State Fault Refusal :=
  .next (cmdWrite via O.LOCK_BREAK k v (lockBreakAct k) s)

/-- The lease of a held lock runs out (R262). -/
def leaseExpires (k : Nat) (s : State) : State :=
  if s.lockHeld k then
    let t := breakLock voidExpired k (advanceTo (s.lock k).leaseEnd s)
    t.setLock k { t.lock k with lapsed := some (t.ctlCycle, s.lockOwner k) }
  else s

/-- LOCK_LEASE_EXPIRY. -/
def execLockLeaseExpiry (k : Fin 256) (s : State) : Host.Outcome State Fault Refusal := .next (leaseExpires k.val s)

end Sys2Proof.Machine
end

