-- ==== Sys2Proof/Machine/Loss.lean ====
section
/-! DEFINITION. What the loss of a function (R256, R262, R416) and the closing of a VDP session (R262, R378) leave behind, and the copies
of caller-local objects (R365). -/

namespace Sys2Proof.Machine

/-! ## Caller-local copies (R365) -/

/-- The caller-local objects E.000-E.03F. -/
def localObjects : List ObjInfo := catalogue.filter (fun o => o.isLocal)

/-- A caller's copy of the caller-local objects returns to its defaults; what it latched or held of a TIME96 goes (R354). -/
def resetCopy (c : Nat) (s : State) : State :=
  let s1 := localObjects.foldl (fun t o => t.dropKeys (o.key (copyEl c 0)) (o.key (copyEl (c + 1) 0))) s
  { s1 with latched := s1.latched.filter (fun p => decide (p.1.1 ≠ c)), heldHalf := s1.heldHalf.filter (fun p => decide (p.1.1 ≠ c)) }

/-! ## Function loss (R256, R416) -/

/-- The queues whose host binding names a function. -/
def State.queuesOfFunc (s : State) (f : Nat) : List Nat :=
  ((Tab.keysIn s.elems (O.Q_HOST.key 0) (O.Q_HOST.key 16384)).map (fun k => k - O.Q_HOST.key 0)).filter
    (fun q => decide (s.qFunc q = f))

/-- The states of a readout (R411). -/
def readoutIdle : Nat := 0
def readoutRunning : Nat := 1
def readoutDone : Nat := 2
def readoutStopped : Nat := 3
def readoutLost : Nat := 4

/-- The state of a queue's readout. -/
def State.readoutState (s : State) (q : Nat) : Nat := fld (s.el O.READOUT_STATUS q) 2 0
def setReadout (q v : Nat) (s : State) : State :=
  s.setEl O.READOUT_STATUS q (setFld (s.el O.READOUT_STATUS q) 2 0 v)

/-- A queue loses its function: `ENABLE` clears, a transfer in progress is cut short, and a running readout ends. -/
def queueLosesFunc (s : State) (q : Nat) : State :=
  let s1 := (s.setEl O.Q_HOST q (setBit (s.el O.Q_HOST q) 0 false)).modQueue q (fun x => { x with inTransfer := false, sent := 0 })
  if s1.readoutState q = readoutRunning then setReadout q readoutLost (s1.modQueue q (fun x => { x with readAt := none })) else s1

/-- The states of a fill (R413). -/
def fillIdle : Nat := 0
def fillRunning : Nat := 1
def fillDone : Nat := 2
def fillMasterOff : Nat := 3
def fillHostError : Nat := 4
def fillAborted : Nat := 5

/-- `FILL_STATUS` of a function takes a state. -/
def setFill (f v : Nat) (s : State) : State :=
  s.setEl O.FILL_STATUS (copyEl f 0) (setFld (s.el O.FILL_STATUS (copyEl f 0)) 2 0 v)

/-- A function without a fill: a read that is out brings a completion that is discarded. -/
def Func.dropFill (x : Func) : Func :=
  { x with fill := none, stale := x.stale + (match x.fill with | some y => y.asked.toNat | none => 0) }

/-- A held cell of a fill that has ended is a write like any other. -/
def Held.unfill (h : Held) : Held :=
  match h.op with
  | .write ingot cell pos bs _ => { h with op := .write ingot cell pos bs false }
  | _ => h

/-- A running fill of a function ends. -/
def endFill (f v : Nat) (s : State) : State :=
  if (s.func f).fill.isSome then
    let s1 := setFill f v (s.modFunc f Func.dropFill)
    { s1 with held := s1.held.map (fun h => if h.func = f then h.unfill else h) }
  else s

/-- What R262, R365 and R416 give one lost function: its copy is at its defaults, in which a fill that ended so is shown (DESIGN CHOICE,
log entry 172). -/
def loseFunc (s : State) (f : Nat) : State :=
  let s1 := (s.queuesOfFunc f).foldl queueLosesFunc (breakLocksOf (0, f) s)
  (endFill f fillAborted (resetCopy f s1)).modFunc f (fun x => { x with replay := [] })

/-- Whether a bench is left with a bound function that is there, or an open session of a principal that owns it (R256). -/
def State.hasCaller (s : State) (b : Nat) (gone : List Nat) : Bool :=
  (List.range 1024).any (fun f => decide (s.binding f = some b) && !gone.contains f && s.present f && (s.port (f / 256)).up)
    || s.sessions.any (fun p => match p.2 with
        | none => false
        | some x => decide ((s.princRights x.princ none).bench = some b))

/-- `FUNC_LOSS_POLICY` of an armed bench that has lost functions (R256): 0 `CONTINUE`, 1 `STOP`. -/
def lossPolicy (gone : List Nat) (s : State) (b : Nat) : State :=
  if s.isArmed b && decide (s.elN O.FUNC_LOSS_POLICY b = 1) && !s.hasCaller b gone then faultBench b .functionLoss s else s

/-- Functions are lost at one instant to the benches given with them (R256); those of `gone` are there no longer, whatever bench they are
bound to now. -/
def functionsLost (l : List (Nat × Option Nat)) (gone : List Nat) (s : State) : State :=
  (l.filterMap Prod.snd).foldl (lossPolicy gone) ((l.map Prod.fst).foldl loseFunc s)

/-- A change from `s` to `t` of the bench of a caller advances the counter of its `LOCAL_BENCH` (R358, R370). -/
def noteLocals (s t : State) : State :=
  let callers := (List.range 1024).map (fun f => Via.wctl (Fin.ofNat 1024 f)) ++ (List.range 64).map (fun k => Via.vdp (Fin.ofNat 64 k))
  callers.foldl (fun u v => u.touchIf (!decide (viaBench v s = viaBench v t)) O.LOCAL_BENCH (copyEl ((viaCopy v).getD 0) 0)) t

/-! ## Sessions (R378) -/

/-- `VDP_SESSIONS` follows the open sessions. -/
def refreshSessions (s : State) : State :=
  s.setN O.VDP_SESSIONS 0 (s.sessions.filter (fun p => p.2.isSome)).length

/-- A session closes: its replay store and subscriptions go with it, and its locks break. -/
def closeSession (k : Nat) (s : State) : State :=
  match s.session k with
  | none => s
  | some x => refreshSessions ((breakLocksOf (2, x.id) (s.setSession k none)).setEl O.SESSION_INFO k 0#64)

/-- Every open session closes. -/
def closeAllSessions (s : State) : State := (List.range 64).foldl (fun t k => closeSession k t) s

end Sys2Proof.Machine
end

