-- ==== Sys2Proof/Machine/Arm.lean ====
section
/-! DEFINITION. Benches in operation: the checks of ARM in their order (R251) and its effects (R117, R159-R161, R202, R225), disarm,
fault and reset (R250-R254), schedules (R154-R157), and commits (R149-R153). -/

namespace Sys2Proof.Machine

/-! ## Lanes (R44, R45, R58) -/

/-- The reference triple: that of the bench's lowest-numbered lane in `UP`. -/
def State.refTriple (s : State) (b : Nat) : Option (W64 × W64 × Nat) :=
  ((s.benchLanes b).find? (fun l => s.isUp l)).bind (fun l => (s.lane l).desc.map Descr.triple)

/-- Whether a lane is named for a differing triple or a map conflict. -/
def laneDiffers (ref : Option (W64 × W64 × Nat)) (s : State) (l : Nat) : Bool :=
  s.isUp l && (decide ((s.lane l).desc.map Descr.triple ≠ ref) || s.laneFlag l 2)

/-- The lanes that an ARM names: not in `UP`, differing or in conflict, or not `ALIGNED`. -/
def State.namedLanes (s : State) (b : Nat) : List Nat :=
  (s.benchLanes b).filter (fun l => !s.isUp l || laneDiffers (s.refTriple b) s l || !s.isAligned l)

/-- The check of lanes. -/
def laneCheck (b : Nat) (s : State) : Status :=
  if (s.benchLanes b).any (laneDiffers (s.refTriple b) s) then .mismatch
  else if !(s.namedLanes b).isEmpty then .noResource else .ok

/-- `ARM_LANE_REPORT` of a bench: bit n of element 4b + e names lane 64e + n. -/
def writeLaneReport (b : Nat) (ls : List Nat) (s : State) : State :=
  (List.range 4).foldl (fun t e =>
    t.setEl O.ARM_LANE_REPORT (4 * b + e)
      (BitVec.ofNat 64 (((ls.filter (fun l => decide (l / 64 = e))).map (fun l => 2 ^ (l % 64))).sum))) s

/-! ## The other checks -/

/-- Bench state, mode and armed count (R250, R460). -/
def stateCheck (b : Nat) (s : State) : Status :=
  match s.benchState b with
  | .free => .denied
  | .defined =>
    if s.mode.base = .quiesce || s.mode.safe || s.mode.recovery.isSome
        || (match s.mode.exclusive with | none => false | some x => decide (x ≠ b)) then .busy
    else if 128 ≤ s.armedBenches.length then .noResource
    else .ok
  | _ => .busy

/-- Sequencers (R116, R144). -/
def sequencerCheck (b : Nat) (s : State) : Status :=
  let qs := s.enabledSqs b
  if qs.isEmpty then .noResource
  else if !qs.all (fun q => s.benchCarries b (sqStepClock (s.el O.SQ_CONFIG q))) then .invalid
  else if !holdoffOk b (s.elN O.HOLDOFF_KIND b) (s.elN O.HOLDOFF_VALUE b) (s.elN O.HOLDOFF_SEL b) s then .invalid
  else .ok

/-- The enabled units of a bench. -/
def State.enabledUnitsOf (s : State) (b : Nat) : List Nat :=
  (s.unitsOf b).filter (fun c => decide (cuMode (s.el O.CU_CONFIG c) ≠ 0))

/-- Whether one of a tile's `ALIGNED` lanes carries a group. -/
def State.tileCarries (s : State) (t g : Nat) : Bool :=
  (List.range 16).any (fun i => s.isAligned (16 * t + i) && (s.lane (16 * t + i)).map.groups.contains g)

/-- Condition units (R72, R97). -/
def unitCheck (b : Nat) (s : State) : Status :=
  if (s.enabledUnitsOf b).all (fun c =>
      let g := s.elN O.CU_GROUP c
      s.tileCarries (cuTile c) g && s.groupOf b g
        && !(decide (cuMode (s.el O.CU_CONFIG c) = 4) && decide (s.el O.CU_MASK c = 0#64))) then .ok
  else .invalid

/-- The tiles on which an armed bench has a stream (R159): these are also the tiles it would use (R78). -/
def State.streamTiles (s : State) (b : Nat) : List Nat :=
  (List.range 16).filter (fun t =>
    (s.benchLanes b).any (fun l => decide (l / 16 = t) && s.isAligned l)
      || (s.enabledUnitsOf b).any (fun c => decide (cuTile c = t))
      || (s.enabledSqs b).any (fun q => decide (sqTile q = t)))

/-- The ingots each of the bench's streams receives (R161): tile and number. -/
def State.allotments (s : State) (b : Nat) : List (Nat × Nat) :=
  let q := s.elN O.INGOT_QUOTA b - s.elN O.GOLD_INGOTS b
  let ts := s.streamTiles b
  let w (t : Nat) : Nat := s.elN O.STREAM_WEIGHT (16 * b + t)
  let total := (ts.map w).sum
  let base := ts.map (fun t => (t, q * w t / total))
  let left := q - (base.map Prod.snd).sum
  base.mapIdx (fun i p => (p.1, p.2 + (decide (i < left)).toNat))

/-- Streams and their ingots (R161, R274). -/
def streamCheck (b : Nat) (s : State) : Status :=
  if (s.allotments b).any (fun p => decide (p.2 < 2)) || decide ((s.dir b).length < s.elN O.INGOT_QUOTA b) then .noResource else .ok

/-- Tiles (R78). -/
def tileCheck (b : Nat) (s : State) : Status := if (s.streamTiles b).all (fun t => s.tileOn t) then .ok else .noResource

/-- The checks of an ARM, in the order of R251: the code of the first that fails. -/
def armCheck (b : Nat) (s : State) : Status :=
  ([stateCheck b s, laneCheck b s, sequencerCheck b s, unitCheck b s, streamCheck b s, tileCheck b s,
    aeCheck b (s.refTriple b) s].find? (fun st => !decide (st = .ok))).getD .ok

/-! ## Effects of ARM -/

/-- The groups of a stream with their clocks (R159): the bench's groups on the tile's `ALIGNED` lanes. -/
def State.streamGroups (s : State) (b t : Nat) : List (Nat × Nat) :=
  (List.range 16).flatMap (fun i =>
    let l := 16 * t + i
    if s.isAligned l then
      (s.lane l).map.flatMap (fun p => (p.2.filter (fun g => s.groupOf b g)).map (fun g => (g, p.1)))
    else [])

/-- The active clocks of a stream, ascending (R160). -/
def State.streamClocks (s : State) (b t : Nat) : List Nat :=
  let own := (s.streamGroups b t).map Prod.snd ++ (s.enabledSqs b).map (fun q => sqStepClock (s.el O.SQ_CONFIG q))
  (List.range 256).filter (fun d => own.contains d)

/-- A stream opens (R159-R161, R202, R319): its directory positions start at `first`. The pool cell an earlier acquisition left
begun is released. -/
def openStream (b t first n : Nat) (s : State) : State :=
  let k := 16 * b + t
  let s1 := dropHand k s
  let st := s1.el O.STREAM_STATUS k
  let s2 := s1.setStream k { open_ := true, groups := s1.streamGroups b t, clocks := s1.streamClocks b t, resetGap := bit st 1,
                             alloc := (first, n) }
  s2.setEl O.STREAM_STATUS k (setFld (setBit (setBit st 0 true) 1 false) 47 16 n)

/-- The streams of a bench open, in ascending tile order. -/
def openStreams (b : Nat) : Nat → List (Nat × Nat) → State → State
  | _, [], s => s
  | first, p :: rest, s => openStreams b (first + p.2) rest (openStream b p.1 first p.2 s)

/-- The counters of the bench's streams clear (R210). -/
def clearStreamCounters (b : Nat) (s : State) : State :=
  [O.STREAM_ROWS_LOST, O.STREAM_CELLS, O.STREAM_EVENTS_LOST].foldl (fun t o => t.clearEls o (16 * b) 16) s

/-- The directory entries of a bench clear (R321). -/
def clearDir (b : Nat) (s : State) : State :=
  s.setDir b ((s.dir b).mapIdx (fun i e => { ingot := e.ingot, state := if i < s.elN O.GOLD_INGOTS b then 1 else 0 }))

/-- The sequencers of a bench. -/
def State.sqsOf (s : State) (b : Nat) : List Nat := (List.range 128).filter (fun q => decide (s.elN O.SQ_OWNER q = b))

/-- The running fills of a bench's functions end (R413). -/
def abortFills (b : Nat) (s : State) : State :=
  (s.funcs.map Prod.fst).foldl (fun t f =>
    if t.binding f = some b then endFill f fillAborted t else t) s

/-- The hidden state of a bench that arms: `kind` is the argument of its ARM event, `start` the time of a scheduled ARM. -/
def armBenchX (kind : Nat) (start : Option Int) (triple : Option (W64 × W64 × Nat)) (lanes : List Nat) (x : Bench) : Bench :=
  { x with armKind := kind, startAt := start, armed := true, armEvent := true, triple := triple,
           design := triple.map Prod.fst, lanes := lanes, withheld := [], foreign := [], undecided := [], plan := [], seg := {},
           segs := [], commit := none, commitSeen := false, commitLate := false, commitSkip := [], fault := none, events := [], gapped := [] }

/-- A successful ARM. -/
def armBench (b kind : Nat) (start : Option Int) (s : State) : State :=
  let triple := s.refTriple b
  let lanes := s.benchLanes b
  let alloc := s.allotments b
  let gold := s.elN O.GOLD_INGOTS b
  let s1 := clearDir b (abortFills b (writeLaneReport b [] s))
  let s2 := (s1.unitsOf b).foldl (fun t c => (cuReset c t).setN O.CU_HITS c 0) s1
  let s3 := (s2.sqsOf b).foldl (fun t q => clearLines q ((t.setN O.SQ_TRIGGERS q 0).setN O.SQ_STEPS q 0)) s2
  let s4 := (s3.enabledSqs b).foldl (fun t q => sqArm q t) s3
  let s5 := openStreams b gold alloc (clearStreamCounters b s4)
  let s6 := (s5.enginesOf b).foldl (fun t a => aeArm a t) s5
  let s7 := noteSeg s6 b ((s6.setN O.SEG_INDEX b 0).modBench b (armBenchX kind start triple lanes))
  let s8 := refreshGate b (s7.setTrigState b .waiting)
  toService (s8.setBenchState b .armed)

/-- An attempt to arm (R45, R251): the lane report is written whatever the outcome. -/
def tryArm (b kind : Nat) (start : Option Int) (s : State) : State × Status :=
  match armCheck b s with
  | .ok => (armBench b kind start s, .ok)
  | st => (writeLaneReport b (s.namedLanes b) s, st)

/-! ## BENCH_CMD (R250) -/

/-- Any command to a `FREE` bench is refused; an `ARM` is by its own checks, with its report (R45, R251). -/
def notFree (b : Nat) (act : State → State × Status) (s : State) : State × Status :=
  if s.benchState b = .free then (s, .denied) else act s

/-- ARM. -/
def execArm (via : Via) (b : Nat) (s : State) : Host.Outcome State Fault Refusal :=
  .next (cmdWrite via O.BENCH_CMD b 1#64 (tryArm b 0 none) s)

/-- DISARM: `OK` without effect unless the bench is armed. -/
def disarmAct (b : Nat) (s : State) : State × Status := (disarmNow b s, .ok)

/-- DISARM. -/
def execDisarm (via : Via) (b : Nat) (s : State) : Host.Outcome State Fault Refusal :=
  .next (cmdWrite via O.BENCH_CMD b 2#64 (notFree b (disarmAct b)) s)

/-- `CLEAR_FAULT` (R250, R254). -/
def clearFaultAct (b : Nat) (s : State) : State × Status :=
  if s.benchState b = .faulted then
    ((s.setEl O.BENCH_STATUS b (setFld (s.el O.BENCH_STATUS b) 3 0 0)).setBenchState b .defined, .ok)
  else (s, .ok)

/-- CLEAR_FAULT. -/
def execClearFault (via : Via) (b : Nat) (s : State) : Host.Outcome State Fault Refusal :=
  .next (cmdWrite via O.BENCH_CMD b 3#64 (notFree b (clearFaultAct b)) s)

/-! ## Bench reset (R252) -/

/-- Elements of an object that belong to one bench, unit, sequencer or engine return to their defaults: `n` from element `e`. -/
def resetEls (o : ObjInfo) (e n : Nat) (s : State) : State := s.clearEls o e n

/-- The objects that are configuration or counters of units, sequencers and engines. -/
def unitObjects : List ObjInfo := shadowedCu ++ [O.CU_HITS]
def sqObjects : List (ObjInfo × Nat) :=
  [(O.SQ_CONFIG, 1), (O.SQ_BRANCH_INPUTS, 64), (O.SQ_BRANCH_ACTION, 64), (O.SQ_LEVEL_BRANCH, 64), (O.SQ_LEVEL_TIMEOUT, 16),
   (O.SQ_CNT_CONFIG, 4), (O.SQ_CNT_LIMIT, 4), (O.SQ_CNT_VALUE, 4), (O.SQ_TRIGGERS, 1), (O.SQ_STEPS, 1)]
def aeObjects : List (ObjInfo × Nat) :=
  [(O.AE_CONFIG, 1), (O.ALIGN_STAMP, 1), (O.ALIGN_OFFSET, 1), (O.GOLD_FIRST, 1), (O.GOLD_CELLS, 1), (O.AE_LIST_LEN, 1),
   (O.AE_ROWS_COMPARED, 1), (O.AE_WORDS_COMPARED, 1), (O.AE_WORDS_UNCOMPARED, 1), (O.AE_DIVERGENT_ROWS, 1)]

/-- What is listed of an interval of elements is dropped: they read as their defaults (large arrays). -/
def dropEls (o : ObjInfo) (e n : Nat) (s : State) : State := s.dropKeys (o.key e) (o.key (e + n))

/-- A unit, a sequencer, an engine in its default configuration, with its counters clear. -/
def defaultUnit (c : Nat) (s : State) : State := unitObjects.foldl (fun t o => resetEls o c 1 t) s
def defaultSq (q : Nat) (s : State) : State := sqObjects.foldl (fun t p => resetEls p.1 (p.2 * q) p.2 t) s
def defaultEngine (a : Nat) (s : State) : State :=
  unsealTrace a (dropEls O.AE_MASK (16384 * a) 16384 (dropEls O.AE_GROUP_LIST (1024 * a) 1024
    (aeObjects.foldl (fun t p => resetEls p.1 (p.2 * a) p.2 t) s)))

/-- The bench-indexed objects of areas 5 and 6, each with its elements per bench. -/
def benchObjects : List (ObjInfo × Nat) :=
  catalogue.filterMap (fun o =>
    match o.own with
    | .bench k => if decide (o.area = 5) || decide (o.area = 6) then some (o, k) else none
    | _ => none)

/-- The other counters indexed by the bench (R252). -/
def benchCounters : List ObjInfo := [O.ROUTE_REFUSED, O.ALLOC_REFUSED, O.EVENT_MSG_LOST, O.STORE_WRITE_DROPPED]

/-- What a bench reset does to a bench that is not armed. -/
def resetBench (b : Nat) (s : State) : State :=
  let s1 := (s.unitsOf b).foldl (fun t c => defaultUnit c t) (dropGrants b s)
  let s2 := (s1.sqsOf b).foldl (fun t q => defaultSq q t) s1
  let s3 := (s2.enginesOf b).foldl (fun t a => defaultEngine a t) s2
  let s4 := (s3.queuesOf b).foldl (fun t q =>
    [O.Q_LOST, O.Q_DISCARDED, O.DB_REJECTED].foldl (fun u o => u.setN o q 0) (discardAll q false false t)) s3
  let s5 := benchObjects.foldl (fun t p => resetEls p.1 (p.2 * b) p.2 t) s4
  let s6 := benchCounters.foldl (fun t o => t.setN o b 0) s5
  (noteSeg s6 b (s6.modBench b (fun x => { x with segs := [], stopAt := none, seg := {} }))).setBenchState b .resetting

/-- `RESET`: an armed bench faults with cause `RESET` first; one that is `RESETTING` stays so. -/
def resetAct (b : Nat) (s : State) : State × Status :=
  if s.benchState b = .resetting then (s, .ok)
  else (resetBench b (if s.isArmed b then benchFaults b .reset none s else s), .ok)

/-- RESET. -/
def execReset (via : Via) (b : Nat) (s : State) : Host.Outcome State Fault Refusal :=
  .next (cmdWrite via O.BENCH_CMD b 4#64 (notFree b (resetAct b)) s)

/-- BENCH_RESET_DONE: the bench becomes `DEFINED`. -/
def execBenchResetDone (b : Fin 1024) (s : State) : Host.Outcome State Fault Refusal :=
  if s.benchState b.val = .resetting then .next (s.setBenchState b.val .defined) else .next s

/-- A write of `BENCH_CMD` (R250). -/
def benchCmdAct (b : Nat) (v : W64) (s : State) : State × Status :=
  match v.toNat with
  | 1 => tryArm b 0 none s
  | 2 => notFree b (disarmAct b) s
  | 3 => notFree b (clearFaultAct b) s
  | 4 => notFree b (resetAct b) s
  | _ => notFree b (fun t => (t, .invalid)) s

/-! ## Schedules (R154-R157) -/

/-- The states of `SCHED_STATUS`. -/
def schNone : Nat := 0
def schPending : Nat := 1
def schDone : Nat := 2
def schLate : Nat := 3
def schRejected : Nat := 4
def schFailed : Nat := 5

/-- The arm and the disarm state of `SCHED_STATUS`. -/
def State.armSched (s : State) (b : Nat) : Nat := fld (s.el O.SCHED_STATUS b) 2 0
def State.disarmSched (s : State) (b : Nat) : Nat := fld (s.el O.SCHED_STATUS b) 18 16
def setArmSched (b v : Nat) (s : State) : State := s.setEl O.SCHED_STATUS b (setFld (s.el O.SCHED_STATUS b) 2 0 v)
def setDisarmSched (b v : Nat) (s : State) : State := s.setEl O.SCHED_STATUS b (setFld (s.el O.SCHED_STATUS b) 18 16 v)

/-- Whether a scheduled time, in nanoseconds, counts as passed (R156). -/
def State.timePassed (s : State) (t : Nat) : Bool := decide (t * ns < s.mtime + 100 * us)

/-- A write of `ARM_AT`: the checks of ARM, with its lane report whatever the outcome (R45), then the late rule. -/
def armAtAct (b : Nat) (v : W64) (s : State) : State × Status :=
  if s.isArmed b then (if v = 0#64 then s else writeLaneReport b (s.namedLanes b) s, .busy)
  else if v = 0#64 then (setArmSched b schNone (s.put O.ARM_AT b v), .ok)
  else
    match armCheck b s with
    | .ok =>
      if s.timePassed v.toNat then
        if s.elN O.ARM_LATE_POLICY b = 0 then (setArmSched b schRejected (writeLaneReport b [] s), .late)
        else (setArmSched b schLate (armBench b 2 none s), .late)
      else (setArmSched b schPending (writeLaneReport b [] (s.put O.ARM_AT b v)), .ok)
    | st => (writeLaneReport b (s.namedLanes b) s, st)

/-- ARM_AT. -/
def execArmAt (via : Via) (b : Nat) (v : W64) (s : State) : Host.Outcome State Fault Refusal :=
  .next (cmdWrite via O.ARM_AT b v (armAtAct b v) s)

/-- A write of `DISARM_AT`; one that comes late leaves no earlier schedule (R156). Late under `RUN_NOW` on a bench that is not armed, it
disarms nothing, and an ARM that is pending still takes place (DESIGN CHOICE, log entry 164). -/
def disarmAtAct (b : Nat) (v : W64) (s : State) : State × Status :=
  if v = 0#64 then
    ((setDisarmSched b schNone (s.put O.DISARM_AT b v)).modBench b (fun x => { x with stopAt := none }), .ok)
  else if !s.isArmed b && !(decide (s.armSched b = schPending) && decide (s.elN O.ARM_AT b < v.toNat)) then (s, .invalid)
  else if s.timePassed v.toNat then
    let off (t : State) : State := t.modBench b (fun x => { x with stopAt := none })
    if s.elN O.DISARM_LATE_POLICY b = 0 then (off (setDisarmSched b schRejected s), .late)
    else (off (setDisarmSched b schLate (disarmNow b s)), .late)
  else
    ((setDisarmSched b schPending (s.put O.DISARM_AT b v)).modBench b (fun x => { x with stopAt := some ((v.toNat * ns : Nat) : Int) }), .ok)

/-- DISARM_AT. -/
def execDisarmAt (via : Via) (b : Nat) (v : W64) (s : State) : Host.Outcome State Fault Refusal :=
  .next (cmdWrite via O.DISARM_AT b v (disarmAtAct b v) s)

/-- The instant of a scheduled ARM. -/
def scheduledArm (b : Nat) (s : State) : State :=
  if s.armSched b = schPending then
    let t := s.elN O.ARM_AT b * ns
    let s1 := advanceMod t s
    let r := tryArm b 1 (some ((t : Nat) : Int)) s1
    if r.2 = .ok then setArmSched b schDone r.1
    else (setArmSched b schFailed r.1).setEl O.SCHED_STATUS b
      (setFld ((setArmSched b schFailed r.1).el O.SCHED_STATUS b) 15 8 r.2.code)
  else s

/-- SCHEDULED_ARM. -/
def execScheduledArm (b : Fin 1024) (s : State) : Host.Outcome State Fault Refusal := .next (scheduledArm b.val s)

/-- The watermark of a lane (R61). -/
def Lane.watermark (x : Lane) (latency : Int) : Int := x.lastCw - latency

/-- Whether the swage has no row of a domain left with a row time before t: every `ALIGNED` lane's watermark has reached t, and no
part that waits has an earlier time. -/
def State.domainPast (s : State) (design : W64) (t : Int) : Bool :=
  (s.alignedLanes design).all (fun l => decide (t ≤ (s.lane l).watermark (s.latency l)))
    && s.leftParts.all (fun q => !decide (q.2.design = design) || decide (t ≤ q.2.time))
    && (s.domainLanes design).all (fun l => ((s.lane l).parts ++ (s.lane l).partsAsm).all (fun p => p.lost || decide (t ≤ p.time)))

/-- A scheduled disarm takes effect: its last row is behind (R155). -/
def scheduledDisarmNow (b : Nat) (s : State) : State :=
  (setDisarmSched b schDone (disarmNow b s)).modBench b (fun x => { x with stopAt := none })

/-- The instant of a scheduled disarm; while rows before it have yet to come, the disarm waits for the first row after them. -/
def scheduledDisarm (b : Nat) (s : State) : State :=
  if s.disarmSched b = schPending then
    let t := s.elN O.DISARM_AT b * ns
    let s1 := advanceMod t s
    let past := match (s1.bench b).triple with
      | none => true
      | some x => s1.domainPast x.1 ((t : Nat) : Int)
    if past || !s1.isArmed b then scheduledDisarmNow b s1 else s1
  else s

/-- SCHEDULED_DISARM. -/
def execScheduledDisarm (b : Fin 1024) (s : State) : Host.Outcome State Fault Refusal := .next (scheduledDisarm b.val s)

/-! ## Commits (R149-R153) -/

/-- The state of `COMMIT_STATUS`. -/
def setCommitState (b v : Nat) (s : State) : State := s.setEl O.COMMIT_STATUS b (setFld (s.el O.COMMIT_STATUS b) 2 0 v)

/-- The check of the settings that a commit would apply (R97, R144). -/
def commitCheck (b : Nat) (s : State) : Bool :=
  (s.unitsOf b).all (fun c => !(decide (cuMode (s.view O.CU_CONFIG c) = 4) && decide (s.view O.CU_MASK c = 0#64)))
    && holdoffOk b (s.view O.HOLDOFF_KIND b).toNat (s.view O.HOLDOFF_VALUE b).toNat (s.view O.HOLDOFF_SEL b).toNat s

/-- A write of 1 to `COMMIT`. -/
def commitAct (b : Nat) (s : State) : State × Status :=
  let d := s.elN O.COMMIT_CLOCK b
  if !s.benchCarries b d then (s, .invalid)
  else if s.commitPending b then (s, .busy)
  else if !s.isArmed b then (setCommitState b 2 s, .ok)
  else if !commitCheck b s then (s, .invalid)
  else ((setCommitState b 1 s).modBench b (fun x =>
    { x with commit := some (d, (s.el O.COMMIT_STAMP b).setWidth 40), commitSeen := false, commitLate := false, commitSkip := [] }), .ok)

/-- COMMIT. -/
def execCommit (via : Via) (b : Nat) (s : State) : Host.Outcome State Fault Refusal :=
  .next (cmdWrite via O.COMMIT b 1#64 (commitAct b) s)

/-- A write of 2 to `COMMIT`: a pending commit is cancelled and the shadow copies stay (R150). -/
def commitCancelAct (b : Nat) (s : State) : State × Status :=
  if s.commitPending b then
    ((setCommitState b 4 s).modBench b (fun x =>
      { x with commit := none, commitSeen := false, commitLate := false, commitSkip := [] }), .ok)
  else (s, .ok)

/-- COMMIT_CANCEL. -/
def execCommitCancel (via : Via) (b : Nat) (s : State) : Host.Outcome State Fault Refusal :=
  .next (cmdWrite via O.COMMIT b 2#64 (commitCancelAct b) s)

/-- A write of `COMMIT`: 1 or 2. -/
def commitWriteAct (b : Nat) (v : W64) (s : State) : State × Status :=
  if v = 1#64 then commitAct b s else if v = 2#64 then commitCancelAct b s else (s, .invalid)

/-- The commit broadcast reaches the tiles: the commit is late when its clock has emitted its row or a later one; it then takes effect
after the rows emitted so far, of which those of the domain's slot in emission still wait for their subscribers (R151). -/
def commitBroadcast (b : Nat) (s : State) : State :=
  match (s.bench b).commit with
  | none => s
  | some (d, st) =>
    let late := match (s.bench b).design.bind (fun x => s.lastOf x d) with
      | none => false
      | some p => atOrAfter p.1 st
    let out := match (s.bench b).design with
      | none => []
      | some x => (((s.slots.find? (fun p => decide (p.1 = x))).map Prod.snd).getD []).map (fun r => (r.dclk, r.stamp))
    s.modBench b (fun x => { x with commitSeen := true, commitLate := late, commitSkip := if late then out else [] })

/-- COMMIT_BROADCAST. -/
def execCommitBroadcast (b : Fin 1024) (s : State) : Host.Outcome State Fault Refusal := .next (commitBroadcast b.val s)

end Sys2Proof.Machine
end

