-- ==== Sys2Proof/Machine/Staging.lean ====
section
/-! DEFINITION. W-STORE and host staging (R218, R298, R305, R322, R331, R394, R397-R399, R401), and the allocator's rounds
(R296-R299). -/

namespace Sys2Proof.Machine

/-! ## The window -/

/-- The store-space address of an offset of W-STORE (R397). -/
def State.storeAddr (s : State) (f off : Nat) : Nat := s.elN O.STORE_WIN_BASE (copyEl f 0) + off

/-- The bytes of one access that fall in one store cell: the cell's index in the store space, the bytes by offset (R305). -/
abbrev Piece := Nat × List (Nat × Byte)

/-- The pieces of an access, ascending; `n` bounds their number. -/
def piecesOf : Nat → Nat → List Byte → List Piece
  | 0, _, _ => []
  | n + 1, addr, bs =>
    if bs.isEmpty then []
    else
      let room := 1024 - addr % 1024
      (addr / 1024, (bs.take room).mapIdx (fun i b => (addr % 1024 + i, b))) :: piecesOf n (addr + room) (bs.drop room)

/-! ## Staging (R305, R331) -/

/-- Whether a function's write needs a new staging packet: it has none, or one of another cell. -/
def State.needsPacket (s : State) (f ingot cell : Nat) : Bool :=
  match s.stage f with
  | none => true
  | some x => !(decide (x.ingot = ingot) && decide (x.cell = cell))

/-- Bytes are packed over those staged before. -/
def packBytes (new old : List (Nat × Byte)) : List (Nat × Byte) :=
  new ++ old.filter (fun p => !new.any (fun q => decide (q.1 = p.1)))

/-- Bytes go to the cell a function stages; a full cell is committed. -/
def stageBytes (f : Nat) (x : Staging) (bs : List (Nat × Byte)) (s : State) : State :=
  let y := { x with bytes := packBytes bs x.bytes, since := s.clock }
  let s1 := s.setStage f (some y)
  if 1024 ≤ y.bytes.length then commitStage f s1 else s1

/-- Max_Payload_Size and Max_Read_Request_Size of a function. -/
def Func.payload (x : Func) : Nat := 128 * 2 ^ x.mps
def Func.readSize (x : Func) : Nat := 128 * 2 ^ x.mrrs

/-- The next read of a running fill: what is missing of the cell in hand, at most Max_Read_Request_Size. -/
def fillRead (f : Nat) (s : State) : State :=
  match (s.func f).fill with
  | none => s
  | some x =>
    if x.masterOff then s
    else
      (s.modFunc f (fun u => { u with fill := some { x with asked := true } })).send
        (.hostRead f (x.addr + 1024 * x.done + x.buf.length) (min (s.func f).readSize (1024 - x.buf.length)))

/-- Whether the cell in hand of a function's fill has been read and waits for pool cells. -/
def State.fillHeld (s : State) (f : Nat) : Bool :=
  s.held.any (fun h => decide (h.func = f) && (match h.op with | .write _ _ _ _ fill => fill | _ => false))

/-- One more cell of a function's fill is written; the fill ends with its last cell, or after the cell in hand when it was to be
aborted (R412, R413). -/
def fillCellWritten (f : Nat) (s : State) : State :=
  match (s.func f).fill with
  | none => s
  | some x =>
    let y := { x with done := x.done + 1 }
    let s1 := s.modFunc f (fun u => { u with fill := some y })
    let s2 := s1.setEl O.FILL_STATUS (copyEl f 0) (setFld (s1.el O.FILL_STATUS (copyEl f 0)) 63 32 (y.done % 2 ^ 32))
    if y.aborting then endFill f fillAborted s2
    else if y.total ≤ y.done then endFill f fillDone s2
    else fillRead f s2

/-- Bytes of one cell are staged, with a packet where the function needs one: traces that the cell belongs to are unsealed (R219). -/
def stagePiece (f b ingot cell pos : Nat) (bs : List (Nat × Byte)) (fill : Bool) (pkt : Option Nat) (s : State) : State :=
  let s1 := unsealCell b pos cell s
  let s2 :=
    if s1.needsPacket f ingot cell then
      stageBytes f { ingot := ingot, cell := cell, bench := b, pkt := pkt.getD 0, bytes := [], since := s1.clock } bs (commitStage f s1)
    else
      match s1.stage f with
      | none => s1
      | some x => stageBytes f x bs s1
  if fill then fillCellWritten f s2 else s2

/-- The packet of a host staging cell (Table 8.1). -/
def stagingPacket (b : Nat) : Packet := { kind := .staging, bench := some b, cells := [], complete := false }

/-- The bytes of one cell arrive for a function: staged, or held behind what it has waiting or for want of pool cells (R298, R401). -/
def arrivePiece (f b ingot cell pos : Nat) (bs : List (Nat × Byte)) (fill : Bool) (s : State) : State :=
  let hold := holdOp f b (.write ingot cell pos bs fill)
  if s.holdsFor f then hold s
  else if s.needsPacket f ingot cell then
    match allocPacket (stagingPacket b) .hostStaging 0 4 (commitStage f s) with
    | (none, t) => hold t
    | (some id, t) => stagePiece f b ingot cell pos bs fill (some id) t
  else stagePiece f b ingot cell pos bs fill none s

/-- The pieces of a write go to their cells. -/
def arrivePieces (f b : Nat) (l : List Piece) (s : State) : State :=
  l.foldl (fun t p =>
    match t.spaceCell b (p.1 * 1024) with
    | none => t
    | some (ingot, cell) => arrivePiece f b ingot cell (p.1 / 1024) p.2 false t) s

/-- A W-STORE write is performed (R218, R322, R394): discarded without a bench; discarded and counted outside the golden ingots, or while
the bench is armed; else staged. -/
def storeWriteNow (f off : Nat) (bs : List Byte) (s : State) : State :=
  match s.binding f with
  | none => s
  | some b =>
    let addr := s.storeAddr f off
    if min (s.elN O.GOLD_INGOTS b) (s.dir b).length * 2 ^ 20 < addr + bs.length then s.inc O.STORE_WRITE_DROPPED b
    else if s.isArmed b then s.inc O.GOLD_WRITE_DROPPED b
    else arrivePieces f b (piecesOf (bs.length + 1) addr bs) s

/-- A W-STORE write: a posted write of the function. -/
def storeWrite (f off : Nat) (bs : List Byte) (s : State) : State := postedWrite f (.storeWrite off bs) (storeWriteNow f off bs) s

/-- W_STORE_WRITE. -/
def execWStoreWrite (f : Fin 1024) (off : Nat) (bytes : List Byte) (s : State) : Host.Outcome State Fault Refusal :=
  .next (storeWrite f.val off bytes s)

/-- A staged cell sees no further write for 1 µs (R331). -/
def stageTimeout (f : Nat) (s : State) : State :=
  match s.stage f with
  | none => s
  | some x => commitStage f (advanceTo (x.since + us) s)

/-- STAGING_CELL_TIMEOUT. -/
def execStagingCellTimeout (f : Fin 1024) (s : State) : Host.Outcome State Fault Refusal := .next (stageTimeout f.val s)

/-! ## Reads (R329, R330, R339, R398) -/

/-- What a read through a function whose `RAW_COMPAT` is 1 waits for: earlier writes of the same function. Whether other writes that
wait are seen is left open: a free value says so (R330). -/
def settleRaw (f ingot cell : Nat) (s : State) : State :=
  if s.scrubDue ingot then settleCell ingot cell s
  else
    let s1 := commitStages (fun i c => decide (i = ingot) && decide (c = cell)) s
    let l := s1.storeReqs.filter (fun r => r.writes && decide (r.ingot = ingot) && decide (r.cell = cell))
    let own := (l.reverse.dropWhile (fun r => !decide (r.func = some f))).length
    let pick := fun (r : StoreReq) => decide (r.ingot = ingot) && decide (r.cell = cell)
    if own = l.length then drainWrites pick own s1
    else drainWrites pick (if bit s1.freeNext 0 then l.length else own) s1.drawn

/-- Whether the controller that a cell of a bench's store space is read from is frozen. -/
def State.pieceFrozen (s : State) (b : Nat) (p : Piece) : Bool :=
  match s.spaceCell b (p.1 * 1024) with
  | none => false
  | some (ingot, cell) => s.frozenAt (s.readRank ingot cell)

/-- The bytes of one cell as a host reads them, with what the check symbols of its bursts show. -/
def hostReadCell (f b : Nat) (r : List Byte × State) (p : List Nat × Piece) : List Byte × State :=
  match r.2.spaceCell b (p.2.1 * 1024) with
  | none => r
  | some (ingot, cell) =>
    let s1 := if r.2.elB O.RAW_COMPAT f then settleRaw f ingot cell r.2 else settleCell ingot cell r.2
    if s1.pieceFrozen b p.2 then (r.1, s1)
    else
      let c := readCell ingot cell (fetchCell ingot cell p.1 s1)
      (r.1 ++ p.2.2.map (fun x => c.1.getD x.1 0#8), c.2)

/-- The place after the last byte that a read touches: the last one enabled (R398). -/
def touched (len : Nat) (enables : List Bool) : Nat := listMax 0 (((List.range len).filter (fun i => enables.getD i true)).map (· + 1))

/-- The bytes a read returns: those not enabled are not stated, free values (log entry 171). -/
def enabledBytes (len : Nat) (enables : List Bool) (bs : List Byte) (s : State) : List Byte × State :=
  if enables.contains false then
    ((List.range len).map (fun i => if enables.getD i true then bs.getD i 0#8 else s.freeNext.extractLsb' (8 * (i % 8)) 8), s.drawn)
  else (bs, s)

/-- Whether a W-STORE read waits: a speed change runs (R334), or the scrub of one of its ingots is still due (R329; log entry 170). -/
def State.readWaits (s : State) (b addr len : Nat) : Bool :=
  s.speedChange || (s.jobsStopped && (piecesOf (len + 1) addr (List.replicate len 0#8)).any (fun p =>
    ((s.spaceCell b (p.1 * 1024)).map (fun x => s.scrubDue x.1)).getD false))

/-- A W-STORE read is performed: the bytes stored, or Unsupported Request beyond the positions held (R398). An uncalibrated controller
refuses; one that waits is held; a frozen controller answers nothing (R334, R335, Table 9.7). -/
def storeRead (f b addr len : Nat) (errs : List (List Nat)) (enables : List Bool) (s : State) : State :=
  let n := touched len enables
  if (decide (0 < n) && decide ((s.dir b).length * 2 ^ 20 < addr + n)) || !s.calibrated then s.send (.unsupported f)
  else if s.readWaits b addr n then holdOp f b (.read addr len errs enables) s
  else
    let l := piecesOf (n + 1) addr (List.replicate n 0#8)
    let r := (l.mapIdx (fun i p => (errs.getD i [], p))).foldl (hostReadCell f b) ([], toService s)
    let x := enabledBytes len enables r.1 r.2
    refreshStore (if l.any (fun p => r.2.pieceFrozen b p) then r.2 else x.2.send (.storeData f x.1))

/-- A W-STORE read of a function: of its bench's store space (R394), in order behind what the function has waiting (R329). -/
def storeReadNow (f : Nat) (off : StoreOffset) (len : Nat) (s : State) : State :=
  match s.binding f with
  | none => s.send (.unsupported f)
  | some b =>
    if s.holdsFor f then holdOp f b (.read (s.storeAddr f off.off) len off.errs off.enables) s
    else storeRead f b (s.storeAddr f off.off) len off.errs off.enables s

/-! ## What the host port complex holds (R298) -/

/-- The first held access of a function. -/
def State.firstHeld (s : State) (f : Nat) : Option Held := s.held.find? (fun h => decide (h.func = f))
def State.dropHeld (s : State) (h : Held) : State := { s with held := s.held.erase h }

/-- A held write whose ingot is no longer its bench's (R273): it has no place to go to. One accepted before an ARM is still performed: no
write is lost for want of cells (R298; DEDUCED, log entry 151). -/
def State.staleHeld (s : State) (b ingot : Nat) : Bool := !decide (s.ingotHolder ingot = b)

/-! ## Self-refresh (R332) -/

/-- Whether a background job works on a rank: a copy that runs, or a seal that reads a trace with a cell on it (R326). -/
def State.jobOn (s : State) (r : Nat) : Bool :=
  (match s.mig with
   | none => false
   | some m => !m.done && s.mode.migrating && (decide (m.src = r) || decide (m.tgt = r)))
  || (List.range 4).any (fun a => decide (s.elN O.GOLD_STATE a = goldSealing) &&
    (s.traceCells a).any (fun p => decide (s.readRank p.1 p.2 = r)))

/-- A powered rank without a request waiting, on which no job works, enters self-refresh once it has had none for `RANK_IDLE_NS`
(R332). -/
def selfRefresh (r : Nat) (s : State) : State :=
  if (s.rank r).selfRef || decide (rankRetired ≤ s.rankState r) || s.storeReqs.any (fun q => (s.reqRanks q).contains r) || s.jobOn r then s
  else
    let s1 := advanceTo ((s.rank r).lastReq + s.elN O.RANK_IDLE_NS 0 * ns) s
    refreshStore (s1.setRank r { s1.rank r with selfRef := true })

/-- SELF_REFRESH_ENTRY. -/
def execSelfRefreshEntry (rank : Fin 32) (s : State) : Host.Outcome State Fault Refusal := .next (selfRefresh rank.val s)

/-! ## Allocator rounds (R296-R299) -/

/-- A request in a round: of a requester, or of a function whose host write is held. -/
structure Bid where
  req : AllocReq
  func : Option Nat
  deriving DecidableEq, Repr

/-- The bench of a request. -/
def Bid.bench (x : Bid) : Option Nat := x.req.bench.map Fin.val

/-- The place of a request in the order of R296: class, module requests last, `PRIORITY`, rotation from the bench granted last. -/
def State.bidKey (s : State) (x : Bid) : Nat :=
  match x.bench with
  | none => (classNum x.req.cls * 2 + 1) * 8192
  | some b => (classNum x.req.cls * 2) * 8192 + (7 - s.elN O.PRIORITY b) * 1024 + (b + 1023 - s.rotorOf x.req.cls) % 1024

/-- The first request in the order. -/
def firstBid (s : State) : List Bid → Option Bid
  | [] => none
  | x :: t => some (t.foldl (fun m y => if s.bidKey y < s.bidKey m then y else m) x)

/-- The packet of a class (Table 8.1). -/
def classPacket (x : AllocReq) : Packet :=
  { kind := match x.cls with
      | .acquisition => if x.cells = 1 then .event else .storeCell
      | .assay => .golden
      | .hostStaging => .staging
      | .firmware => .service
    bench := x.bench.map Fin.val, cells := [], complete := false }

/-- The requester keeps a packet until its step uses it. -/
def keepGrant (x : AllocReq) (id : Nat) (s : State) : State := { s with granted := s.granted ++ [(x, id)] }

/-- A granted read-ahead packet of an engine (its number stands in `tile`): the next golden cell is asked for, up to 256 cells from the
one the engine reads in (R230, R324). -/
def goldAsk (x : AllocReq) (id : Nat) (s : State) : State :=
  let a := x.tile.val % 4
  let e := s.engine a
  let k := max e.asked (e.pos / 204)
  match x.bench with
  | none => keepGrant x id s
  | some b =>
    if s.aeBench a = some b.val && s.aeLive a && decide (k < s.elN O.GOLD_CELLS a) && decide (k < e.pos / 204 + 256) then
      match (s.dir b.val)[s.elN O.GOLD_FIRST a + k / 1024]? with
      | none => keepGrant x id s
      | some d =>
        acceptReq { cls := 2, bench := b.val, func := none, ingot := d.ingot, cell := k % 1024, op := .goldRead a id }
          (commitStages (fun i c => decide (i = d.ingot) && decide (c = k % 1024)) (s.setEngine a { e with asked := k + 1 }))
    else keepGrant x id s

/-- Whether a request asks for what a packet of its class takes (Table 8.1). -/
def rightCells (x : AllocReq) : Bool :=
  match x.cls with
  | .acquisition => decide (x.cells = 4) || decide (x.cells = 1)
  | .assay | .hostStaging => decide (x.cells = 4)
  | .firmware => decide (1 ≤ x.cells) && decide (x.cells ≤ 16)

/-- A granted service packet is filled by the service firmware and completes in its `SERVICE` queue (R277, R281, R284): words of which the
last carries LAST (DEDUCED, log entry 152); without a queue the requester keeps it. -/
def postService (x : AllocReq) (id : Nat) (s : State) : State :=
  match x.service with
  | none => keepGrant x id s
  | some (q, ws) =>
    let l := ws.take (32 * x.cells)
    let p := { s.packet id with words := l.mapIdx (fun i w => setBit w 62 (decide (i + 1 = l.length))), complete := true }
    if s.qKind q.val = 3 && !l.isEmpty then (offerPacket q.val id (s.setPacket id p)).2 else keepGrant x id s

/-- A refused request of the planisher, for a store cell of an open stream: the row that asked for it is lost (R298). -/
def noteRefused (x : Bid) (s : State) : State :=
  match x.bench, x.req.cls with
  | some b, .acquisition =>
    let k := 16 * b + x.req.tile.val
    if x.req.cells = 4 && (s.stream k).open_ && (s.stream k).inHand.isNone then s.modStream k (fun y => { y with refused := true }) else s
  | _, _ => s

end Sys2Proof.Machine
end

