-- ==== Sys2Proof/Machine/Ports.lean ====
section
/-! DEFINITION. Host ports (11_host_ports.md): links, configuration space (R387-R391), resets and function loss (R256, R416), Bus Master
Enable (R414, R415), MSI-X (R419), and the fill engine (R412, R413). -/

namespace Sys2Proof.Machine

/-! ## What the dictionary shows (Table 11.8) -/

/-- `HP_LINK` of a port follows it. -/
def refreshLink (h : Nat) (s : State) : State :=
  let p := s.port h
  s.setEl O.HP_LINK h (put p.up.toNat 0 ||| put p.flit.toNat 1 ||| put (p.rate % 8) 2 ||| put (p.width % 32) 5
    ||| put (p.numVfs % 256) 10 ||| put p.vfEnable.toNat 18)

/-- `FUNC_STATE` of a function follows it. -/
def refreshFunc (s : State) (f : Nat) : State :=
  let x := s.func f
  s.setEl O.FUNC_STATE f (put (s.present f).toNat 0 ||| put x.bme.toNat 1 ||| put x.msixEnable.toNat 2 ||| put x.d3hot.toNat 3)

/-- The functions of a port, and its present virtual functions. -/
def portFuncs (h : Nat) : List Nat := (List.range 256).map (fun i => 256 * h + i)
def State.presentVfs (s : State) (h : Nat) : List Nat := (portFuncs h).filter (fun f => decide (f % 256 ≠ 0) && s.present f)

/-! ## The fill engine (R412-R415) -/

/-- A read completion (R413): one of a read sent before the function lost its right to issue requests, or its fill, is discarded (R414;
completions come in the order of the reads, PRESUMED, log entry 174), as is one of no read; an unsuccessful one ends the fill; the bytes of
a cell that is whole are written to its host staging cell, and the next read follows once it is staged. -/
def fillCompletion (f : Nat) (ok : Bool) (bytes : List Byte) (s : State) : State :=
  if 0 < (s.func f).stale then s.modFunc f (fun u => { u with stale := u.stale - 1 })
  else
  match (s.func f).fill with
  | none => s
  | some x =>
    if !x.asked then s
    else if !ok then endFill f fillHostError (s.modFunc f (fun u => { u with fill := some { x with asked := false } }))
    else
      let buf := x.buf ++ bytes
      if buf.length < 1024 then fillRead f (s.modFunc f (fun u => { u with fill := some { x with buf := buf } }))
      else
        let s1 := s.modFunc f (fun u => { u with fill := some { x with buf := [], asked := false } })
        match s1.binding f with
        | none => s1
        | some b =>
          let i := x.target + x.done
          match s1.spaceCell b (i * 1024) with
          | none => s1
          | some (ingot, cell) =>
            arrivePiece f b ingot cell (i / 1024) ((buf.take 1024).mapIdx (fun j y => (j, y))) true s1

/-- FILL_READ_COMPLETION. -/
def execFillReadCompletion (f : Fin 1024) (ok : Bool) (bytes : List Byte) (s : State) : Host.Outcome State Fault Refusal :=
  .next (fillCompletion f.val ok bytes s)

/-- A write of 1 to `FILL_CMD` (R412): `BUSY` while the bench is armed or a fill runs; `INVALID_VALUE` for the address, the count or the
target. -/
def fillStartAct (f : Nat) (s : State) : State × Status :=
  let b := s.binding f
  let addr := s.elN O.FILL_HOST_ADDR (copyEl f 0)
  let target := s.elN O.FILL_TARGET (copyEl f 0)
  let n := s.elN O.FILL_CELLS (copyEl f 0)
  let room := match b with
    | none => 0
    | some c => 1024 * min (s.elN O.GOLD_INGOTS c) (s.dir c).length
  let armed := match b with
    | none => false
    | some c => s.isArmed c
  if armed || (s.func f).fill.isSome then (s, .busy)
  else if addr % 64 ≠ 0 || decide (n = 0) || decide (room < target + n) then (s, .invalid)
  else
    let off := !s.mayMaster f
    let x : Fill := { addr := addr, target := target, total := n, done := 0, masterOff := off, aborting := false, buf := [] }
    let s1 := (s.modFunc f (fun u => { u with fill := some x })).setEl O.FILL_STATUS (copyEl f 0) 0#64
    (fillRead f (setFill f (if off then fillMasterOff else fillRunning) s1), .ok)

/-- FILL_START. -/
def execFillStart (f : Fin 1024) (s : State) : Host.Outcome State Fault Refusal :=
  .next (cmdWrite (.wctl f) O.FILL_CMD (copyEl f.val 0) 1#64 (fillStartAct f.val) s)

/-- A write of 2 to `FILL_CMD`: a running fill ends after the cell in hand; one that may issue nothing has none in hand to wait for. -/
def fillAbortAct (f : Nat) (s : State) : State × Status :=
  match (s.func f).fill with
  | none => (s, .ok)
  | some x =>
    if x.masterOff && !s.fillHeld f then (endFill f fillAborted s, .ok)
    else (s.modFunc f (fun u => { u with fill := some { x with aborting := true } }), .ok)

/-- FILL_ABORT. -/
def execFillAbort (f : Fin 1024) (s : State) : Host.Outcome State Fault Refusal :=
  .next (cmdWrite (.wctl f) O.FILL_CMD (copyEl f.val 0) 2#64 (fillAbortAct f.val) s)

/-! ## Bus Master Enable and D3hot (R414, R415) -/

/-- A function issues no request from now on: transfers of its queues are cut short, its fill is `MASTER_OFF`, and the completion of a read
that is out is to be discarded. -/
def masterStops (f : Nat) (s : State) : State :=
  let s1 := (s.queuesOfFunc f).foldl (fun t q => t.modQueue q (fun x => { x with inTransfer := false, sent := 0 })) s
  match (s1.func f).fill with
  | none => s1
  | some x =>
    setFill f fillMasterOff (s1.modFunc f (fun u =>
      { u with fill := some { x with masterOff := true, asked := false }, stale := u.stale + x.asked.toNat }))

/-- Pending vectors of a function that nothing blocks send their messages (R419). -/
def sendPending (f : Nat) (s : State) : State :=
  (s.func f).vecs.foldl (fun t p => if p.2.pending && vecReady f p.1 t then sendVec f p.1 t else t) s

/-- A function may issue requests again: its fill reads on from the bytes it has, unless its cell in hand waits for pool cells; pending
vectors are sent. -/
def masterResumes (f : Nat) (s : State) : State :=
  let s1 := match (s.func f).fill with
    | none => s
    | some x =>
      if x.masterOff then
        let t := setFill f fillRunning (s.modFunc f (fun u => { u with fill := some { x with masterOff := false } }))
        if t.fillHeld f then t else fillRead f t
      else s
  sendPending f s1

/-- Bus Master Enable and the power state of a function take values. -/
def setMaster (f : Nat) (bme d3 : Bool) (s : State) : State :=
  let was := s.mayMaster f
  let s0 := refreshFunc (s.modFunc f (fun x => { x with bme := bme, d3hot := d3 })) f
  let s1 := (s.queuesOfFunc f).foldl (fun t q => noteQueue s q t) s0
  if was && !s1.mayMaster f then masterStops f s1
  else if !was && s1.mayMaster f then masterResumes f s1
  else s1

/-- BUS_MASTER_ENABLE_CLEAR: the bit goes to 0, or the function enters D3hot. -/
def execBusMasterEnableClear (f : Fin 1024) (d3hot : Bool) (s : State) : Host.Outcome State Fault Refusal :=
  let x := s.func f.val
  .next (if s.present f.val then setMaster f.val (if d3hot then x.bme else false) (x.d3hot || d3hot) s else s)

/-- BUS_MASTER_ENABLE_SET. -/
def execBusMasterEnableSet (f : Fin 1024) (s : State) : Host.Outcome State Fault Refusal :=
  .next (if s.present f.val then setMaster f.val true (s.func f.val).d3hot s else s)

/-! ## Function loss (R256, R391, R416) -/

/-- Functions with the benches they are bound to. -/
def State.withBench (s : State) (l : List Nat) : List (Nat × Option Nat) := l.map (fun f => (f, s.binding f))

/-- The configuration space and the copies of functions return to their defaults (R365); what they hold in the host port complex goes, and
the completions of their reads that are out are discarded. -/
def clearFuncs (l : List Nat) (s : State) : State :=
  let s1 := l.foldl (fun t f => t.setFunc f { stale := (t.func f).stale }) { s with held := s.held.filter (fun h => !l.contains h.func) }
  l.foldl (fun t f => refreshFunc (resetCopy f t) f) s1

/-- `VF Enable` clears: the port's virtual functions are lost. -/
def clearVfs (h : Nat) (s : State) : State :=
  let vfs := s.presentVfs h
  let s1 := functionsLost (s.withBench vfs) vfs s
  refreshLink h (clearFuncs vfs (s1.modPort h (fun p => { p with vfEnable := false })))

/-- VF_ENABLE_CLEAR. -/
def execVfEnableClear (h : Fin 4) (s : State) : Host.Outcome State Fault Refusal := .next (clearVfs h.val s)

/-- A function-level reset: for a physical function its virtual functions are lost at the same instant; the function's configuration
space and copy of the caller-local objects return to their defaults (R365, R391, Table 13.6). -/
def resetFunc (f : Nat) (s : State) : State :=
  if !s.present f then s
  else
    let h := f / 256
    let vfs := if f % 256 = 0 then s.presentVfs h else []
    let s1 := functionsLost (s.withBench (f :: vfs)) (f :: vfs) s
    let s2 := if f % 256 = 0 then s1.modPort h (fun p => { p with vfEnable := false, numVfs := 0 }) else s1
    let s3 := clearFuncs (f :: vfs) s2
    refreshLink h (if f % 256 = 0 then intUpdate h s3 else s3)

/-- FUNCTION_LEVEL_RESET. -/
def execFunctionLevelReset (f : Fin 1024) (s : State) : Host.Outcome State Fault Refusal := .next (resetFunc f.val s)

/-- The copies of all functions of a port return to their defaults. -/
def resetPortCopies (h : Nat) (s : State) : State :=
  localObjects.foldl (fun t o => t.dropKeys (o.key (copyEl (256 * h) 0)) (o.key (copyEl (256 * (h + 1)) 0))) s

/-- A host port is reset: its functions are lost, its configuration space and copies return to their defaults, the link is down; a link
that was up raises `HOST_LINK_DOWN`. PERST_N, where it is the cause, is low. -/
def resetPort (h : Nat) (kind : PortReset) (s : State) : State :=
  let was := (s.port h).up
  let l := (portFuncs h).filter (fun f => s.present f)
  let s1 := (functionsLost (s.withBench l) l s).setPort h { perst := !decide (kind = .perst) && (s.port h).perst }
  let s2 := refreshLink h (resetPortCopies h (l.foldl (fun t f => t.modFunc f (fun u => { u with stale := 0 })) (clearFuncs l s1)))
  if was then raiseError 0x70 1 7 h 0xFFFF s2.freeNext s2 else s2

/-- HOST_PORT_RESET. -/
def execHostPortReset (h : Fin 4) (kind : PortReset) (s : State) : Host.Outcome State Fault Refusal :=
  .next (resetPort h.val kind s)

/-- Whether a link trains: at 2.5 to 64 GT/s (codes 1 to 6) over a width of the PCIe base specification, up to 16 lanes (R387; the widths
PRESUMED, log entry 153). -/
def trains (rate width : Nat) : Bool := decide (1 ≤ rate) && decide (rate ≤ 6) && [1, 2, 4, 8, 16].contains width

/-- A host port's link is up: it serves configuration requests, and its physical function is present. In `COLD` no port trains (R389,
Table 13.5), and one whose PERST_N land is low or open stays in reset (R498, R502). -/
def linkUp (x : PortLands) (flit : Bool) (rate width : Nat) (s : State) : State :=
  if s.mode.base = .cold || !x.perst || !trains rate width then s
  else
    let h := x.h.val
    let s1 := s.modPort h (fun p => { p with up := true, perst := true, linkAt := s.clock, flit := flit, rate := rate, width := width })
    intUpdate h (refreshFunc (refreshLink h s1) (256 * h))

/-- HOST_LINK_UP. -/
def execHostLinkUp (h : PortLands) (flit : Bool) (rate : Fin 8) (width : Fin 32) (s : State) : Host.Outcome State Fault Refusal :=
  .next (linkUp h flit rate.val width.val s)

/-! ## MSI-X (R419) -/

/-- A pending vector sends its message once its gap has passed and nothing else blocks it. -/
def pendingMessage (f vec : Nat) (s : State) : State :=
  let v := s.vec f vec
  let s1 := match v.sentAt with
    | none => s
    | some t => advanceTo (t + s.elN O.MSIX_MIN_GAP_NS f * ns) s
  if !v.pending then s else if vecReady f vec s1 then sendVec f vec s1 else s1

/-- MSIX_MESSAGE. -/
def execMsixMessage (f : Fin 1024) (vec : Fin 2048) (s : State) : Host.Outcome State Fault Refusal :=
  .next (pendingMessage f.val vec.val s)

/-- One doubleword of the MSI-X table (R419, Table 11.2): four per vector: address low, high, data, control with the mask bit 0. -/
def tableWrite (f : Nat) (s : State) (i : Nat) (v : Nat) : State :=
  let k := i / 4
  let x := s.vec f k
  match i % 4 with
  | 0 => s.setVec f k { x with addr := setFld x.addr 31 0 v }
  | 1 => s.setVec f k { x with addr := setFld x.addr 63 32 v }
  | 2 => s.setVec f k { x with data := BitVec.ofNat 32 v }
  | _ => sendPending f (s.setVec f k { x with masked := decide (v % 2 = 1) })

/-! ## Configuration space (R388, R389, Table 11.1) -/

/-- The doublewords of configuration space that hold what Table 11.1 names; where a capability lies, and the numbers and places that the PCIe
specifications give its fields, are not in the manual (PRESUMED, log entry 20). -/
def cfgId : Nat := 0x000
def cfgCommand : Nat := 0x004
def cfgClass : Nat := 0x008
def cfgSubsys : Nat := 0x02C
def cfgBars : Nat := 0x010
def cfgRomBar : Nat := 0x030
def cfgCapPtr : Nat := 0x034
def cfgIntPin : Nat := 0x03C
def cfgPowerCap : Nat := 0x040
def cfgPower : Nat := 0x044
def cfgPcie : Nat := 0x050
def cfgDevCap : Nat := 0x054
def cfgDevCtl : Nat := 0x058
def cfgLinkCap : Nat := 0x05C
def cfgLinkStatus : Nat := 0x060
def cfgDevCap2 : Nat := 0x074
def cfgMsix : Nat := 0x090
def cfgMsixTable : Nat := 0x094
def cfgMsixPba : Nat := 0x098
def cfgSerialLo : Nat := 0x144
def cfgSerialHi : Nat := 0x148
def cfgSriovCtl : Nat := 0x188
def cfgSriovVfs : Nat := 0x18C
def cfgSriovNum : Nat := 0x190
def cfgSriovOffset : Nat := 0x194
def cfgSriovDev : Nat := 0x198
def cfgSriovPages : Nat := 0x19C
def cfgSriovPage : Nat := 0x1A0
def cfgVfBars : Nat := 0x1A4
def cfgDvsec : Nat := 0x204
def cfgDvsecId : Nat := 0x208
def cfgWindows : Nat := 0x20C

/-- A doubleword with the bits of a number placed over those of the specifications. -/
def patch (w : BitVec 32) (hi lo v : Nat) : BitVec 32 :=
  let m := BitVec.ofNat 32 ((2 ^ (hi + 1 - lo) - 1) <<< lo)
  (w &&& ~~~ m) ||| (BitVec.ofNat 32 (v <<< lo) &&& m)

/-- The extended capabilities of a function, each with its place and identifier: AER, Device Serial Number, ARI, Data Link Feature, SR-IOV,
DVSEC, Physical Layer 16.0, 32.0 and 64.0 GT/s, Lane Margining (Table 11.1); a virtual function has those that concern it. -/
def extCaps (pf : Bool) : List (Nat × Nat) :=
  [(0x100, 0x01), (0x140, 0x03), (0x150, 0x0E)] ++ (if pf then [(0x160, 0x25), (0x180, 0x10)] else []) ++ [(0x200, 0x23)]
    ++ (if pf then [(0x250, 0x26), (0x2A0, 0x2A), (0x300, 0x31), (0x340, 0x27)] else [])

/-- The header of the extended capability at a place, if one lies there: its identifier, and the place of the next. -/
def extHeader (pf : Bool) (reg : Nat) : Option (Nat × Nat) :=
  match (extCaps pf).dropWhile (fun c => !decide (c.1 = reg)) with
  | [] => none
  | c :: rest => some (c.2, ((rest.map Prod.fst).head?).getD 0)

/-- The fields of the DVSEC headers: vendor, length of the capability with the window map, and identifier (R395). -/
def dvsecVendor : Nat := 0x1F9B
def dvsecLength : Nat := 0x4C
def dvsecId : Nat := 1

/-! ### Base address registers (R392, Table 11.2) -/

/-- The size of the window at a pair of BARs, and its prefetchable bit: W-CTL, W-DBL, W-STORE. -/
def barWindow (i : Nat) : Nat × Bool := [(2 ^ 27, false), (2 ^ 23, false), (2 ^ 36, true)].getD (i / 2) (2 ^ 64, false)

/-- The address bits that BAR i of a pair keeps: those at and above the window's size, low or high doubleword. -/
def barMask (i : Nat) : BitVec 32 := BitVec.ofNat 32 ((2 ^ 64 - (barWindow i).1) / (if i % 2 = 0 then 1 else 2 ^ 32))

/-- What BAR i reads as: its address bits, and in the low doubleword the 64-bit type and the prefetchable bit. -/
def barRead (t : Tab (BitVec 32)) (i : Nat) : BitVec 32 :=
  Tab.get (fun _ => 0#32) t i ||| (if i % 2 = 0 then BitVec.ofNat 32 (4 + 8 * (barWindow i).2.toNat) else 0#32)

/-- A write of BAR i keeps its address bits. -/
def barWrite (t : Tab (BitVec 32)) (i : Nat) (v : BitVec 32) : Tab (BitVec 32) := Tab.set (fun _ => 0#32) t i (v &&& barMask i)

/-- The expansion ROM BAR stands behind the six BARs: its enable bit, and the address bits of W-ROM's 4 MiB. -/
def romBar : Nat := 6
def romMask : BitVec 32 := 0xFFC00001#32

/-- Whether W-ROM is enabled. -/
def Func.romOn (x : Func) : Bool := (Tab.get (fun _ => 0#32) x.bars romBar).getLsbD 0

/-- The window map as doublewords (Table 11.2, Table 11.3): W-CTL, W-DBL, W-STORE, W-ROM; a virtual function's fourth entry is zero. -/
def windowWord (pf : Bool) (i : Nat) : Nat :=
  let k := i / 4
  let name := [1, 2, 3, 4].getD k 0 + 256 * [0, 2, 4, 0xFF].getD k 0
  let size := [2 ^ 27, 2 ^ 23, 2 ^ 36, 2 ^ 22].getD k 0
  if k = 3 && !pf then 0
  else
    match i % 4 with
    | 0 => name
    | 2 => size % 2 ^ 32
    | 3 => size / 2 ^ 32
    | _ => 0

/-- A doubleword of a function's configuration space as it reads; what Table 11.1 does not name is as the specifications define. -/
def configRead (f reg : Nat) (s : State) : BitVec 32 :=
  let x := s.func f
  let h := f / 256
  let pf := decide (f % 256 = 0)
  let w := Config.pcieConfig f reg
  let p := s.port h
  if reg = cfgId then (if pf then 0x02081F9B#32 else 0x02091F9B#32)
  else if reg = cfgCommand then
    patch (patch (patch (patch (patch w 1 1 x.mse.toNat) 2 2 x.bme.toNat) 10 10 x.intDisable.toNat) 19 19 (if pf then p.inta.toNat else 0))
      20 20 1
  else if reg = cfgClass then 0x11800001#32
  else if reg = cfgSubsys then (s.subsys.getD h 0#64).setWidth 32
  else if reg = cfgIntPin then patch w 15 8 pf.toNat
  else if cfgBars ≤ reg && decide (reg < cfgBars + 24) then (if pf then barRead x.bars ((reg - cfgBars) / 4) else 0#32)
  else if reg = cfgRomBar then (if pf then Tab.get (fun _ => 0#32) x.bars romBar else 0#32)
  else if reg = cfgCapPtr then patch w 7 0 cfgPowerCap
  else if reg = cfgPowerCap then patch (patch w 15 0 (0x01 + 256 * cfgPcie)) 26 25 0
  else if reg = cfgPcie then patch (patch w 15 0 (0x10 + 256 * cfgMsix)) 23 20 0
  else if reg = cfgDevCap then patch (patch w 2 0 3) 28 28 1
  else if reg = cfgLinkCap then patch (patch (patch w 3 0 6) 9 4 16) 11 10 0
  else if reg = cfgLinkStatus then patch (patch w 19 16 p.rate) 25 20 p.width
  else if reg = cfgDevCap2 then patch (patch (patch (patch w 9 6 0) 11 11 0) 13 12 0) 17 16 3
  else if reg = cfgPower then patch w 1 0 (if x.d3hot then 3 else 0)
  else if reg = cfgDevCtl then patch (patch (patch w 4 4 x.relaxed.toNat) 7 5 x.mps) 14 12 x.mrrs
  else if reg = cfgMsix then patch (patch (patch (patch w 15 0 0x11) 26 16 2047) 30 30 x.msixMask.toNat) 31 31 x.msixEnable.toNat
  else if (extHeader pf reg).isSome then
    (match extHeader pf reg with
     | none => w
     | some c => patch (patch w 15 0 c.1) 31 20 c.2)
  else if reg = cfgDvsec then patch (patch w 15 0 dvsecVendor) 31 20 dvsecLength
  else if reg = cfgDvsecId then patch w 15 0 dvsecId
  else if pf && decide (cfgVfBars ≤ reg) && decide (reg < cfgVfBars + 24) then barRead p.vfBars ((reg - cfgVfBars) / 4)
  else if reg = cfgMsixTable then 0x00400002#32
  else if reg = cfgMsixPba then 0x00408002#32
  else if reg = cfgSerialLo then Config.moduleSerial.setWidth 32
  else if reg = cfgSerialHi then (Config.moduleSerial >>> 32).setWidth 32
  else if pf && decide (reg = cfgSriovCtl) then patch w 0 0 p.vfEnable.toNat
  else if pf && decide (reg = cfgSriovVfs) then 0x00FF00FF#32
  else if pf && decide (reg = cfgSriovNum) then patch w 15 0 p.numVfs
  else if pf && decide (reg = cfgSriovOffset) then 0x00010001#32
  else if pf && decide (reg = cfgSriovDev) then patch w 31 16 0x0209
  else if pf && (decide (reg = cfgSriovPages) || decide (reg = cfgSriovPage)) then 1#32
  else if cfgWindows ≤ reg && decide (reg < cfgWindows + 64) then BitVec.ofNat 32 (windowWord pf ((reg - cfgWindows) / 4))
  else w

/-- A write of the Command register: memory space, bus master, Interrupt Disable. -/
def writeCommand (f : Nat) (v : BitVec 32) (s : State) : State :=
  let pf := decide (f % 256 = 0)
  let s1 := s.modFunc f (fun x => { x with mse := if pf then v.getLsbD 1 else x.mse, intDisable := pf && v.getLsbD 10 })
  let s2 := setMaster f (v.getLsbD 2) (s1.func f).d3hot s1
  if pf then intUpdate (f / 256) s2 else s2

/-- A write of the MSI-X control word: enable and function mask. -/
def writeMsix (f : Nat) (v : BitVec 32) (s : State) : State :=
  let s1 := refreshFunc (s.modFunc f (fun x => { x with msixEnable := v.getLsbD 31, msixMask := v.getLsbD 30 })) f
  let s2 := if f % 256 = 0 then intUpdate (f / 256) s1 else s1
  sendPending f s2

/-- A write of the Device Control register: Relaxed Ordering, payload and read request sizes, function-level reset. Max_Payload_Size
supported is 1,024 bytes. -/
def writeDevCtl (f : Nat) (v : BitVec 32) (s : State) : State :=
  if v.getLsbD 15 then resetFunc f s
  else s.modFunc f (fun x => { x with relaxed := v.getLsbD 4, mps := min (fld v 7 5) 3, mrrs := min (fld v 14 12) 5 })

/-- A write of the SR-IOV control word: VF Enable and VF Memory Space Enable. -/
def writeSriov (h : Nat) (v : BitVec 32) (s : State) : State :=
  let on := v.getLsbD 0
  let s1 := if (s.port h).vfEnable && !on then clearVfs h s else s.modPort h (fun p => { p with vfEnable := on })
  let vfs := s1.presentVfs h
  refreshLink h (vfs.foldl (fun t f => refreshFunc (t.modFunc f (fun x => { x with mse := v.getLsbD 3 })) f) s1)

/-- A configuration write reaches a doubleword. -/
def configWrite (f reg : Nat) (v : BitVec 32) (s : State) : State :=
  let h := f / 256
  let pf := decide (f % 256 = 0)
  if reg = cfgCommand then writeCommand f v s
  else if pf && decide (cfgBars ≤ reg) && decide (reg < cfgBars + 24) then
    s.modFunc f (fun x => { x with bars := barWrite x.bars ((reg - cfgBars) / 4) v })
  else if pf && decide (reg = cfgRomBar) then s.modFunc f (fun x => { x with bars := Tab.set (fun _ => 0#32) x.bars romBar (v &&& romMask) })
  else if pf && decide (cfgVfBars ≤ reg) && decide (reg < cfgVfBars + 24) then
    s.modPort h (fun p => { p with vfBars := barWrite p.vfBars ((reg - cfgVfBars) / 4) v })
  else if reg = cfgPower then setMaster f (s.func f).bme (decide (fld v 1 0 = 3)) s
  else if reg = cfgDevCtl then writeDevCtl f v s
  else if reg = cfgMsix then writeMsix f v s
  else if pf && decide (reg = cfgSriovCtl) then writeSriov h v s
  else if pf && decide (reg = cfgSriovNum) && !(s.port h).vfEnable then
    refreshLink h (s.modPort h (fun p => { p with numVfs := min (fld v 15 0) 255 }))
  else s

/-- A configuration request (R389): completed once the port is up; one to a function that is not present is an Unsupported Request. -/
def configRequest (f reg : Nat) (wr : Option (BitVec 32)) (s : State) : State :=
  if !(s.port (f / 256)).up then s
  else if !s.present f then s.send (.unsupported f)
  else
    match wr with
    | none => s.send (.config f (configRead f (reg / 4 * 4) s))
    | some v => (configWrite f (reg / 4 * 4) v s).send (.config f 0#32)

/-- CONFIGURATION_REQUEST. -/
def execConfigurationRequest (f : Fin 1024) (reg : Nat) (wr : Option (BitVec 32)) (s : State) : Host.Outcome State Fault Refusal :=
  .next (configRequest f.val reg wr s)

end Sys2Proof.Machine
end

