-- ==== Sys2Proof/Machine/Drain.lean ====
section
/-! DEFINITION. Drains (11_host_ports.md, R402-R411): the host binding of a queue, doorbells, the drain engines' transfers with their
write-backs and notices, and readouts. -/

namespace Sys2Proof.Machine

/-! ## The host binding (R403) -/

/-- Whether the bench of a queue holds `PRIV_DRAIN` (Table 7.1). -/
def State.privDrain (s : State) (q : Nat) : Bool :=
  match ownerOf (s.elN O.Q_OWNER q) with
  | none => false
  | some b => bit (s.el O.BENCH_RIGHTS b) 1

/-- Whether a function may be named for a queue: none, or one bound to the queue's bench. -/
def State.mayBind (s : State) (q f : Nat) : Bool :=
  decide (f = 0x7FF) || (decide (f < 1024) && (s.binding f).isSome && decide (s.binding f = ownerOf (s.elN O.Q_OWNER q)))

/-- A write of `Q_HOST`: its refusals in the order of R403; setting `ENABLE` zeroes the ring's indices. -/
def qHostAct (q : Nat) (v : W64) (s : State) : State × Status :=
  let old := s.el O.Q_HOST q
  let drain := decide (s.qKind q = 1)
  if !s.mayBind q (qhFunc v) || (qhRelaxed v && !s.privDrain q) then (s, .denied)
  else if ((qhEnable v || qhRelaxed v) && !drain) || decide (qhLog2 v < 4) || decide (20 < qhLog2 v) || decide (fld v 63 18 ≠ 0) then
    (s, .invalid)
  else if qhEnable old && (decide (qhFunc v ≠ qhFunc old) || decide (qhLog2 v ≠ qhLog2 old)) then (s, .busy)
  else
    let s1 := noteQueue s q (s.put O.Q_HOST q v)
    (if qhEnable v && !qhEnable old then (s1.setN O.RING_PROD q 0).setN O.HOST_CONS q 0 else s1, .ok)

/-- Q_HOST. -/
def execQHost (via : Via) (q : Nat) (v : W64) (s : State) : Host.Outcome State Fault Refusal :=
  .next (cmdWrite via O.Q_HOST q v (qHostAct q v) s)

/-- Writes of `RING_BASE` and `RING_WB_ADDR`: alignment, and `BUSY` for a change while `ENABLE` is 1. -/
def ringAct (o : ObjInfo) (align q : Nat) (v : W64) (s : State) : State × Status :=
  if v.toNat % align ≠ 0 then (s, .invalid)
  else if qhEnable (s.el O.Q_HOST q) && decide (s.el o q ≠ v) then (s, .busy)
  else (s.put o q v, .ok)

/-! ## Doorbells (R406, R407) -/

/-- The packets in a ring: (`RING_PROD` − `HOST_CONS`) mod 2^32. -/
def State.ringHeld (s : State) (q : Nat) : Nat := (s.elN O.RING_PROD q + 2 ^ 32 - s.elN O.HOST_CONS q) % 2 ^ 32

/-- A doorbell offers a new `HOST_CONS`: accepted within the ring, else discarded and counted. -/
def doorbell (q c : Nat) (s : State) : State :=
  if (c + 2 ^ 32 - s.elN O.HOST_CONS q) % 2 ^ 32 ≤ s.ringHeld q then s.setN O.HOST_CONS q c else s.inc O.DB_REJECTED q

/-- Whether an access has 4 or 8 naturally aligned bytes. -/
def aligned48 (off len : Nat) : Bool := (decide (len = 4) && decide (off % 4 = 0)) || (decide (len = 8) && decide (off % 8 = 0))

/-- A write in W-DBL (Table 11.2, R406): a doorbell of a queue that names the function, an entry of the MSI-X table; any other is
discarded. -/
def dblWrite (f off : Nat) (bytes : List Byte) (s : State) : State :=
  if !aligned48 off bytes.length then s
  else if off < 0x400000 then
    let q := off / 256
    if off % 256 = 0 && decide (s.qFunc q = f) then doorbell q (natLE (bytes.take 4)) s else s
  else if off < 0x408000 then
    let i := (off - 0x400000) / 4
    let s1 := tableWrite f s i (natLE (bytes.take 4))
    if bytes.length = 8 then tableWrite f s1 (i + 1) (natLE (bytes.drop 4)) else s1
  else s

/-- One doubleword of a queue's doorbell entry, as the function that its `HOST_FUNC` names reads it (R406); any other reads zero. -/
def doorbellWord (f q i : Nat) (s : State) : Nat :=
  if !decide (s.qFunc q = f) then 0
  else
    match i with
    | 0 => s.elN O.HOST_CONS q
    | 2 => s.elN O.RING_PROD q
    | 4 => fld (s.qState q) 2 0 + 2 ^ 16 * fld (s.qState q) 31 16
    | _ => 0

/-- One doubleword of the MSI-X table, of the pending bits (R419). -/
def tableWord (f i : Nat) (s : State) : Nat :=
  let x := s.vec f (i / 4)
  match i % 4 with
  | 0 => fld x.addr 31 0
  | 1 => fld x.addr 63 32
  | 2 => x.data.toNat
  | _ => x.masked.toNat
def pendingWord (f i : Nat) (s : State) : Nat := ((List.range 32).map (fun k => if (s.vec f (32 * i + k)).pending then 2 ^ k else 0)).sum

/-- The doubleword at an offset of W-DBL; what lies behind the pending bits is not stated, a free value. -/
def dblWord (f off : Nat) (s : State) : Nat :=
  if off < 0x400000 then doorbellWord f (off / 256) (off % 256 / 4) s
  else if off < 0x408000 then tableWord f ((off - 0x400000) / 4) s
  else if off < 0x408100 then pendingWord f ((off - 0x408000) / 4) s
  else fld s.freeNext 31 0

/-- A read in W-DBL: 4 or 8 naturally aligned bytes, any other an Unsupported Request (R399). -/
def dblRead (f off len : Nat) (s : State) : State :=
  if !aligned48 off len then s.send (.unsupported f)
  else
    let hi := if len = 8 then bytesLE 4 (dblWord f (off + 4) s) else []
    (if 0x408100 ≤ off then s.drawn else s).send (.storeData f (bytesLE 4 (dblWord f off s) ++ hi))

/-- A request in W-DBL is performed. -/
def dblNow (f off : Nat) (acc : DblAccess) (s : State) : State :=
  match acc with
  | .write bytes => dblWrite f off bytes s
  | .read len => dblRead f off len s

/-- A request in W-DBL: a posted write of the function, or a read. -/
def dblRequest (f off : Nat) (acc : DblAccess) (s : State) : State :=
  match acc with
  | .write _ => postedWrite f (.doorbell off acc) (dblNow f off acc) s
  | .read _ => windowRead f (.doorbell off acc) (dblNow f off acc) s

/-- DB_CONS. -/
def execDbCons (f : Fin 1024) (off : Nat) (bytes : DblAccess) (s : State) : Host.Outcome State Fault Refusal :=
  .next (dblRequest f.val off bytes s)

/-! ## Transfers (R287, R402, R404, R405, R409) -/

/-- The bytes of a packet that is being filled which are written by now (R190). -/
def State.bytesSoFar (s : State) (q : Nat) : List Byte :=
  let ws := (s.stream (qSource (s.el O.Q_CONFIG q))).cell
  bytesLE (5 * ws.length) (packWords ws)

/-- Whether the packet being filled may be started on (R287): it stands at the head, and its threshold is reached. -/
def State.cutReady (s : State) (q : Nat) : Bool :=
  let k := qCutThrough (s.el O.Q_CONFIG q)
  decide (0 < k) && (s.queue q).pkts.isEmpty && s.linksFilling q && !(s.queue q).flushing
    && decide (64 * k ≤ (s.bytesSoFar q).length) && decide ((s.queue q).sent < (s.bytesSoFar q).length)

/-- Whether a queue of a port is ready to transfer: not in `MASTER_OFF` (a transfer begun before `ENABLE` was cleared finishes, R403),
room in its ring, and a packet. -/
def State.drainReady (s : State) (h q : Nat) : Bool :=
  decide (s.qKind q = 1) && decide (s.qFunc q / 256 = h) && !(s.queue q).resetting
    && (!s.masterOff q || ((s.queue q).inTransfer && s.mayMaster (s.qFunc q)))
    && decide (s.ringHeld q < 2 ^ qhLog2 (s.el O.Q_HOST q)) && (!(s.queue q).pkts.isEmpty || s.cutReady q)

/-- The bench `PRIORITY` of a queue. -/
def State.queuePriority (s : State) (q : Nat) : Nat :=
  match ownerOf (s.elN O.Q_OWNER q) with
  | none => 0
  | some b => s.elN O.PRIORITY b

/-- The queues with a host binding. -/
def State.boundQueues (s : State) : List Nat :=
  (Tab.keysIn s.elems (O.Q_HOST.key 0) (O.Q_HOST.key 16384)).map (fun k => k - O.Q_HOST.key 0)

/-- Whether a port's engine has begun a packet of a queue, and may go on with it. -/
def State.drainBegun (s : State) (h q : Nat) : Bool :=
  decide (s.qFunc q / 256 = h) && (s.queue q).inTransfer && !(s.queue q).resetting && s.mayMaster (s.qFunc q)

/-- The queue a port's engine picks (R409): a packet it has begun keeps the engine, complete or not (R299), also while none of its bytes
waits; then the highest `PRIORITY`, then rotation by number. -/
def drainPick (h : Nat) (s : State) : Option Nat :=
  let ready := s.boundQueues.filter (fun q => s.drainReady h q)
  match s.boundQueues.find? (fun q => s.drainBegun h q) with
  | some q => if s.drainReady h q then some q else none
  | none =>
    let key (q : Nat) : Nat :=
      (7 - s.queuePriority q) * 16384 + (q + 16383 - lookupNat 16383 (s.port h).rotor (s.queuePriority q)) % 16384
    match ready with
    | [] => none
    | q :: t => some (t.foldl (fun m x => if key x < key m then x else m) q)

/-- Whether a queue's data writes carry Relaxed Ordering (R402). -/
def State.relaxedNow (s : State) (q : Nat) : Bool :=
  let b := s.elN O.Q_OWNER q
  qhRelaxed (s.el O.Q_HOST q) && s.privDrain q && (decide (b = 0) || decide (s.mode.exclusive = some b)) && (s.func (s.qFunc q)).relaxed

/-- Bytes are written to host memory in ascending order, each write at most Max_Payload_Size; `n` bounds their number. -/
def hostWrites (f : Nat) (relaxed : Bool) : Nat → Nat → List Byte → State → State
  | 0, _, _, s => s
  | n + 1, addr, bs, s =>
    if bs.isEmpty then s
    else
      let k := (s.func f).payload
      hostWrites f relaxed n (addr + k) (bs.drop k) (s.send (.hostWrite f addr (bs.take k) relaxed))

/-- The address of the ring slot that the head packet goes to. -/
def State.slotAddr (s : State) (q : Nat) : Nat :=
  s.elN O.RING_BASE q + 1024 * (s.elN O.RING_PROD q % 2 ^ qhLog2 (s.el O.Q_HOST q))

/-- Data of the head packet go into its slot, from what was sent before on. -/
def sendData (q : Nat) (bs : List Byte) (s : State) : State :=
  let k := (s.queue q).sent
  hostWrites (s.qFunc q) (s.relaxedNow q) 1024 (s.slotAddr q + k) (bs.drop k) s

/-- The write-back of a queue (R404 step 3). -/
def writeBack (q : Nat) (s : State) : State :=
  let a := s.elN O.RING_WB_ADDR q
  if a = 0 then s
  else s.send (.hostWrite (s.qFunc q) a (bytesLE 4 (s.elN O.RING_PROD q) ++ bytesLE 4 (s.elN O.Q_LOST q % 2 ^ 32)) false)

/-- The rotation of a port's engine after a pick. -/
def noteDrain (h q : Nat) (s : State) : State :=
  let p := s.queuePriority q
  s.modPort h (fun x => { x with rotor := (p, q) :: x.rotor.filter (fun y => !decide (y.1 = p)) })

/-- A picked queue transfers: its complete head packet whole, with indices, write-back and notice, releasing its link slot; or, under
cut-through, what is written of the packet being filled. -/
def transfer (q : Nat) (s : State) : State :=
  let x := s.queue q
  match x.pkts with
  | id :: rest =>
    let s1 := sendData q (s.packet id).bytes s
    let s2 := s1.setQueue q { x with pkts := rest, inTransfer := false, sent := 0 }
    let s3 := advIndex O.Q_CONS q 1 (advIndex O.RING_PROD q 1 s2)
    releaseLink id (postNotice q (s.packet id).notice (writeBack q s3))
  | [] =>
    let bs := s.bytesSoFar q
    (sendData q bs s).setQueue q { x with inTransfer := true, sent := bs.length }

/-- The bytes that a transfer of a queue moves. -/
def State.transferBytes (s : State) (q : Nat) : Nat :=
  (match (s.queue q).pkts with
    | id :: _ => (s.packet id).bytes.length
    | [] => (s.bytesSoFar q).length) - (s.queue q).sent

/-- Under drain throttle an engine transfers at most 60 GB/s (R475): a transfer starts when the bytes of those before have had their
time. -/
def drainPace (h n : Nat) (s : State) : State :=
  if s.health.drainThrottle then
    let t := advanceTo (s.port h).paceUntil s
    t.modPort h (fun x => { x with paceUntil := t.clock + (n * ns + 59) / 60 })
  else s

/-- One pick of a port's drain engine. -/
def drainOnce (h : Nat) (s : State) : State :=
  match drainPick h s with
  | none => s
  | some q => transfer q (noteDrain h q (drainPace h (s.transferBytes q) s))

/-- DRAIN_TRANSFER. -/
def execDrainTransfer (h : Fin 4) (s : State) : Host.Outcome State Fault Refusal := .next (drainOnce h.val s)

/-! ## Readout (R410, R411) -/

/-- The fields of `READOUT_RANGE`. -/
def rangeFirst (w : W64) : Nat := fld w 18 0
def rangeCount (w : W64) : Nat := fld w 38 19

/-- A write of 1 to `READOUT_CMD`. -/
def readoutStartAct (q : Nat) (s : State) : State × Status :=
  let b := s.elN O.Q_OWNER q
  let w := s.el O.READOUT_RANGE q
  let drain := decide (s.qKind q = 1)
  if drain && ((s.stream (qSource (s.el O.Q_CONFIG q))).open_ || decide (s.readoutState q = readoutRunning)) then (s, .busy)
  else if !drain || decide (rangeCount w < 1) || decide ((s.dir b).length < rangeFirst w + rangeCount w) then (s, .invalid)
  else
    ((s.setN O.READOUT_STATUS q readoutRunning).modQueue q (fun x =>
      { x with readAt := some (rangeFirst w, 0, rangeFirst w + rangeCount w) }), .ok)

/-- READOUT_START. -/
def execReadoutStart (via : Via) (q : Nat) (s : State) : Host.Outcome State Fault Refusal :=
  .next (cmdWrite via O.READOUT_CMD q 1#64 (readoutStartAct q) s)

/-- A write of 2 to `READOUT_CMD`: a running readout stops; the cell being read has been entered by the step that read it. -/
def readoutStopAct (q : Nat) (s : State) : State × Status :=
  if s.readoutState q = readoutRunning then (setReadout q readoutStopped (s.modQueue q (fun x => { x with readAt := none })), .ok)
  else (s, .ok)

/-- READOUT_STOP. -/
def execReadoutStop (via : Via) (q : Nat) (s : State) : Host.Outcome State Fault Refusal :=
  .next (cmdWrite via O.READOUT_CMD q 2#64 (readoutStopAct q) s)

/-- The next cell of a readout from a place on: positions `UNUSED` and cells beyond `CELLS` are passed; `n` bounds the positions. -/
def nextCell (b : Nat) (s : State) : Nat → Nat → Nat → Nat → Option (Nat × Nat)
  | 0, _, _, _ => none
  | n + 1, pos, cell, stop =>
    if stop ≤ pos then none
    else
      let e := (s.dir b).getD pos { ingot := 0 }
      if e.state ≠ 0 && decide (cell < e.cells) then some (pos, cell) else nextCell b s n (pos + 1) 0 stop

/-- A readout ends. -/
def readoutEnds (q v : Nat) (s : State) : State := setReadout q v (s.modQueue q (fun x => { x with readAt := none }))

/-- A cell that was read enters the queue in a host staging packet; the readout ends with the last one. A
read that a frozen controller met enters nothing, and its packet is released. -/
def enterCell (b q pos cell stop id : Nat) (errs : List Nat) (s : State) : State :=
  let e := (s.dir b).getD pos { ingot := 0 }
  let s0 := fetchCell e.ingot cell errs (settleCell e.ingot cell s)
  if s0.frozenAt (s0.readRank e.ingot cell) then releaseLink id s0
  else
    let r := readCell e.ingot cell s0
    let t := r.2.setPacket id { r.2.packet id with bytes := r.1, complete := true }
    let s1 := if (t.queue q).flushing then discardNew q id t else enterQueue q id t
    let w := s1.el O.READOUT_STATUS q
    let s2 := s1.setEl O.READOUT_STATUS q (setFld w 63 32 ((fld w 63 32 + 1) % 2 ^ 32))
    match nextCell b s2 (stop + 1 - pos) pos (cell + 1) stop with
    | none => readoutEnds q readoutDone s2
    | some (p, c) => s2.modQueue q (fun x => { x with readAt := some (p, c, stop) })

/-- Whether a readout waits: its queue is full or being reset, its function may issue nothing (R414), or the store takes no read. -/
def State.readoutWaits (s : State) (q : Nat) : Bool :=
  let x := s.queue q
  x.resetting || decide (qCapacity (s.el O.Q_CONFIG q) ≤ x.pkts.length) || !s.storeTakes
    || (s.present (s.qFunc q) && !s.mayMaster (s.qFunc q))

/-- The next cell of a running readout (R411). -/
def readoutStep (q : Nat) (errs : List Nat) (s : State) : State :=
  let b := s.elN O.Q_OWNER q
  match (s.queue q).readAt with
  | none => s
  | some (pos, cell, stop) =>
    match nextCell b s (stop + 1 - pos) pos cell stop with
    | none => readoutEnds q readoutDone s
    | some (p, c) =>
      let e := (s.dir b).getD p { ingot := 0 }
      if s.readoutWaits q || s.frozenAt (s.readRank e.ingot c) then s
      else
        match allocPacket (stagingPacket b) .hostStaging 0 4 (toService s) with
        | (none, t) => t
        | (some id, t) => refreshStore (enterCell b q p c stop id errs t)

/-- READOUT_CELL. -/
def execReadoutCell (q : ReadoutCell) (s : State) : Host.Outcome State Fault Refusal := .next (readoutStep q.q.val q.errs s)

end Sys2Proof.Machine
end

