-- ==== Sys2Proof/Machine/Swage.lean ====
section
/-! DEFINITION. The lane aligner and the group router (02_sample_rows.md): missing parts (R62), the forming and emission of rows
(R59-R65), what a slot of rows does to condition units, sequencers, engines and benches (R64, R69-R75, R83, R125, R149-R153), stalled
lanes (R66), and tile power (R76-R80). -/

namespace Sys2Proof.Machine

/-! ## Parts of a row (R59-R62) -/

/-- The part of a row that a lane holds, with all its words. -/
def Lane.partOf (x : Lane) (design : W64) (d : Nat) (stamp : W40) : Option Part :=
  x.parts.find? (fun p => decide (p.design = design) && decide (p.dclk = d) && decide (p.stamp = stamp) && !p.lost)

/-- The part of a row that a lane has delivered, before it left `ALIGNED` or since it joined (log entry 55). -/
def State.partAt (s : State) (l : Nat) (design : W64) (d : Nat) (stamp : W40) : Option Part :=
  match (s.lane l).partOf design d stamp with
  | some p => some p
  | none => (s.leftParts.find? (fun q => decide (q.1 = l) && decide (q.2.design = design) && decide (q.2.dclk = d)
      && decide (q.2.stamp = stamp))).map Prod.snd

/-- The parts of a domain that wait. -/
def State.waitingParts (s : State) (design : W64) : List Part :=
  (s.alignedLanes design).flatMap (fun l => (s.lane l).parts.filter (fun p => decide (p.design = design) && !p.lost))
    ++ (s.leftParts.map Prod.snd).filter (fun p => decide (p.design = design))

/-- The time of a row: the earliest among its delivered parts, those that a join time excludes from it among them (R56, R60). -/
def State.timeOfRow (s : State) (design : W64) (d : Nat) (stamp : W40) : Option Int :=
  let ts := ((s.waitingParts design).filter (fun p => decide (p.dclk = d) && decide (p.stamp = stamp))).map (fun p => p.time)
    ++ (s.alignedLanes design).flatMap (fun l =>
      ((s.lane l).early.filter (fun q => decide (q.1 = d) && decide (q.2.1 = stamp))).map (fun q => q.2.2))
  if ts.isEmpty then none else some (minInt ts)

/-- The rows of a domain of which a part waits: clock, stamp and row time (R60). -/
def State.waitingRows (s : State) (design : W64) : List (Nat × W40 × Int) :=
  let keys := (s.waitingParts design).foldl (fun (ks : List (Nat × W40)) p => addNew ks (p.dclk, p.stamp)) []
  keys.filterMap (fun k => (s.timeOfRow design k.1 k.2).map (fun t => (k.1, k.2, t)))

/-- The row time of a row, where one of its parts waits (R65). -/
def State.rowTime (s : State) (design : W64) (d : Nat) (stamp : W40) : Option Int :=
  ((s.waitingRows design).find? (fun k => decide (k.1 = d) && decide (k.2.1 = stamp))).map (fun k => k.2.2)

/-- The expected lanes of a clock for a row of time t: `ALIGNED` lanes that carry it, or hold a part of it decoded with an earlier map
(R21), and have joined by then, and lanes that carried it and left (R56, R59). -/
def State.expectedLanes (s : State) (design : W64) (d : Nat) (t : Int) : List Nat :=
  s.knownLanes.filter (fun l =>
    let x := s.lane l
    if s.isAligned l && decide (s.laneDesign l = some design)
        && (x.map.hasClock d || x.parts.any (fun p => decide (p.design = design) && decide (p.dclk = d) && !p.lost)) then
      (match x.joinTime with | none => true | some j => decide (j ≤ t))
    else x.leftClocks.any (fun p => decide (p.1 = design) && decide (p.2.1 = d)))

/-- Whether the part of a row is missing on an expected lane (R62); one delivered before the lane left `ALIGNED` is not. -/
def State.partLost (s : State) (design : W64) (l d : Nat) (stamp : W40) (t : Int) : Bool :=
  let x := s.lane l
  (s.partAt l design d stamp).isNone
    && (!s.isAligned l || !decide (s.laneDesign l = some design)
      || (x.parts.any (fun p => decide (p.design = design) && decide (p.dclk = d) && decide (p.stamp = stamp) && p.lost)
        || x.lastStamp.any (fun p => decide (p.1 = d) && stampLater p.2 stamp)
        || x.missCounted.contains (d, stamp)
        || decide (t + ((s.elN O.ROW_WAIT_NS 0 * ns : Nat) : Int) < x.watermark (s.latency l))))

/-- The module finds the part of a row missing on a lane: it is counted once. -/
def partMissing (l d : Nat) (stamp : W40) (s : State) : State :=
  let ds := (s.lane l).leftClocks.map (fun p => p.1) ++ (s.laneDesign l).toList
  match ds.find? (fun z => match s.rowTime z d stamp with
      | none => false
      | some t => (s.expectedLanes z d t).contains l && s.partLost z l d stamp t) with
  | none => s
  | some _ => countMissing l d stamp s

/-- PART_MISSING. -/
def execPartMissing (l : Fin 256) (d : Fin 256) (stamp : W40) (s : State) : Host.Outcome State Fault Refusal :=
  .next (partMissing l.val d.val stamp s)

/-! ## Emission (R61, R63, R64) -/

/-- Whether the domain watermark has reached a row time; without an `ALIGNED` lane it counts as reached (R63). -/
def State.watermarkAt (s : State) (design : W64) (t : Int) : Bool :=
  (s.alignedLanes design).all (fun l => decide (t ≤ (s.lane l).watermark (s.latency l)))

/-- Whether a row comes before another: an earlier row time, or the lower clock of one slot. -/
def rowBefore (a b : Nat × W40 × Int) : Bool := decide (a.2.2 < b.2.2) || (decide (a.2.2 = b.2.2) && decide (a.1 < b.1))

/-- Whether the swage may emit a row: every expected part is there or missing, the watermark has reached its time, and every earlier
row is out. -/
def State.rowReady (s : State) (design : W64) (d : Nat) (stamp : W40) (t : Int) : Bool :=
  (s.expectedLanes design d t).all (fun l => (s.partAt l design d stamp).isSome || s.partLost design l d stamp t)
    && s.watermarkAt design t && !(s.waitingRows design).any (fun k => rowBefore k (d, stamp, t))

/-- A clock's list of groups on a lane, for rows of a design: that of its current map, or of the map it had when it left. -/
def State.clockGroups (s : State) (design : W64) (l d : Nat) : List Nat :=
  if s.laneDesign l = some design && (s.lane l).map.hasClock d then (s.lane l).map.groupsOf d
  else (((s.lane l).leftClocks.find? (fun p => decide (p.1 = design) && decide (p.2.1 = d))).map (fun p => p.2.2)).getD []

/-- The words of one lane's part, in the order of the list it was decoded with (R21); a missing part has none, and a group in the maps of
two lanes is not delivered (R23). -/
def State.laneWords (s : State) (design : W64) (d : Nat) (stamp : W40) (l : Nat) : List RowWord :=
  let p := s.partAt l design d stamp
  let gs := match p with
    | some q => q.groups
    | none => s.clockGroups design l d
  gs.mapIdx (fun i g =>
    { group := g, lane := l, word := if s.groupConflict g then none else p.bind (fun q => q.words[i]?) })

/-- The row as it is emitted: `INCOMPLETE` where a part is missing (R65) or a group of it stands in two maps (R23); the benches that hold
a lane of it do so from here on (R75). -/
def State.formRow (s : State) (design : W64) (d : Nat) (stamp : W40) (t : Int) : Row :=
  let ls := s.expectedLanes design d t
  let ws := ls.flatMap (s.laneWords design d stamp)
  { design := design, dclk := d, stamp := stamp, time := t,
    incomplete := ls.any (fun l => s.partLost design l d stamp t) || ws.any (fun w => s.groupConflict w.group),
    words := ws, off := (List.range 16).filter (fun k => !s.tileOn k),
    held := s.armedBenches.flatMap (fun b => ((s.bench b).withheld.filter (fun l => ls.contains l)).map (fun l => (b, l))) }

/-- The missing parts of a row are counted on their lanes (R62); a lane that is not `ALIGNED` keeps no note of it. -/
def countParts (design : W64) (d : Nat) (stamp : W40) (t : Int) (s : State) : State :=
  ((s.expectedLanes design d t).filter (fun l => s.partLost design l d stamp t)).foldl (fun u l =>
    let v := countMissing l d stamp u
    if v.isAligned l then v
    else v.modLane l (fun x => { x with missCounted := x.missCounted.filter (fun k => !decide (k = (d, stamp))) })) s

/-- What a lane has noted of missing parts of rows that are out, and whose words it has left behind. -/
def dropNotes (design : W64) (d : Nat) (stamp : W40) (l : Nat) (s : State) : State :=
  let x := s.lane l
  let old (k : Nat × W40) : Bool := decide (s.laneDesign l = some design) && decide (k.1 = d) && stampLater stamp k.2
    && x.lastStamp.any (fun p => decide (p.1 = d) && stampLater p.2 k.2)
  if x.missCounted.any old then s.modLane l (fun y => { y with missCounted := y.missCounted.filter (fun k => !old k) }) else s

/-- Deskew space of a row's parts is freed on every lane, with what is noted of lost and excluded parts up to it (R26). -/
def freeParts (design : W64) (d : Nat) (stamp : W40) (s : State) : State :=
  let s1 : State := { s with leftParts := s.leftParts.filter (fun q =>
    !(decide (q.2.design = design) && decide (q.2.dclk = d) && decide (q.2.stamp = stamp))) }
  s1.knownLanes.foldl (fun u l =>
    let gone (p : Part) : Bool := decide (p.design = design) && decide (p.dclk = d) && (decide (p.stamp = stamp) || (p.lost && stampLater stamp p.stamp))
    let past (q : Nat × W40 × Int) : Bool := decide (u.laneDesign l = some design) && decide (q.1 = d) && stampLater stamp q.2.1
    let v := dropNotes design d stamp l u
    let w := if (v.lane l).parts.any gone || (v.lane l).early.any past then
        v.modLane l (fun x => { x with parts := x.parts.filter (fun p => !gone p), early := x.early.filter (fun q => !past q) })
      else v
    if (v.lane l).parts.any gone || decide ((s.leftOf l).length ≠ (s1.leftOf l).length) then creditAfterFree l w else w) s1

/-- A word that an assay engine of another bench lists is held back from it and counted (R73, R74). -/
def refuseEngines (g owner : Nat) (s : State) : State :=
  (List.range 4).foldl (fun u a =>
    match u.aeBench a with
    | none => u
    | some b =>
      if aeEnable (u.el O.AE_CONFIG a) && (u.aeGroups a).contains g && decide (owner ≠ b) then u.inc O.ROUTE_REFUSED b else u) s

/-- `ROWS_EMITTED`, `ROWS_INCOMPLETE`, `UNOWNED_WORDS` (R74), the words held back from engines (R73), and the discards of words bound for
streams on tiles that are not `ON` (R77). -/
def countRow (r : Row) (s : State) : State :=
  let s1 := s.inc O.ROWS_EMITTED r.dclk
  let s2 := if r.incomplete then s1.inc O.ROWS_INCOMPLETE r.dclk else s1
  (r.words.filter (fun w => w.word.isSome)).foldl (fun u w =>
    let t := w.lane / 16
    let b := u.elN O.GROUP_OWNER w.group
    if b = noBench then u.inc O.UNOWNED_WORDS t
    else
      let v := refuseEngines w.group b u
      if r.off.contains t && v.takesRow b r && (v.stream (16 * b + t)).open_ then v.inc O.GATED_DISCARD t else v) s2

/-- The latest emitted row of a clock of a design. -/
def noteRow (r : Row) (s : State) : State :=
  { s with lastRow := ((r.design, r.dclk), (r.stamp, r.time)) :: s.lastRow.filter (fun p => !decide (p.1 = (r.design, r.dclk))) }

/-! ## What a slot does to a bench -/

/-- The armed benches of a domain, ascending. -/
def State.benchesIn (s : State) (design : W64) : List Nat :=
  s.armedBenches.filter (fun b => decide ((s.bench b).triple.map Prod.fst = some design))

/-- An end that awaits the bench takes effect before a slot whose first row is given: a bench fault (R253), or a scheduled disarm whose
last row is behind (R155). -/
def endsBefore (row : RowKey) (s : State) (b : Nat) : State :=
  let s1 := faultAtRow b row s
  match (s1.bench b).stopAt with
  | none => s1
  | some k => if s1.isArmed b && decide (k ≤ row.2.2) then scheduledDisarmNow b s1 else s1

/-- Whether a bench's pending commit takes effect from a row (R149, R151). -/
def State.commitsOn (s : State) (b : Nat) (r : Row) : Bool :=
  let x := s.bench b
  s.running b && x.commitSeen && (match x.commit with
    | none => false
    | some (d, st) =>
      if x.commitLate then !x.commitSkip.contains (r.dclk, r.stamp) else decide (r.dclk = d) && atOrAfter r.stamp st)

/-- The units whose history a commit of the bench clears (R104). -/
def State.historyUnits (s : State) (b : Nat) : List Nat :=
  (s.unitsOf b).filter (fun c =>
    cuHistoryChange (s.el O.CU_CONFIG c) (s.view O.CU_CONFIG c) || decide (s.el O.CU_GROUP c ≠ s.view O.CU_GROUP c))

/-- The condition units of a bench take their new settings. -/
def commitUnits (b : Nat) (s : State) : State :=
  let hs := s.historyUnits b
  hs.foldl (fun t c => cuReset c t) (applyCopies (s.benchShadows shadowedCu b) s)

/-- A commit takes effect on a row: the remaining settings, and `COMMIT_STATUS` with the row's stamp and clock (R151-R153). -/
def commitRest (b : Nat) (r : Row) (s : State) : State :=
  let st := if (s.bench b).commitLate then 3 else 2
  let s1 := applyCopies (s.benchShadows (shadowedCu ++ shadowedSq ++ shadowedAcq) b) s
  let w := setFld (setFld (setFld (s1.el O.COMMIT_STATUS b) 2 0 st) 47 8 r.stamp.toNat) 55 48 r.dclk
  refreshDirty b ((s1.setEl O.COMMIT_STATUS b w).modBench b (fun x =>
    { x with commit := none, commitSeen := false, commitLate := false, commitSkip := [] }))

/-- The settings and the status of a bench's units as they stand in another state; no change counter advances. -/
def takeUnits (b : Nat) (src s : State) : State :=
  { s with elems := (src.unitsOf b).foldl (fun m c =>
      [O.CU_CONFIG, O.CU_EXPORT, O.CU_STATUS].foldl (fun n o => Tab.set elemDefault n (o.key c) (src.el o c)) m) s.elems }

/-- The condition units look at the rows of a slot, in order; a bench whose commit takes effect on a row evaluates it and the rows after
it with the new settings. -/
def slotUnits (design : W64) : List Row → State → State
  | [], s => s
  | r :: t, s =>
    let s1 := ((s.benchesIn design).filter (fun b => s.commitsOn b r)).foldl (fun u b => commitUnits b u) s
    slotUnits design t (cuRows r s1)

/-- The benches whose commit takes effect within a slot present their units under the old settings to the rows of the slot before it
(R149, log entry 144). -/
def oldUnits (design : W64) (rows : List Row) (before s : State) : State :=
  let bs := (before.benchesIn design).filter (fun b => rows.any (fun r => before.commitsOn b r))
  if bs.isEmpty then s
  else
    let old := rows.foldl (fun t r => cuRows r t) before
    bs.foldl (fun t b => takeUnits b old t) s

/-- Whether the bit of `ALIGN_COND` is 1 (R227). -/
def State.anchorBit (s : State) (a : Nat) : Bool := condBit 0 (aeCond (s.el O.AE_CONFIG a)) s

/-- A row of its clock reaches an engine of a bench (R226-R228): the anchor sets S0, and from the first row at or past S0 on every row
waits for its comparison.
A row that the bench does not take leaves an engine `MISSED` once it lies at or past S0. -/
def engineTakes (b : Nat) (r : Row) (taken : Bool) (s : State) (a : Nat) : State :=
  let c := s.el O.AE_CONFIG a
  if !s.aeLive a || decide (aeDclk c ≠ r.dclk) then s
  else if taken then
    let e := s.engine a
    let z := match e.s0 with
      | some z => some z
      | none => if aeByCond c && s.anchorBit a then
          some (r.stamp + (s.el O.ALIGN_OFFSET a).setWidth 40) else none
    let due := e.begun || (match z with
      | some k => atOrAfter r.stamp k
      | none => false)
    s.setEngine a { e with s0 := z, begun := due, rows := if due then e.rows ++ [r] else e.rows }
  else
    match (s.engine a).s0 with
    | some k =>
      if s.isArmed b && decide (s.elN O.AE_STATE a = aeAligning) && atOrAfter r.stamp k then dropAhead a (s.setN O.AE_STATE a aeMissed) else s
    | none => s

/-- The lead sequencer of a bench, where it has one. -/
def State.leadSq (s : State) (b : Nat) : Option Nat := (s.enabledSqs b).head?

/-- One bench and one row it takes: its sequencers step, its engines receive the row, and what they decide waits for the engines'
verdicts. The answer is the pin operations. -/
def benchRow (b : Nat) (r0 : Row) (first : Bool) (s : State) : List (Nat × Nat) × State :=
  let r := r0.forBench b
  let lead := s.lead b
  let leadStep := match s.leadSq b with
    | none => false
    | some q => (s.stepping b r).contains q
  let holdBit := match s.leadSq b with
    | none => false
    | some q => selBit q (s.elN O.HOLDOFF_SEL b) r.time [] false s
  let x := stepBench b r s
  let s1 := x.2
  let d : RowDec :=
    { row := r, acts := x.1.acts, post := (s1.el O.POST_COUNT b).setWidth 40, hold := s1.holdoff b, leadStep := leadStep,
      holdBit := holdBit, slotStart := first, lead := lead, pre := s1.elN O.PRE_COUNT b, sync := s1.elN O.SYNC_INTERVAL b }
  let s2 := s1.modBench b (fun y => { y with undecided := y.undecided ++ [d] })
  (x.1.pins, (s2.enabledEngines b).foldl (engineTakes b r true) s2)

/-- The benches of a domain and one row of a slot; `first` says whether it is the first of the slot that the bench takes, `new` is the
state in which the units have taken the whole slot. -/
def slotRow (new : State) (r : Row) (first : Bool) (p : List (Nat × Nat) × State) : List (Nat × Nat) × State :=
  (p.2.benchesIn r.design).foldl (fun (q : List (Nat × Nat) × State) b =>
    let s1 := if q.2.commitsOn b r then commitRest b r (takeUnits b new q.2) else q.2
    if s1.takesRow b r then
      let x := benchRow b r first s1
      (q.1 ++ x.1, x.2)
    else (q.1, (s1.enabledEngines b).foldl (engineTakes b r false) s1)) p

/-- The benches and the rows of a slot, in order. -/
def slotBenches (new : State) : List Row → Bool → List (Nat × Nat) × State → List (Nat × Nat) × State
  | [], _, p => p
  | r :: t, first, p => slotBenches new t false (slotRow new r first p)

/-- A whole slot reaches its subscribers: the units, then the benches; the pins take the slot's operations together (R135), and every
slot of the benches that can be decided is; in `QUIESCE` it is the last one (R206). -/
def runSlot (design : W64) (rows : List Row) (s : State) : State :=
  if rows.isEmpty then s
  else
    let new := slotUnits design rows s
    let x := slotBenches new rows true ([], oldUnits design rows s new)
    let s2 := (List.range 4).foldl (fun t n =>
      applyPinOps n ((x.1.filter (fun p => decide (p.1 = n))).map Prod.snd) t) x.2
    let s3 := (s2.benchesIn design).foldl (fun t b => settle b t) s2
    (s3.benchesIn design).foldl (fun t b => quiesceAfterRow b t) s3

/-- The rows of a domain's slot in emission. -/
def State.slotOf (s : State) (design : W64) : List Row :=
  ((s.slots.find? (fun p => decide (p.1 = design))).map Prod.snd).getD []

/-- The slot in emission takes a value; an empty one is not listed. -/
def setSlot (design : W64) (rows : List Row) (s : State) : State :=
  let rest := s.slots.filter (fun p => !decide (p.1 = design))
  { s with slots := if rows.isEmpty then rest else rest ++ [(design, rows)] }

/-- The slot in emission is complete. -/
def closeSlot (design : W64) (s : State) : State := runSlot design (s.slotOf design) (setSlot design [] s)

/-- A row leaves the swage. A slot reaches its subscribers once no row of its time is left (R64). -/
def rowEmit (design : W64) (d : Nat) (stamp : W40) (s : State) : State :=
  match s.rowTime design d stamp with
  | none => s
  | some t =>
    if !s.rowReady design d stamp t then s
    else
      let s0 := if (s.slotOf design).any (fun r => decide (r.time ≠ t)) then closeSlot design s else s
      let u := if (s0.slotOf design).isEmpty then (s0.benchesIn design).foldl (endsBefore (d, stamp, t)) s0 else s0
      let r := u.formRow design d stamp t
      let s1 := noteRow r (countRow r (freeParts design d stamp (countParts design d stamp t u)))
      let s2 := setSlot design (s1.slotOf design ++ [r]) s1
      if (s2.waitingRows design).any (fun k => decide (k.2.2 = t)) then s2 else closeSlot design s2

/-- ROW_EMIT. -/
def execRowEmit (design : W64) (d : Fin 256) (stamp : W40) (s : State) : Host.Outcome State Fault Refusal :=
  .next (rowEmit design d.val stamp s)

/-! ## Stalled lanes (R66) -/

/-- 200 ns without a codeword: an `ALIGNED` lane becomes `STALLED`. -/
def stalled (l : Nat) (s : State) : State :=
  if s.isAligned l then leaveAligned l .stalled (advanceTo ((s.lane l).lastCwClock + 200 * ns) s) else s

/-- STALLED. -/
def execStalled (l : Fin 256) (s : State) : Host.Outcome State Fault Refusal := .next (stalled l.val s)

/-! ## Tile power (R76-R80, R472) -/

/-- `TILE_STATE` values (Table 2.3). -/
def tileGating : Nat := 1
def tileIsGated : Nat := 2
def tileUngating : Nat := 3

/-- Whether an armed bench uses a tile: an armed sequencer or an enabled unit on it, or an open stream there. -/
def State.tileUsed (s : State) (t : Nat) : Bool :=
  s.armedBenches.any (fun b => (s.enabledSqs b).any (fun q => decide (sqTile q = t))
    || (s.enabledUnitsOf b).any (fun c => decide (cuTile c = t)) || (s.stream (16 * b + t)).open_)

/-- The sequence of R76 starts; a tile that is `GATED` stays so (DESIGN CHOICE, log entry 140). -/
def gateTile (t : Nat) (s : State) : State :=
  let s1 : State := { s with tileTurn := s.tileTurn.filter (fun k => !decide (k = t)) }
  if s1.elN O.TILE_STATE t = tileIsGated then s1 else s1.setN O.TILE_STATE t tileGating

/-- A tile returns to `ON` (R80): at once to `UNGATING` where it is `GATED`, after the gating where that runs. In `SAFE` it stays
gated (R461). -/
def ungateTile (t : Nat) (s : State) : State :=
  if s.mode.safe then s
  else if s.elN O.TILE_STATE t = tileIsGated then s.setN O.TILE_STATE t tileUngating
  else if s.elN O.TILE_STATE t = tileGating then { s with tileTurn := addNew s.tileTurn t }
  else s

/-- A write of `TILE_POWER`: 0 `ON`, 1 `GATED`. A fenced tile stays off (R472, log entry 30). -/
def tilePowerAct (t : Nat) (v : W64) (s : State) : State × Status :=
  if v = 1#64 then (if s.tileUsed t then (s, .busy) else (gateTile t (s.put O.TILE_POWER t v), .ok))
  else
    let s1 := s.put O.TILE_POWER t v
    (if s1.elB O.TILE_FENCED t then s1 else ungateTile t s1, .ok)

/-- TILE_GATE. -/
def execTileGate (via : Via) (tile : Nat) (s : State) : Host.Outcome State Fault Refusal :=
  .next (cmdWrite via O.TILE_POWER tile 1#64 (tilePowerAct tile 1#64) s)

/-- TILE_UNGATE. -/
def execTileUngate (via : Via) (tile : Nat) (s : State) : Host.Outcome State Fault Refusal :=
  .next (cmdWrite via O.TILE_POWER tile 0#64 (tilePowerAct tile 0#64) s)

/-- The gating of a tile ends. -/
def tileGated (t : Nat) (s : State) : State :=
  if s.elN O.TILE_STATE t = tileGating then
    if t ∈ s.tileTurn then
      let s1 : State := { s with tileTurn := s.tileTurn.filter (fun k => !decide (k = t)) }
      s1.setN O.TILE_STATE t tileUngating
    else s.setN O.TILE_STATE t tileIsGated
  else s

/-- TILE_GATED. -/
def execTileGated (tile : Fin 16) (s : State) : Host.Outcome State Fault Refusal := .next (tileGated tile.val s)

/-- The ungating of a tile ends. -/
def tileIsOn (t : Nat) (s : State) : State := if s.elN O.TILE_STATE t = tileUngating then s.setN O.TILE_STATE t 0 else s

/-- TILE_ON. -/
def execTileOn (tile : Fin 16) (s : State) : Host.Outcome State Fault Refusal := .next (tileIsOn tile.val s)

end Sys2Proof.Machine
end

