-- ==== Sys2Proof/Machine/Protect.lean ====
section
/-! DEFINITION. The protection set (07_benches.md, R244-R246, R249, R255, R257), its change by two custodians (R263-R269), and the
scrubbing of what changes hands (R273, R274, R318). -/

namespace Sys2Proof.Machine

/-! ## Ingots of a bench (R273, R274, R318) -/

/-- `BENCH_STATUS` of a bench follows its directory: the ingots held, and `SCRUB_PENDING`. -/
def refreshHeld (b : Nat) (s : State) : State :=
  let h := (s.dir b).length
  s.setEl O.BENCH_STATUS b (setFld (setBit (s.el O.BENCH_STATUS b) 4 (decide (h < s.elN O.INGOT_QUOTA b))) 63 32 h)

/-- The ingots at a bench's highest positions leave until it holds no more than its quota; they wait for a scrub (R318). -/
def trimDir (b : Nat) (s : State) : State :=
  let q := s.elN O.INGOT_QUOTA b
  let gone := (s.dir b).drop q
  refreshHeld b (gone.foldl (fun t e => t.setHolder e.ingot ownerDirty) (s.setDir b ((s.dir b).take q)))

/-- Whether a scrub waits: background jobs have stopped, or the controllers take no request. -/
def State.scrubWaits (s : State) : Bool := s.jobsStopped || !s.storeTakes

/-- The scrub of an ingot completes: it holds zeros without poison, and enters the directory of a defined bench that is short of its
quota; of an ingot that a bench holds, the scrub that R215 still owes it is performed. -/
def ingotScrub (b ingot : Nat) (s : State) : State :=
  if s.elN O.TRACE_INGOTS 0 ≤ ingot || s.scrubWaits then s
  else if s.ingotHolder ingot < ownerFree then if s.scrubDue ingot then refreshStore (settleIngot ingot s) else s
  else
    let t := settleCells (fun i _ => decide (i = ingot)) (toService s)
    let s1 := refreshStore (scrubCells ingot t)
    if s1.elB O.BENCH_DEFINED b && decide ((s1.dir b).length < s1.elN O.INGOT_QUOTA b) then
      let state := if (s1.dir b).length < s1.elN O.GOLD_INGOTS b then 1 else 0
      refreshHeld b ((s1.setHolder ingot b).setDir b (s1.dir b ++ [{ ingot := ingot, state := state }]))
    else s1.setHolder ingot ownerFree

/-- INGOT_SCRUB. -/
def execIngotScrub (b : Fin 1024) (ingot : Nat) (s : State) : Host.Outcome State Fault Refusal := .next (ingotScrub b.val ingot s)

/-! ## The items (R244) -/

/-- The owner items: each element names a bench. -/
def ownerItems : List ObjInfo :=
  [O.TRIG_PIN_OWNER, O.GROUP_OWNER, O.PORT_OWNER, O.FUNC_BINDING, O.LOCK_BENCH, O.CU_OWNER, O.SQ_OWNER, O.AE_OWNER]

/-- The items indexed by bench, but for `BENCH_DEFINED`. -/
def benchItems : List ObjInfo :=
  [O.INGOT_QUOTA, O.CELL_RESERVE, O.CELL_LIMIT, O.QUEUE_QUOTA, O.PRIORITY, O.BENCH_RIGHTS]

/-- The principal entries. -/
def princItems : List ObjInfo := [O.PRINC_IDENT, O.PRINC_RIGHTS, O.PRINC_KEY]

/-- Every item of the protection set. -/
def protItems : List ObjInfo := [O.BENCH_DEFINED] ++ benchItems ++ ownerItems ++ princItems ++ [O.PROP_EXPIRY_S]

/-- Whether a key of the table of elements belongs to an item. -/
def ObjInfo.hasKey (o : ObjInfo) (k : Nat) : Bool := decide (o.key 0 ≤ k) && decide (k < o.key o.count)
def protKey (k : Nat) : Bool := protItems.any (fun o => o.hasKey k)

/-- The protection set: what is listed of its items. -/
def State.protection (s : State) : Tab W64 := s.elems.filter (fun p => protKey p.1)

/-- The listed elements of an item: element and value. -/
def State.listed (s : State) (o : ObjInfo) : List (Nat × W64) :=
  (s.elems.filter (fun p => o.hasKey p.1)).map (fun p => (p.1 - o.key 0, p.2))

/-- The elements of an item whose values differ between two states. -/
def changedIn (o : ObjInfo) (s t : State) : List Nat :=
  (((s.listed o ++ t.listed o).map Prod.fst).foldl addNew []).filter (fun e => !decide (s.el o e = t.el o e))

/-! ## Entries (R263, Table 7.6) -/

/-- One entry: item, first element, number of elements, value. -/
structure PropEntry where
  obj : Nat
  count : Nat
  first : Nat
  value : W64
  deriving DecidableEq, Repr

/-- The entries of the proposal. -/
def State.propEntries (s : State) : List PropEntry :=
  (List.range (s.elN O.PROP_LEN 0)).map (fun j =>
    let w := s.el O.PROP_BODY (2 * j)
    { obj := fld w 63 48, count := fld w 47 28, first := fld w 27 0, value := s.el O.PROP_BODY (2 * j + 1) })

/-- The item an entry names. -/
def PropEntry.item (e : PropEntry) : Option ObjInfo := protItems.find? (fun o => decide (o.base = e.obj))

/-- The reserved bits of the items of type BITS are zero (Tables 7.1, 7.3). -/
def protBitsOk (o : ObjInfo) (v : W64) : Bool :=
  if o.base = O.BENCH_RIGHTS.base then decide (fld v 63 2 = 0)
  else if o.base = O.PRINC_IDENT.base then decide (fld v 15 2 = 0) && decide (fld v 63 26 = 0)
  else if o.base = O.PRINC_RIGHTS.base then decide (fld v 15 4 = 0) && decide (fld v 63 32 = 0)
  else true

/-- Whether an entry names elements of an item, with a value the item takes (R263, R353). -/
def PropEntry.ok (e : PropEntry) : Bool :=
  match e.item with
  | none => false
  | some o => decide (1 ≤ e.count) && decide (e.first + e.count ≤ o.count) && typeOk o e.first e.value && protBitsOk o e.value

/-- An entry is written, without regard to counters. -/
def PropEntry.write (s : State) (e : PropEntry) : State :=
  match e.item with
  | none => s
  | some o => (List.range e.count).foldl (fun t i => t.put o (e.first + i) e.value) s

/-! ## The resulting set (R245, R246) -/

/-- What the deletion of a bench clears (R246). -/
def dropBench (s : State) (b : Nat) : State :=
  let own := fun (t : State) (o : ObjInfo) =>
    ((t.listed o).filter (fun p => decide (p.2.toNat = b))).foldl (fun u p => u.put o p.1 (BitVec.ofNat 64 noBench)) t
  let s1 := ownerItems.foldl own s
  let s2 := ((s1.listed O.PRINC_RIGHTS).filter (fun p => decide (fld p.2 31 16 = b) && decide (s1.princKind p.1 = 2))).foldl
    (fun u p => u.put O.PRINC_RIGHTS p.1 (setFld (setBit p.2 1 false) 31 16 0)) s1
  benchItems.foldl (fun u o => u.put o b (elemDefault (o.key b))) s2

/-- The benches that are defined in one state and no longer in another. -/
def deletedIn (s t : State) : List Nat := (changedIn O.BENCH_DEFINED s t).filter (fun b => s.elB O.BENCH_DEFINED b)

/-- The state with the protection set that entries would leave, benches deleted by them cleared from it; nothing else changes. -/
def State.withEntries (s : State) (es : List PropEntry) : State :=
  let t := es.foldl PropEntry.write s
  (deletedIn s t).foldl dropBench t

/-- Whether an owner value names a defined bench or none. -/
def State.ownerOk (s : State) (v : Nat) : Bool := decide (v = noBench) || s.elB O.BENCH_DEFINED v

/-- Whether a principal has a key. -/
def State.hasKeyOf (s : State) (n : Nat) : Bool := (List.range 8).any (fun w => !decide (s.el O.PRINC_KEY (8 * n + w) = 0#64))

/-- One principal entry (R245, R249, Table 7.3). -/
def princOk (s : State) (n : Nat) : Bool :=
  let r := s.el O.PRINC_RIGHTS n
  let k := s.princKind n
  (decide (n = 0) || (!decide (k = 3) && !bit r 2))
    && (!bit r 3 || s.hasKeyOf n)
    && (!(decide (k = 2) && bit r 1) || s.elB O.BENCH_DEFINED (fld r 31 16))

/-- No two entries name one function (R249). -/
def funcsDistinct (s : State) : Bool :=
  noRepeats (((s.principals.foldl addNew []).filter (fun n => decide (s.princKind n = 1))).map (fun n => s.princFunc n))

/-- Entry 0 as the factory leaves it. -/
def entry0Ok (s : State) : Bool :=
  decide (s.el O.PRINC_IDENT 0 = 3#64) && decide (s.el O.PRINC_RIGHTS 0 = 4#64) && !s.hasKeyOf 0

/-- The sum of a bench item. -/
def State.total (s : State) (o : ObjInfo) : Nat := ((s.listed o).map (fun p => p.2.toNat)).sum

/-- The quotas within the module's resources (R245, R315). -/
def quotasOk (s : State) : Bool :=
  decide (s.total O.INGOT_QUOTA ≤ min 360448 (s.elN O.TRACE_INGOTS 0)) && decide (s.total O.CELL_RESERVE ≤ 229376)
    && ((s.listed O.CELL_RESERVE ++ s.listed O.CELL_LIMIT).all (fun p =>
      decide (s.elN O.CELL_RESERVE p.1 ≤ s.elN O.CELL_LIMIT p.1) && decide (s.elN O.CELL_LIMIT p.1 ≤ 262144)))
    && decide (s.total O.QUEUE_QUOTA ≤ 16128)

/-- Whether an armed bench's unshadowed item would change (R257), or a bench that is `ARMED` or `RESETTING` would be deleted (R255). -/
def protBusy (s t : State) : Bool :=
  let armedOwner := fun (v : Nat) => s.isArmed v
  let owned := fun (o : ObjInfo) => (changedIn o s t).any (fun e => armedOwner (s.elN o e))
  [O.INGOT_QUOTA, O.CELL_RESERVE, O.CELL_LIMIT, O.QUEUE_QUOTA, O.BENCH_RIGHTS].any (fun o => (changedIn o s t).any (fun b => s.isArmed b))
    || (deletedIn s t).any (fun b => s.isArmed b || decide (s.benchState b = .resetting))
    || [O.CU_OWNER, O.SQ_OWNER, O.AE_OWNER, O.TRIG_PIN_OWNER].any owned
    || (changedIn O.GROUP_OWNER s t).any (fun g => armedOwner (s.elN O.GROUP_OWNER g)
        || s.armedBenches.any (fun b => s.knownLanes.any (fun l => s.usesLane b l && (s.lane l).map.groups.contains g)))

/-- The checks of R245 on the set that would result, `t`, against the present one, `s`. -/
def protCheck (s t : State) : Status :=
  if !(ownerItems.all (fun o => (t.listed o).all (fun p => t.ownerOk p.2.toNat))) || !t.elB O.BENCH_DEFINED 0
      || !(t.principals.all (princOk t)) || !funcsDistinct t || !entry0Ok t then .invalid
  else if !quotasOk t then .noResource
  else if (t.listed O.GOLD_INGOTS).any (fun p => decide (t.elN O.INGOT_QUOTA p.1 < p.2.toNat)) then .invalid
  else if 1 < ((t.listed O.BENCH_RIGHTS).filter (fun p => !decide (p.1 = 0) && bit p.2 1)).length then .invalid
  else if 2 ≤ s.custodians.length && decide (t.custodians.length < 2) then .invalid
  else if protBusy s t then .busy
  else .ok

/-! ## Application (R266, R273, R358) -/

/-- Units that change hands are scrubbed (R273). -/
def scrubUnit (s : State) (c : Nat) : State := (((defaultUnit c s).setEl O.CU_STATUS c 0#64)).setCuPrev c none
def scrubSq (s : State) (q : Nat) : State :=
  ((defaultSq q ((s.clearEls O.SQ_MARK (16 * q) 16).setEl O.SQ_STATUS q 0#64))).setSeqx q {}
def scrubEngine (s : State) (a : Nat) : State :=
  let s1 := dropAhead a (defaultEngine a s)
  (((s1.clearEls O.AE_REPORT (200 * a) 200).setEl O.AE_STATUS a 0#64).setN O.AE_STATE a 0).setN O.GOLD_STATE a goldEmpty
    |>.setEngine a {}

/-- A stream of a deleted bench: the pool cell it had begun returns. -/
def dropStream (s : State) (k : Nat) : State := (dropHand k s).setStream k {}

/-- A bench is deleted: its queues return to free, its state is `FREE`, and an `EXCLUSIVE` of it clears (R255, R460). -/
def deleteBench (s : State) (b : Nat) : State :=
  let s0 := (streamsOf b).foldl dropStream (dropGrants b s)
  let s1 := (s0.queuesOf b).foldl (fun t q => freeQueue q t) s0
  let s2 := (noteSeg s1 b (s1.setBench b {})).setBenchState b .free
  if s2.mode.exclusive = some b then leaveExclusive s2 else s2

/-- An accepted set takes effect at one instant: `t` holds the items' new values. -/
def applySet (s t : State) : State :=
  let s1 := protItems.foldl (fun (u : State) o => if (changedIn o s t).isEmpty then u else u.bump o 0) t
  let s2 := (changedIn O.CU_OWNER s t).foldl scrubUnit s1
  let s3 := (changedIn O.SQ_OWNER s t).foldl scrubSq s2
  let s4 := (changedIn O.AE_OWNER s t).foldl scrubEngine s3
  let s5 := ((changedIn O.BENCH_DEFINED s t).filter (fun b => t.elB O.BENCH_DEFINED b)).foldl (fun u b => u.setBenchState b .defined) s4
  let s6 := functionsLost (((changedIn O.FUNC_BINDING s t).filter (fun f => (s.binding f).isSome)).map (fun f => (f, s.binding f))) [] s5
  let s7 := (deletedIn s t).foldl deleteBench s6
  let s8 := (changedIn O.INGOT_QUOTA s t).foldl (fun u b => trimDir b u) s7
  journalAdd (.protection t.protection) (noteLocals s s8)

/-- LK000 is freed without `BROKEN`, where it is held. -/
def freeProposalLock (s : State) : State := if s.lockHeld 0 then freeLock 0 false s else s

/-- The proposal is applied, and LK000 is freed without `BROKEN` (Table 7.7 step 5). -/
def applyProposal (t : State) (s : State) : State := setPropState propApplied 0 (freeProposalLock (applySet s t))

/-! ## Signatures (R264) -/

/-- Elements of an object as bytes, most significant first. -/
def State.elBytes (s : State) (o : ObjInfo) (e n : Nat) : List Byte := (List.range n).flatMap (fun w => bytesBE 8 (s.el o (e + w)).toNat)

/-- The digest of the proposal under a number. -/
def State.propDigest (s : State) (number : Nat) : List Byte :=
  let len := s.elN O.PROP_LEN 0
  Config.sha384 (bytesLE 8 Config.moduleSerial.toNat ++ bytesLE 4 number ++ bytesLE 2 len
    ++ (List.range (2 * len)).flatMap (fun k => bytesLE 8 (s.el O.PROP_BODY k).toNat))

/-- Whether a signature held in eight elements is a principal's over a digest. -/
def State.signedBy (s : State) (princ : Option Nat) (sig : ObjInfo) (digest : List Byte) : Bool :=
  match princ with
  | none => false
  | some n => s.hasKeyOf n && Config.ecdsaVerify (s.elBytes O.PRINC_KEY (8 * n) 8) digest (s.elBytes sig 0 8)

/-- `PROP_DIGEST` takes a digest. -/
def writeDigest (d : List Byte) (s : State) : State :=
  (List.range 6).foldl (fun t w => t.setN O.PROP_DIGEST w (natBE ((d.drop (8 * w)).take 8))) s

/-! ## Commands (Table 7.7) -/

/-- A write of `PROP_LEN`, `PROP_BODY` or `PROP_SIG`: by the holder of LK000, unless the proposal is open (step 2). -/
def propStageAct (via : Via) (o : ObjInfo) (e : Nat) (v : W64) (s : State) : State × Status :=
  if !s.holds via 0 then propRefuse .denied s
  else if s.propState = propOpen || s.propState = propApplying then propRefuse .busy s
  else (s.put o e v, .ok)

/-- A write of `CSIGN_SIG`. -/
def csignSigAct (e : Nat) (v : W64) (s : State) : State × Status :=
  if s.propState = propOpen then (s.put O.CSIGN_SIG e v, .ok) else propRefuse .busy s

/-- Whether every entry enrols: it writes an entry of `PRINC_IDENT`, `PRINC_RIGHTS` or `PRINC_KEY` whose `KIND` is 0 (R269). -/
def enrols (s : State) (e : PropEntry) : Bool :=
  match princItems.find? (fun o => decide (o.base = e.obj)) with
  | none => false
  | some o =>
    let per := if o.base = O.PRINC_KEY.base then 8 else 1
    (s.principals.filter (fun n => !decide (s.princKind n = 0))).all (fun n =>
      decide (e.first + e.count ≤ per * n) || decide (per * (n + 1) ≤ e.first))

/-- The reservation that covers a proposal number is sealed before the number is accepted (R479): false while no program may start. -/
def reserveNumber (n : Nat) (s : State) : Bool × State :=
  if n ≤ s.propReserved then (true, s)
  else if s.journal.blocked then (false, s)
  else
    let s1 := journalAdd (.propReserve (n + 63)) s
    (true, sealAll s1.journal.pending.length s1)

/-- A write of `PROP_SUBMIT` (step 3). -/
def propSubmitAct (via : Via) (v : W64) (s : State) : State × Status :=
  let first := firstCustodians via s
  let es := s.propEntries
  let next := s.elN O.PROP_SEQ 0 + 1
  if !s.holds via 0 || !((viaRights via s).custodian || first) then propRefuse .denied s
  else if !first && !s.signedBy (viaPrinc via s) O.PROP_SIG (s.propDigest v.toNat) then propRefuse .denied s
  else if first && !es.all (enrols s) then propRefuse .denied s
  else if v.toNat ≠ next then propRefuse .stale s
  else if s.propState ≠ propDraft then propRefuse .busy s
  else if es.isEmpty || !es.all PropEntry.ok then propRefuse .invalid s
  else
    match protCheck s (s.withEntries es) with
    | .ok =>
      match reserveNumber next s with
      | (false, s1) => propRefuse .busy s1
      | (true, s1) =>
        let s2 := writeDigest (s1.propDigest next) (s1.setN O.PROP_SEQ 0 next)
        let s3 := setPropStatus (setFld (s2.el O.PROP_STATUS 0) 47 16 next) s2
        if first then (applyProposal (s3.withEntries es) s3, .ok) else (setPropState propOpen 0 s3, .ok)
    | st => propRefuse st s

/-- PROP_SUBMIT. -/
def execPropSubmit (via : Via) (v : W64) (s : State) : Host.Outcome State Fault Refusal :=
  .next (cmdWrite via O.PROP_SUBMIT 0 v (propSubmitAct via v) s)

/-- The open proposal's number and its proposer. -/
def State.propNumber (s : State) : Nat := fld (s.el O.PROP_STATUS 0) 47 16
def State.proposer (s : State) : Nat := fld (s.el O.PROP_STATUS 0) 58 48

/-- Whether a principal may countersign: another one than the proposer, with another key. -/
def otherCustodian (princ : Option Nat) (s : State) : Bool :=
  match princ with
  | none => false
  | some n => !decide (n = s.proposer) && !decide (s.elBytes O.PRINC_KEY (8 * n) 8 = s.elBytes O.PRINC_KEY (8 * s.proposer) 8)

/-- A write of `PROP_COUNTERSIGN` (step 4). -/
def propCountersignAct (via : Via) (v : W64) (s : State) : State × Status :=
  if !(viaRights via s).custodian then propRefuse .denied s
  else if s.propState ≠ propOpen || decide (v.toNat ≠ s.propNumber) then propRefuse .stale s
  else if !otherCustodian (viaPrinc via s) s || !s.signedBy (viaPrinc via s) O.CSIGN_SIG (s.propDigest s.propNumber) then propRefuse .denied s
  else (setPropState propApplying 0 s, .ok)

/-- PROP_COUNTERSIGN. -/
def execPropCountersign (via : Via) (v : W64) (s : State) : Host.Outcome State Fault Refusal :=
  .next (cmdWrite via O.PROP_COUNTERSIGN 0 v (propCountersignAct via v) s)

/-- A write of `PROP_CANCEL` by a custodian other than the proposer. -/
def propCancelAct (via : Via) (v : W64) (s : State) : State × Status :=
  if !(viaRights via s).custodian || decide (viaPrinc via s = some s.proposer) then propRefuse .denied s
  else if s.propState ≠ propOpen || decide (v.toNat ≠ s.propNumber) then propRefuse .stale s
  else (setPropState propVoid voidVetoed (freeProposalLock s), .ok)

/-- PROP_CANCEL. -/
def execPropCancel (via : Via) (v : W64) (s : State) : Host.Outcome State Fault Refusal :=
  .next (cmdWrite via O.PROP_CANCEL 0 v (propCancelAct via v) s)

/-- The application of a countersigned proposal: rechecked against the present set, and applied whole or not at all (step 5). -/
def proposalApply (s : State) : State :=
  if s.propState = propApplying then
    let t := s.withEntries s.propEntries
    match protCheck s t with
    | .ok => applyProposal t s
    | st => setPropState propVoid voidRefused (freeProposalLock (propRefuse st s).1)
  else s

/-- PROPOSAL_APPLY. -/
def execProposalApply (s : State) : Host.Outcome State Fault Refusal := .next (proposalApply s)

end Sys2Proof.Machine
end

