-- ==== Sys2Proof/Machine/Modes.lean ====
section
/-! DEFINITION. Power-up and power-down (R458, R462-R464), passes through `BOOT` (R478, R479, R483), the operating modes and their
commands (R457-R460, R463), and the module warm reset (R204, R205, R311, R348, R465-R467). -/

namespace Sys2Proof.Machine

/-! ## What the flash gives at every pass through BOOT (R477-R479) -/

/-- The page program in progress completes in a slot. -/
def Firmware.landPage (x : Firmware) (slot : Nat) : Firmware :=
  match x.page with
  | none => x
  | some (k, ws) => { (x.withSlot slot false ((k, ws) :: (x.image slot).filter (fun p => decide (p.1 ≠ k)))) with page := none }

/-- What a pass through `BOOT` leaves of the firmware's slots: marks and images, a page program in progress completed (R464, R478); an
update is abandoned (R482). -/
def State.keptSlots (s : State) : Firmware :=
  let x := s.fw.landPage (1 - s.flash.active)
  { valid0 := x.valid0, valid1 := x.valid1, image0 := x.image0, image1 := x.image1 }

/-- `FW_SLOT` of a slot: version, security version, whether it is authentic (Table 13.12). -/
def setFwSlot (k : Nat) (ok : Bool) (s : State) : State :=
  s.setEl O.FW_SLOT k (Sys2Proof.put (Config.imageVersion (s.fw.image k)).toNat 0
    ||| Sys2Proof.put (Config.imageSecVersion (s.fw.image k)).toNat 32 ||| Sys2Proof.put ok.toNat 48)

/-- The benches that the protection set may define: those listed, and B0000. -/
def State.maybeDefined (s : State) : List Nat :=
  addNew ((Tab.keysIn s.elems (O.BENCH_DEFINED.key 0) (O.BENCH_DEFINED.key 1024)).map (fun k => k - O.BENCH_DEFINED.key 0)) 0

/-- The protection set of the last sealed application, and a bench `DEFINED` where it is defined. -/
def loadProtection (s : State) : State :=
  let s1 : State := { s with elems := s.flash.prot.foldl (fun t p => Tab.set elemDefault t p.1 p.2) (s.elems.filter (fun p => !protKey p.1)) }
  s1.maybeDefined.foldl (fun t b => refreshHeld b (t.put O.BENCH_STATE b (if t.elB O.BENCH_DEFINED b then 1#64 else 0#64))) s1

/-- The sealed entries are replayed: protection set, proposal numbers, flash-kept settings, active slot, last fatal record. -/
def replayJournal (s : State) : State :=
  let f := s.flash
  let s1 := { loadProtection s with journal := {}, propReserved := f.propReserved }
  let s2 := (s1.put O.PROP_SEQ 0 (BitVec.ofNat 64 f.propReserved)).put O.SPARE_COUNT 0 (BitVec.ofNat 64 f.spare)
  let s3 := (f.subsys.zipIdx).foldl (fun (t : State) p => t.put O.SUBSYS_ID p.2 p.1) s2
  let s4 := s3.put O.FW_ACTIVE 0 (BitVec.ofNat 64 f.active)
  (f.fatal.zipIdx).foldl (fun (t : State) p => t.put O.ERR_LAST_FATAL p.2 p.1) s4

/-! ## Ranks at power-on (R314, R349) -/

/-- Ranks in service, spare and parked: what a migration had retired or filled before the power went is remembered. -/
def placeRanks (s : State) : State :=
  let n := s.flash.spare
  let healthy := candidates.filter (fun r => decide (s.rankState r ≠ rankRetired))
  let out := (healthy.filter (fun r => decide (s.rankState r ≠ rankFilling))).take (healthy.length - min 30 (32 - n))
  let state (r : Nat) : Nat :=
    if !healthy.contains r then rankRetired
    else if !out.contains r then rankInService
    else if (out.take n).contains r then rankSpare
    else rankParked
  let s1 := (List.range 32).foldl (fun (t : State) r => t.put O.RANK_STATE r (BitVec.ofNat 64 (state r))) s
  let s2 := (List.range 8).foldl (fun (t : State) st =>
    t.setHomeRanks st (((List.range 4).map (fun k => 4 * st + k)).filter (fun r => decide (state r = rankInService)))) s1
  s2.put O.TRACE_INGOTS 0 (BitVec.ofNat 64 (traceIngots ((List.range 32).filter (fun r => decide (state r = rankInService))).length))

/-! ## Power-on and power loss (R458, R462-R464) -/

/-- What stays without power: the flash, which ranks are retired or were being filled, what has been sent, and the model's own
counts; ALERT_N is released. -/
def coldState (s : State) : State :=
  let kept := (List.range 32).map (fun r => (r, s.rankState r))
  let t : State := { State.reset with
    pending := s.pending, fresh := s.fresh, out := s.out, flash := s.flash, sessionCount := s.sessionCount, fw := s.keptSlots }
  noteAlert s.mode <| kept.foldl (fun (u : State) p =>
    if p.2 = rankRetired || decide (p.2 = rankRetiring) then u.put O.RANK_STATE p.1 4#64
    else if p.2 = rankFilling then u.put O.RANK_STATE p.1 3#64
    else u.put O.RANK_STATE p.1 0#64) t

/-- The text log on UART_TX says that a base state of the boot is entered (R498; which steps it names is a DESIGN CHOICE, log entry 173). -/
def logBoot (b : Base) (s : State) : State := s.send (.uart (.boot b))

/-- The 48 V input has been in its range for 20 ms (Table 13.4): `COLD` becomes `BOOT`, unless the module was switched off and waits for
the input to fall (R463). -/
def powerOn (milliV : Nat) (s : State) : State :=
  if s.mode.base ≠ .cold || s.mode.offReady || decide (milliV < 40000) || decide (60000 < milliV) then s
  else
    let s1 := replayJournal (placeRanks { s with subsys := s.flash.subsys })
    let s2 := (setFwSlot 1 false (setFwSlot 0 false s1)).put O.VIN_MV 0 (BitVec.ofNat 64 milliV)
    logBoot .boot ((advance (20 * ms) { s2 with cc := [] }).setMode { s2.mode with base := .boot })

/-- INPUT_IN_RANGE. -/
def execInputInRange (milliV : Nat) (s : State) : Host.Outcome State Fault Refusal := .next (powerOn milliV s)

/-- The flash program in progress completes, and the seal of its entry where that completes the content; no other starts (R464, R476).
How far an entry stands is left open: a free value says whether the program in progress is its last. -/
def lastProgram (s : State) : State :=
  if s.journal.pending.isEmpty || s.journal.stopped then s
  else if s.journal.content then sealFirst s
  else if bit s.freeNext 0 then sealFirst s.drawn
  else s.drawn

/-- Flash programs in progress complete, that of a page first: no other starts. -/
def lastPrograms (s : State) : State := lastProgram { s with fw := s.fw.landPage (1 - s.flash.active) }

/-- POWER_LOSS: the input is below 36 V for 100 µs. -/
def execPowerLoss (s : State) : Host.Outcome State Fault Refusal := .next (coldState (lastPrograms s))

/-! ## Boot (R483) and bring-up (R462, R466) -/

/-- Whether an image is authentic (R480): the signature over the digest of header and code verifies with the vendor key, and the
security version is at least `FW_SEC_VERSION`. -/
def authentic (image : List (Nat × List W64)) : Bool :=
  Config.ecdsaVerify Config.vendorKey (Config.sha384 (Config.imageSigned image)) (Config.imageSignature image)
    && decide (Config.fwSecVersion.toNat ≤ (Config.imageSecVersion image).toNat)

/-- Whether a slot is authentic: its flash could be read, it is not marked invalid, and its image is authentic (R480-R482). -/
def slotOk (k : Nat) (ok : Bool) (s : State) : Bool :=
  ok && (if k = 0 then s.fw.valid0 else s.fw.valid1) && authentic (s.fw.image k)

/-- An authentic image has started the service firmware: `BRINGUP`, the time base running, and a migration that a warm reset
interrupted resumed (R348, R424). -/
def enterBringup (s : State) : State :=
  let s1 : State := { s with tmbOn := true }
  logBoot .bringup (refreshMig (s1.setMode { s1.mode with base := .bringup, migrating := s1.mode.migrating || s1.migrates }))

/-- FW_AUTH: the trusted controller authenticates the active slot, and the other one where that fails; once in a pass, so not again
where neither was authentic. -/
def bootAuth (ok0 ok1 : Bool) (s : State) : State :=
  if s.mode.base ≠ .boot || decide (s.mode.recovery = some 0xB0) then s
  else
    let a := s.flash.active
    let okA := slotOk a (if a = 0 then ok0 else ok1) s
    let okB := slotOk (1 - a) (if a = 0 then ok1 else ok0) s
    let s1 := setFwSlot (1 - a) okB (setFwSlot a okA s)
    if okA then enterBringup s1
    else if okB then enterBringup (journalAdd (.activeSlot (1 - a)) (raiseError 0xB0 1 11 noUnit 0xFFFF 0#64 s1))
    else enterRecovery 0xB0 (raiseError 0xB0 3 11 noUnit 0xFFFF 0#64 s1)

/-- FW_AUTH. -/
def execFwAuth (ok0 ok1 : Bool) (s : State) : Host.Outcome State Fault Refusal := .next (bootAuth ok0 ok1 s)

/-- Whether a background job is due (R326): a scrub of a trace ingot, a golden seal, a migration. -/
def State.jobDue (s : State) : Bool :=
  decide (s.ingotOwner.length < s.elN O.TRACE_INGOTS 0) || (List.range 4).any (fun a => decide (s.elN O.GOLD_STATE a = goldSealing))
    || s.mode.migrating || s.storeReqs.any StoreReq.scrubs

/-- The module stands in `IDLE`: every rank in self-refresh (R333), or on to `SERVICE` at once where a job is due (Table 13.4). -/
def enterIdle (s : State) : State :=
  let s1 := s.setMode { s.mode with base := .idle }
  let s2 : State := { s1 with everIdle := true, warmPass := false, idleSince := s1.clock }
  let s3 := refreshStore (allSelfRefresh true s2)
  if s3.jobDue then toService s3 else s3

/-- The steps of Table 13.5 are complete: the delay tables are loaded, and neither `SAFE` nor `RECOVERY` is set. Retirements that waited
start. -/
def bringupDone (s : State) : State :=
  if s.mode.base ≠ .bringup || !s.calibrated || s.mode.safe || s.mode.recovery.isSome then s
  else nextRetire (logBoot .idle (enterIdle s))

/-- BRINGUP_COMPLETE. -/
def execBringupComplete (s : State) : Host.Outcome State Fault Refusal := .next (bringupDone s)

/-- `SERVICE` becomes `IDLE` after `IDLE_ENTRY_MS` without an armed bench, a store request or a background job. -/
def idleEntry (s : State) : State :=
  if s.mode.base ≠ .service || !s.armedBenches.isEmpty || !s.storeReqs.isEmpty || s.jobDue then s
  else enterIdle (advanceTo (s.idleSince + s.elN O.IDLE_ENTRY_MS 0 * ms) s)

/-- IDLE_ENTRY. -/
def execIdleEntry (s : State) : Host.Outcome State Fault Refusal := .next (idleEntry s)

/-! ## MODE_CMD (R459, R460, R309) -/

/-- Whether a command of `MODE_CMD` is refused because `SAFE` or `RECOVERY` is set. -/
def State.modeHeld (s : State) : Bool := s.mode.safe || s.mode.recovery.isSome

/-- `END_EXCLUSIVE`. -/
def endExclusiveAct (s : State) : State × Status :=
  if s.mode.exclusive.isNone || s.modeHeld then (s, .busy) else (leaveExclusive s, .ok)

/-- END_EXCLUSIVE. -/
def execEndExclusive (via : Via) (s : State) : Host.Outcome State Fault Refusal :=
  .next (cmdWrite via O.MODE_CMD 0 1#64 endExclusiveAct s)

/-- `EXCLUSIVE` of a bench. -/
def exclusiveAct (b : Nat) (s : State) : State × Status :=
  if !bit (s.el O.BENCH_RIGHTS b) 1 then (s, .invalid)
  else if s.armedBenches.any (fun c => decide (c ≠ b)) || s.mode.exclusive.isSome || s.modeHeld then (s, .busy)
  else
    let s1 := s.setMode { s.mode with exclusive := some b }
    (if s1.elN O.POOL_PARTITION_EXCL 0 = 1 then s1.setN O.POOL_MODE 0 1 else s1, .ok)

/-- EXCLUSIVE. -/
def execExclusive (via : Via) (b : Fin 1024) (s : State) : Host.Outcome State Fault Refusal :=
  .next (cmdWrite via O.MODE_CMD 0 (put 2 0 ||| put b.val 16) (exclusiveAct b.val) s)

/-- Cells begun by streams that no longer run are filled up and committed. -/
def closeIdleCells (s : State) : State :=
  (s.streams.map Prod.fst).foldl (fun t k => if (t.stream k).open_ then t else closeCell k t) s

/-- Entry to `QUIESCE` (R206, R310): armed benches disarm at their next row or after 1 ms; cells of ended acquisitions are
committed. -/
def quiesceAct (off : Bool) (s : State) : State × Status :=
  if (s.mode.base ≠ .idle && decide (s.mode.base ≠ .service)) || s.modeHeld then (s, .busy)
  else
    let s1 := s.setMode { s.mode with base := .quiesce, quiesceOff := off }
    (closeIdleCells { s1 with quiesceSince := s1.clock }, .ok)

/-- QUIESCE_IDLE. -/
def execQuiesceIdle (via : Via) (s : State) : Host.Outcome State Fault Refusal :=
  .next (cmdWrite via O.MODE_CMD 0 3#64 (quiesceAct false) s)

/-- QUIESCE_OFF. -/
def execQuiesceOff (via : Via) (s : State) : Host.Outcome State Fault Refusal :=
  .next (cmdWrite via O.MODE_CMD 0 4#64 (quiesceAct true) s)

/-- `FACTORY`: on RZ8-256-LF only, from `IDLE`. -/
def factoryAct (s : State) : State × Status :=
  if !Config.orderingLF then (s, .denied)
  else if s.mode.base ≠ .idle || s.modeHeld then (s, .busy)
  else (s.setMode { s.mode with base := .factory }, .ok)

/-- FACTORY. -/
def execFactory (via : Via) (s : State) : Host.Outcome State Fault Refusal :=
  .next (cmdWrite via O.MODE_CMD 0 5#64 factoryAct s)

/-- The module is off: every journal write requested is completed, after a `SAFE` trigger only the programs in progress (R476); then
every domain but AON stops (R463). -/
def switchOff (s : State) : State :=
  let s1 := coldState (if s.journal.blocked then lastPrograms s else sealAll s.journal.pending.length s)
  s1.setMode { s1.mode with offReady := true }

/-- Quiesce is complete: no bench armed, drain queues empty or in `MASTER_OFF`, whose packets are discarded (R310); every store cell is written before it is left. -/
def quiesceDone (s : State) : State :=
  if s.mode.base ≠ .quiesce || !s.armedBenches.isEmpty || !s.drainsDone || (s.storeReqs.any StoreReq.writes && !s.storeTakes) then s
  else
    let s1 := drainWrites (fun _ => true) s.storeReqs.length (discardDrains s)
    if s1.mode.quiesceOff then switchOff s1 else enterIdle s1

/-- QUIESCE_COMPLETE. -/
def execQuiesceComplete (s : State) : Host.Outcome State Fault Refusal := .next (quiesceDone s)

/-! ## The module warm reset -/

/-- Every armed bench's acquisition ends in its streams: END with reason 4, the open segment's entry with `END_REASON` 5 (R204). -/
def endAllForReset (s : State) : State := s.armedBenches.foldl (fun t b => finishStreams b 4 5 false none t) s

/-- Every begun cell is filled up and committed. -/
def closeAllCells (s : State) : State := (s.streams.map Prod.fst).foldl (fun t k => closeCell k t) s

/-- The writes of store cells that wait, oldest first. -/
def State.cellWrites (s : State) : List StoreReq := s.storeReqs.filter (fun r => match r.op with | .write .. => true | _ => false)

/-- A stream has lost cells: `RESET_LOSS` (R205). -/
def noteResetLoss (s : State) (r : StoreReq) : State :=
  match r.op with
  | .write _ k => s.setEl O.STREAM_STATUS k (setBit (s.el O.STREAM_STATUS k) 1 true)
  | _ => s

/-- The cells that reach the store within 2 µs: how many is left open, a free value says it; the streams of the others show
`RESET_LOSS`. A frozen or uncalibrated store takes none. -/
def saveCells (s : State) : State :=
  let m := s.cellWrites.length
  let n := if s.storeTakes then s.freeNext.toNat % (m + 1) else 0
  let s1 := drainWrites (fun r => match r.op with | .write .. => true | _ => false) n s.drawn
  s1.cellWrites.foldl noteResetLoss s1

/-- The journal: a seal program in progress completes, nothing further is programmed (R478). -/
def resetJournal (s : State) : State := if s.journal.content then sealFirst s else s

/-- The objects outside area 2 and the settings of area A that a warm reset keeps (R466), with what its other rules keep: lock states
(broken), rank states and `TRACE_INGOTS`. -/
def warmKept : List ObjInfo :=
  [O.STREAM_STATUS, O.AE_REPORT, O.POISON_LIST, O.GOLD_INGOTS, O.GOLD_FIRST, O.GOLD_CELLS, O.GOLD_STATE, O.Q_CONFIG, O.Q_OWNER,
   O.EVENT_QUEUE, O.LOCK_STATE, O.RANK_STATE, O.TRACE_INGOTS]

/-- Whether a warm reset keeps the element with a key. -/
def keepsKey (k : Nat) : Bool :=
  let base := k / 2 ^ 28
  decide (base / 4096 = 2) || warmKept.any (fun o => decide (o.base = base))
    || (decide (base / 4096 = 10) && (match findObj base with | none => false | some o => o.acc.writable))

/-- A bench after a warm reset: its segment table, and the design and request last recorded (R466). -/
def warmBench (x : Bench) : Bench := { segs := x.segs, design := x.design, lastReq := x.lastReq }

/-- The migration after a warm reset: the last sealed checkpoint of it, to be resumed (R348). -/
def warmMig (f : Flash) (m : Mig) : Option Mig :=
  if m.done then none
  else
    let n := match f.mig with
      | some (a, b, k) => if a = m.src && decide (b = m.tgt) then k else 0
      | none => 0
    some { m with chunks := n, sealedChunks := n, held := false, resumed := true }

/-- A rank after a warm reset: in self-refresh, its count of corrected errors cleared. -/
def warmRank (x : Rank) : Rank := { selfRef := true, retireDue := x.retireDue }

/-- A function after a warm reset: its configuration space and MSI-X table stay, its replay store and fill do not (R365, R416). -/
def warmFunc (x : Func) : Func := { x.dropFill with replay := [] }

/-- The state in `BOOT` after a warm reset. -/
def warmState (s : State) : State :=
  { State.reset with
    pending := s.pending, out := s.out, fresh := s.fresh, cc := s.cc, clock := s.clock, mtime := s.mtime, tmbOn := s.tmbOn, slew := s.slew, slewFrac := s.slewFrac
    steppedAt := s.steppedAt, idleSince := s.clock
    elems := s.elems.filter (fun p => keepsKey p.1)
    mode := { s.mode with base := .boot, recovery := none, safe := false, safeTemp := false, safeInput := false, safeRail := false,
                          offReady := false, quiesceOff := false }
    everIdle := s.everIdle, warmPass := true
    lastRow := s.lastRow, pins := s.pins, nextReq := s.nextReq
    benches := s.benches.map (fun p => (p.1, warmBench p.2))
    engines := s.engines.map (fun p => (p.1, { header := p.2.header }))
    dirs := s.dirs, ingotOwner := s.ingotOwner
    mem := s.mem, poison := s.poison, poisonUsed := s.poisonUsed, storeReqs := s.storeReqs.filter StoreReq.scrubs
    ranks := (List.range 32).map (fun r => (r, warmRank (s.rank r)))
    homes := s.homes, mig := s.mig.bind (warmMig s.flash)
    queues := s.queues.map (fun p => (p.1, ({ gen := p.2.gen } : Queue)))
    nextPkt := s.nextPkt, fencedBanks := s.fencedBanks, movedGroup := s.movedGroup, queueGen := s.queueGen + 1
    ports := s.ports, funcs := s.funcs.map (fun p => (p.1, warmFunc p.2)), subsys := s.subsys
    sessionCount := s.sessionCount, net := s.net, timing := s.timing, flash := s.flash, fw := s.keptSlots }

/-- The tables that a warm reset builds anew stand in their canonical form. -/
def tidy (s : State) : State :=
  { s with
    benches := s.benches.foldl (fun t p => Tab.set (fun _ => {}) t p.1 p.2) []
    engines := s.engines.foldl (fun t p => Tab.set (fun _ => {}) t p.1 p.2) []
    ranks := s.ranks.foldl (fun t p => Tab.set (fun _ => {}) t p.1 p.2) []
    queues := s.queues.foldl (fun t p => Tab.set (fun _ => {}) t p.1 p.2) []
    funcs := s.funcs.foldl (fun t p => Tab.set (fun _ => {}) t p.1 p.2) [] }

/-- What the dictionary shows of units that a warm reset keeps: pool, ports and functions. -/
def warmShown (s : State) : State :=
  let banks := put ((s.fencedBanks.map (fun i => 2 ^ i)).sum) 0 ||| put (if s.movedGroup.isSome then 7 else 0) 8
  let s1 := (s.setEl O.POOL_BANKS 0 banks).setN O.POOL_MODE 0 (if s.fencedBanks.isEmpty && !(s.mode.exclusive.isSome
    && decide (s.elN O.POOL_PARTITION_EXCL 0 = 1)) then 0 else 1)
  let s2 := (List.range 4).foldl (fun (t : State) h => refreshFunc (intUpdate h (refreshLink h t)) (256 * h)) s1
  (s2.funcs.map Prod.fst).foldl refreshFunc s2

/-- The computed values that a warm reset changes: every queue's `GENERATION`, and the entries shown of benches' segment tables and
directories (R358). -/
def noteComputed (s t : State) : State :=
  let u := noteLocals s (t.touchIf true O.Q_STATE 0)
  let v := if (List.range 1024).any (fun b => !decide (s.segShown b = t.segShown b)) then u.touchIf true O.SEG_ENTRY 0 else u
  (List.range 1024).foldl (fun w b => w.touchIf (!decide (s.dir b = t.dir b)) O.INGOT_DIR (benchEl b 0)) v

/-- The keys whose elements differ between two states. -/
def changedKeys (s t : State) : List Nat :=
  ((s.elems ++ t.elems).map Prod.fst).eraseDups.filter (fun k =>
    !decide (Tab.get elemDefault s.elems k = Tab.get elemDefault t.elems k))

/-- A module warm reset. -/
def warmReset (s : State) : State :=
  let s1 := saveCells (closeAllCells (endAllForReset s))
  let s2 := resetJournal (closeAllSessions (breakAllLocks s1))
  let s3 := warmShown (replayJournal (tidy (warmState s2)))
  let s4 := refreshMig ((setFwSlot 1 false (setFwSlot 0 false s3)).put O.RESET_CAUSE 0 1#64)
  let s5 := logBoot .boot (noteAlert s.mode (s4.setMode s4.mode))
  noteComputed s { s5 with cc := (changedCounters (changedKeys s s5)).foldl bumpCc s.cc }

/-- Whether a `SAFE` cause stands (R461, R476): a trigger whose `SAFE` waits for a flash program; in `SAFE` a die at 90 °C or more, the
input outside 40-60 V, a rail that is not good. Whether a rail is good again is left open: a free value says it. -/
def State.safeStands (s : State) : Bool :=
  s.health.safePend || s.mode.safe && (decide (90000 ≤ w64Int (s.el O.TEMP_MC 0)) || decide (s.elN O.VIN_MV 0 < 40000) || decide (60000 < s.elN O.VIN_MV 0)
    || (s.mode.safeRail && bit s.freeNext 0))

/-- Whether a warm reset is in progress: until `IDLE` is reached, or the pass ends in `SAFE` or `RECOVERY` (R466, R467). -/
def State.resetting (s : State) : Bool :=
  s.warmPass && (decide (s.mode.base = .boot) || decide (s.mode.base = .bringup)) && !s.modeHeld

/-- A write of `WARM_RESET`: 1 only; merged while a warm reset is in progress (R467). -/
def warmResetAct (v : W64) (s : State) : State × Status :=
  if v ≠ 1#64 then (s, .invalid)
  else if s.resetting then (s, .ok)
  else if s.safeStands then (s.drawn, .busy)
  else (warmReset s.drawn, .ok)

/-- WARM_RESET. -/
def execWarmReset (via : Via) (v : W64) (s : State) : Host.Outcome State Fault Refusal :=
  .next (cmdWrite via O.WARM_RESET 0 v (warmResetAct v) s)

end Sys2Proof.Machine
end

