-- ==== Sys2Proof/Machine/Firmware.lean ====
section
/-! DEFINITION. Firmware update (R480-R482). -/

namespace Sys2Proof.Machine

/-- The slot that is not active. -/
def State.spareSlot (s : State) : Nat := 1 - s.flash.active

/-- The update's state. -/
def State.fwState (s : State) : Nat := s.elN O.FW_STATE 0

/-- `FW_SLOT` of a slot follows its image. -/
def refreshSlot (k : Nat) (ok : Bool) (s : State) : State :=
  s.setEl O.FW_SLOT k (put (Config.imageVersion (s.fw.image k)).toNat 0 ||| put (Config.imageSecVersion (s.fw.image k)).toNat 32
    ||| put ok.toNat 48)

/-- A write of `FW_BEGIN`: an image length up to 64 MiB starts an update, 0 abandons the one being received. -/
def fwBeginAct (v : W64) (s : State) : State × Status :=
  let st := s.fwState
  if 2 ^ 26 < v.toNat then (s, .invalid)
  else if st = fwVerifying || (st = fwReceiving && decide (v ≠ 0#64)) then (s, .busy)
  else if v = 0#64 then (if st = fwReceiving then ({ s with fw := { s.fw with len := 0 } }.setN O.FW_STATE 0 fwIdle, .ok) else (s, .ok))
  else
    let k := s.spareSlot
    let s1 : State := { s with fw := { (s.fw.withSlot k false []) with len := v.toNat } }
    (refreshSlot k false (s1.setN O.FW_STATE 0 fwReceiving), .ok)

/-- FW_BEGIN. -/
def execFwBegin (via : Via) (v : W64) (s : State) : Host.Outcome State Fault Refusal :=
  .next (cmdWrite via O.FW_BEGIN 0 v (fwBeginAct v) s)

/-- A write of `FW_PAGE`: the page in `FW_BUFFER` is programmed into the slot; `INVALID_VALUE` beyond the image, `BUSY` while a page is
programmed or no new program may start (R476). -/
def fwPageAct (v : W64) (s : State) : State × Status :=
  if s.fw.len ≤ v.toNat * 32768 then (s, .invalid)
  else if s.fw.page.isSome || s.journal.blocked then (s, .busy)
  else ({ s with fw := { s.fw with page := some (v.toNat, (List.range 4096).map (fun k => s.el O.FW_BUFFER k)) } }, .ok)

/-- FW_PAGE. -/
def execFwPage (via : Via) (v : W64) (s : State) : Host.Outcome State Fault Refusal :=
  .next (cmdWrite via O.FW_PAGE 0 v (fwPageAct v) s)

/-- A page is programmed; a `SAFE` trigger that waited for it takes effect unless a journal program still runs (R476). -/
def pageDone (s : State) : State :=
  match s.fw.page with
  | none => s
  | some _ =>
    let slot := s.spareSlot
    let s2 := refreshSlot slot false { s with fw := s.fw.landPage slot }
    if s2.health.safePend && (s2.journal.pending.isEmpty || s2.journal.stopped) then enterSafe s2 else s2

/-- FW_PAGE_PROGRAMMED. -/
def execFwPageProgrammed (s : State) : Host.Outcome State Fault Refusal := .next (pageDone s)

/-- A write of `FW_FINISH`: 1 only; the slot is authenticated. -/
def fwFinishAct (v : W64) (s : State) : State × Status :=
  if v ≠ 1#64 then (s, .invalid)
  else if s.fw.page.isSome then (s, .busy)
  else (s.setN O.FW_STATE 0 fwVerifying, .ok)

/-- FW_FINISH. -/
def execFwFinish (via : Via) (v : W64) (s : State) : Host.Outcome State Fault Refusal :=
  .next (cmdWrite via O.FW_FINISH 0 v (fwFinishAct v) s)

/-- The slot has been authenticated: its activation is journaled, and it is valid and the update `READY` with the seal (R482); or
`FAILED`. -/
def verified (ok : Bool) (s : State) : State :=
  if s.fwState ≠ fwVerifying then s
  else
    let k := s.spareSlot
    let good := ok && authentic (s.fw.image k)
    let s1 := refreshSlot k good s
    if good then journalAdd (.activeSlot k) s1 else s1.setN O.FW_STATE 0 fwFailed

/-- FW_VERIFY_DONE. -/
def execFwVerifyDone (ok : Bool) (s : State) : Host.Outcome State Fault Refusal := .next (verified ok s)

end Sys2Proof.Machine
end

