-- ==== Sys2Proof/Machine/Health.lean ====
section
/-! DEFINITION. Temperature and input power (R474-R476), acknowledgement of errors (R471), fenced tiles (R472), the service watchdog
(R473) and in-service testing (R484-R487). -/

namespace Sys2Proof.Machine

/-! ## Sensors (R474, R475, Table 13.10) -/

/-- The readings in the order of `TEMP_MC`, the logic die in the first place; a missing one reads 0. -/
def reading (l : List Int) (k : Nat) : Int := l.getD k 0

/-- The highest die reading: logic die, stacks, control cluster. -/
def dieMax (l : List Int) : Int := ([1, 2, 3, 4, 5, 6, 7, 8, 10].map (reading l)).foldl max (reading l 0)

/-- `TEMP_MC`, `VIN_MV` and `PIN_MW` show a reading. -/
def showReadings (l : List Int) (milliV milliW : Nat) (s : State) : State :=
  let s1 := (List.range 10).foldl (fun (t : State) i => t.setEl O.TEMP_MC (i + 1) (intW64 (reading l (i + 1)))) s
  ((s1.setEl O.TEMP_MC 0 (intW64 (dieMax l))).setN O.VIN_MV 0 milliV).setN O.PIN_MW 0 milliW

/-- The sensor with the highest die reading, as the `UNIT` of a record. -/
def hottest (l : List Int) : Nat := ([0, 1, 2, 3, 4, 5, 6, 7, 8, 10].find? (fun k => decide (reading l k = dieMax l))).getD 0

/-- A warning starts at 90 °C and is released below 88 °C. -/
def warnStep (l : List Int) (s : State) : State :=
  let t := dieMax l
  if 90000 ≤ t && !s.health.warned then
    raiseError 0xD0 1 13 (hottest l) 0xFFFF s.freeNext { s with health := { s.health with warned := true } }
  else if t < 88000 then { s with health := { s.health with warned := false } }
  else s

/-- The coolant inlet outside 15-45 °C is recorded once until it is back in range. -/
def inletStep (l : List Int) (s : State) : State :=
  let t := reading l 9
  if (t < 15000 || decide (45000 < t)) then
    if s.health.inletWarned then s
    else raiseError 0xD0 1 13 9 0xFFFF s.freeNext { s with health := { s.health with inletWarned := true } }
  else { s with health := { s.health with inletWarned := false } }

/-- Assay throttle at 95 °C, drain throttle after 2 s of it under assay throttle; released below 92 °C for 1 s, drains first. -/
def throttleStep (l : List Int) (s : State) : State :=
  let t := dieMax l
  let h := s.health
  if 95000 ≤ t then
    if !h.assayThrottle then
      raiseError 0xD1 1 13 (hottest l) 0xFFFF s.freeNext
        { s with health := { h with assayThrottle := true, hotSince := s.clock, coolSince := none } }
    else if h.hotSince + 2 * sec ≤ s.clock then { s with health := { h with drainThrottle := true, coolSince := none } }
    else { s with health := { h with coolSince := none } }
  else if t < 92000 then
    match h.coolSince with
    | none => { s with health := { h with coolSince := some s.clock, hotSince := s.clock } }
    | some c =>
      if s.clock < c + sec then { s with health := { h with hotSince := s.clock } }
      else if h.drainThrottle then { s with health := { h with drainThrottle := false, hotSince := s.clock } }
      else { s with health := { h with assayThrottle := false, hotSince := s.clock } }
  else { s with health := { h with coolSince := none, hotSince := s.clock } }

/-- The thermal emergency at 105 °C: `TEMP_SAFE` is recorded once, and `SAFE` is triggered (R476). -/
def emergencyStep (l : List Int) (s : State) : State :=
  if 105000 ≤ dieMax l && !s.mode.safeTemp then
    let s1 := raiseError 0xD2 3 13 (hottest l) 0xFFFF s.freeNext s
    safeTrigger (s1.setMode { s1.mode with safeTemp := true })
  else s

/-- `THERMAL_STATE`: 0 `NORMAL`, 1 `WARNING`, 2 `THROTTLE_ASSAY`, 3 `THROTTLE_DRAIN`, 4 `SAFE`. -/
def refreshThermal (s : State) : State :=
  let h := s.health
  s.setN O.THERMAL_STATE 0
    (if s.mode.safe && s.mode.safeTemp then 4 else if h.drainThrottle then 3 else if h.assayThrottle then 2 else if h.warned then 1 else 0)

/-- The die sensors are read, every 100 µs; not in `COLD`. -/
def sensorRead (l : List Int) (milliV milliW : Nat) (s : State) : State :=
  if s.mode.base = .cold then s
  else
    let s1 := advanceTo (s.health.readAt + 100 * us) s
    let s2 := showReadings l milliV milliW { s1 with health := { s1.health with readAt := s1.clock } }
    refreshThermal (emergencyStep l (throttleStep l (inletStep l (warnStep l s2))))

/-- SENSOR_READ. -/
def execSensorRead (milliC : List Int) (milliV milliW : Nat) (s : State) : Host.Outcome State Fault Refusal :=
  .next (sensorRead milliC milliV milliW s)

/-- The input outside 38-62 V for 1 ms: `INPUT_RANGE`, and `SAFE` is triggered. -/
def inputRange (milliV : Nat) (s : State) : State :=
  if s.mode.base = .cold || (decide (38000 ≤ milliV) && decide (milliV ≤ 62000)) then s
  else
    let s1 := raiseError 0xC0 3 12 noUnit 0xFFFF 0#64 (s.setN O.VIN_MV 0 milliV)
    safeTrigger (s1.setMode { s1.mode with safeInput := true })

/-- INPUT_RANGE. -/
def execInputRange (milliV : Nat) (s : State) : Host.Outcome State Fault Refusal := .next (inputRange milliV s)

/-- A rail out of tolerance for 100 µs: `RAIL_FAULT`, and `SAFE` is triggered. -/
def railFault (rail : Nat) (s : State) : State :=
  if s.mode.base = .cold then s
  else
    let s1 := raiseError 0xC1 3 12 rail 0xFFFF s.freeNext s
    safeTrigger (s1.setMode { s1.mode with safeRail := true })

/-- RAIL_FAULT. -/
def execRailFault (rail : Nat) (s : State) : Host.Outcome State Fault Refusal := .next (railFault rail s)

/-! ## Error acknowledgement (R471) -/

/-- A source's first and secondary records, overflow count and `ERR_NOTIFIED` clear. -/
def errAckAct (src : Nat) (v : W64) (s : State) : State × Status :=
  if v ≠ 1#64 then (s, .invalid)
  else
    let s1 := putRecord O.ERR_SECOND src 0#64 0#64 0#64 (putRecord O.ERR_FIRST src 0#64 0#64 0#64 s)
    (refreshSummary ((s1.setN O.ERR_OVERFLOW src 0).setN O.ERR_NOTIFIED src 0), .ok)

/-- ERR_ACK. -/
def execErrAck (via : Via) (src : Nat) (v : W64) (s : State) : Host.Outcome State Fault Refusal :=
  .next (cmdWrite via O.ERR_ACK src v (errAckAct src v) s)

/-! ## Fenced tiles (R472) -/

/-- A tile is fenced: the sequence of R79, `TILE_FENCED`, and `DEGRADED` with its cause. -/
def fenceTile (t : Nat) (s : State) : State :=
  let s0 := (List.range 8).foldl (fun (u : State) k =>
    u.setEl O.SQ_STATUS (8 * t + k) (setBit (u.el O.SQ_STATUS (8 * t + k)) 4 false)) s
  let s1 := (gateTile t s0).setN O.TILE_FENCED t 1
  s1.setMode { s1.mode with tileFenced := true }

/-- An error of a tile takes its action of Table 13.7: `TILE_CE` is only recorded, `TILE_UE` and `SOLDER_PARITY` fence the tile. -/
def tileError (t : Nat) (e : TileError) (s : State) : State :=
  match e with
  | .corrected => raiseError 0x20 0 2 t 0xFFFF s.freeNext s
  | .uncorrectable => fenceTile t (raiseError 0x21 2 2 t 0xFFFF s.freeNext s)
  | .parity => fenceTile t (raiseError 0x22 2 15 t 0xFFFF s.freeNext s)

/-- TILE_UE. -/
def execTileUe (tile : Fin 16) (kind : TileError) (s : State) : Host.Outcome State Fault Refusal :=
  .next (tileError tile.val kind s)

/-- The status and counters of the units on a tile, as objects with their elements per tile. -/
def tileStatus : List (ObjInfo × Nat) :=
  [(O.CU_STATUS, 512), (O.CU_HITS, 512), (O.SQ_STATUS, 8), (O.SQ_TRIGGERS, 8), (O.SQ_STEPS, 8), (O.SQ_MARK, 128), (O.SQ_CNT_VALUE, 32)]

/-- A write of `TILE_RESET`: 1 only, `BUSY` while an armed bench uses the tile; status and counters of its units clear, their settings
stay, and the memories are tested. -/
def tileResetAct (t : Nat) (v : W64) (s : State) : State × Status :=
  if v ≠ 1#64 then (s, .invalid)
  else if s.tileUsed t then (s, .busy)
  else
    let s1 := tileStatus.foldl (fun (u : State) p => u.clearEls p.1 (t * p.2) p.2) s
    ({ s1 with tileTest := addNew s1.tileTest t }, .ok)

/-- TILE_RESET. -/
def execTileReset (via : Via) (tile : Nat) (v : W64) (s : State) : Host.Outcome State Fault Refusal :=
  .next (cmdWrite via O.TILE_RESET tile v (tileResetAct tile v) s)

/-- The test of a tile's memories ends: passed, the tile is no longer fenced and returns to the state `TILE_POWER` selects; failed, it is
fenced and a `TILE_UE` record is raised. -/
def tileTested (t : Nat) (pass : Bool) (s : State) : State :=
  if t ∈ s.tileTest then
    let s1 : State := { s with tileTest := s.tileTest.filter (fun k => decide (k ≠ t)) }
    if pass then
      let s2 := s1.setN O.TILE_FENCED t 0
      if s2.elN O.TILE_POWER t = 0 then ungateTile t s2 else gateTile t s2
    else tileError t .uncorrectable s1
  else s

/-- TILE_TEST_DONE. -/
def execTileTestDone (tile : Fin 16) (pass : Bool) (s : State) : Host.Outcome State Fault Refusal :=
  .next (tileTested tile.val pass s)

/-! ## The service watchdog (R473) -/

/-- Whether the service firmware runs: from `BRINGUP` on. -/
def State.serviceRuns (s : State) : Bool := !decide (s.mode.base = .cold) && !decide (s.mode.base = .boot) && !s.svcDown

/-- The watchdog was not refreshed for 1 s: the service cores restart, their locks break, every VDP session closes. -/
def watchdog (s : State) : State :=
  if s.serviceRuns then
    let s1 := raiseError 0xA1 2 10 noUnit 0xFFFF 0#64 s
    let s2 := (List.range 4).foldl (fun t c => breakLocksOf (1, c) t) s1
    closeAllSessions { s2 with svcDown := true }
  else s

/-- SERVICE_WATCHDOG. -/
def execServiceWatchdog (s : State) : Host.Outcome State Fault Refusal := .next (watchdog s)

/-- SERVICE_RESTART_DONE. -/
def execServiceRestartDone (s : State) : Host.Outcome State Fault Refusal := .next { s with svcDown := false }

/-! ## In-service testing (R484-R487) -/

/-- Whether a unit of a kind is free to be tested (R484); an ingot while its store takes background accesses. Kind 0 numbers condition
units, then sequencers, then engines (log entry 31). -/
def State.testable (s : State) (kind unit : Nat) : Bool :=
  if kind = 0 then
    if unit < 8192 then decide (s.elN O.CU_OWNER unit = noBench)
    else if unit < 8320 then decide (s.elN O.SQ_OWNER (unit - 8192) = noBench)
    else decide (unit < 8324) && decide (s.elN O.AE_OWNER (unit - 8320) = noBench)
  else if kind = 1 then
    decide (unit < 256) && s.isUp unit && !s.armedBenches.any (fun b => s.usesLane b unit)
  else if kind = 2 then
    decide (unit < s.elN O.TRACE_INGOTS 0) && decide (s.ingotHolder unit = ownerFree) && !s.scrubWaits && s.frozen.isEmpty
  else
    decide (unit < 262144) && !s.cellsHeld.contains unit && !s.fencedBanks.contains (unit / bankCells)
      && decide (65536 + s.othersReserve none ≤ s.poolFree)

/-- Whether the touchstone runs a kind now (R486). -/
def State.tests (s : State) (kind : Nat) : Bool :=
  bit (s.el O.TS_ENABLE 0) kind && !s.mode.safe && s.mode.recovery.isNone && !decide (s.mode.base = .quiesce)
    && !decide (s.mode.base = .factory) && s.serviceRuns

/-- The start of a kind's last slot. -/
def State.lastSlot (s : State) (kind : Nat) : Option Nat := (s.testing.find? (fun p => decide (p.1 = kind))).map (fun p => p.2.2)

/-- The tile whose memories a unit of kind 0 uses; an engine lies on none. -/
def unitTile (unit : Nat) : Option Nat :=
  if unit < 8192 then some (cuTile unit) else if unit < 8320 then some (sqTile (unit - 8192)) else none

/-- One cell of an ingot is tested: written with a pattern, read back, and scrubbed again (R484). Which cell a slot takes is left open: a
free value. An error that its check symbols show is that of a store cell (R487), and the ingot is left scrubbed. -/
def testIngot (ingot : Nat) (found : TestOutcome) (s : State) : State :=
  let c := s.freeNext.toNat % 1024
  let access (w : Bool) (t : State) : State := (t.writeRanks ingot c).foldl (fun u r => accessRank w ingot c u r) t
  let s1 := access true s.drawn
  match found with
  | .corrected => refreshStore (access true (fetchCell ingot c [1] s1))
  | .uncorrectable => refreshStore (scrubCells ingot (fetchCell ingot c [2] s1))
  | _ => refreshStore (access true (fetchCell ingot c [] s1))

/-- What a slot's test of a unit does beside the count: an error found through check bits is handled under its own class (R487,
Table 13.7); the class of an error in a pool cell is that of its bank. -/
def testUnit (kind unit : Nat) (found : TestOutcome) (s : State) : State :=
  if kind = 2 then testIngot unit found s
  else match found with
    | .corrected => if kind = 0 then (match unitTile unit with | some t => tileError t .corrected s | none => s) else s
    | .uncorrectable =>
      if kind = 0 then (match unitTile unit with | some t => tileError t .uncorrectable s | none => s)
      else if kind = 3 then poolError (unit / bankCells) s
      else s
    | _ => s

/-- One test slot: at most one per 100 µs of its kind; counted, and a mismatch recorded, without effect on the unit (R485, R487). That an
error found through check bits is no failure of `TS_FAILS` is read from R487 (DEDUCED, log entry 177). -/
def testSlot (kind unit : Nat) (found : TestOutcome) (s : State) : State :=
  if !s.tests kind || !s.testable kind unit then s
  else
    let s1 := match s.lastSlot kind with
      | none => s
      | some t => advanceTo (t + 100 * us) s
    let s2 : State := { s1 with testing := (kind, unit, s1.clock) :: s1.testing.filter (fun p => !decide (p.1 = kind)) }
    let s3 := testUnit kind unit found (s2.inc O.TS_PASSES kind)
    if found = .mismatch then raiseError 0xE0 1 14 unit 0xFFFF (put kind 0) ((s3.inc O.TS_FAILS kind).setN O.TS_LAST_FAIL kind unit)
    else s3

/-- TEST_SLOT. -/
def execTestSlot (kind : Fin 4) (unit : Nat) (found : TestOutcome) (s : State) : Host.Outcome State Fault Refusal :=
  .next (testSlot kind.val unit found s)

end Sys2Proof.Machine
end

