-- ==== Sys2Proof/Machine/Lines.lean ====
section
/-! DEFINITION. The directory of the service cores' memory lines (R271, R272): who holds a line, a write-back in flight, the memory read
that a grant began, the requests that wait or were told to retry, and the order of what comes in one CTL cycle. -/

namespace Sys2Proof.Machine

/-! ## One request or write-back -/

/-- A core holds a line from its grant on, while the memory read runs (Table 7.8). -/
def grantLine (core : Nat) (x : Holding) : Holding := { x with owner := some core, reading := some core }

/-- A request for ownership: it waits behind a write-back or a memory read in progress; else the line comes from memory, or passes
from its holder (R272). A reissued request is no longer one to retry. -/
def requestLine (x0 : Holding) (core : Nat) : Holding :=
  let x := { x0 with retry := x0.retry.filter (fun c => decide (c ≠ core)) }
  if x.wb.isSome || x.reading.isSome then { x with waiting := addNew x.waiting core }
  else if x.owner.isNone then grantLine core x
  else { x with owner := some core }

/-- Whether a core may write a line back: it holds the line, with its data. -/
def Holding.heldBy (x : Holding) (core : Nat) : Bool := decide (x.owner = some core) && x.reading.isNone

/-- A write-back by the core that holds the line: from here it is in flight, and nobody holds the line. -/
def writeBackLine (x : Holding) (core : Nat) : Holding := { x with owner := none, wb := some core }

/-! ## What comes in one CTL cycle -/

/-- A line whose order starts anew: from how it stands. -/
def Line.settled (x : Holding) (cycle : Nat) : Line := { x with cycle := cycle, before := x }

/-- A line as something comes for it in a cycle. -/
def Line.inCycle (x : Line) (cycle : Nat) : Line := if x.cycle = cycle then x else Line.settled x.toHolding cycle

/-- What came in the cycle, in its order: the write-back first, then the requests by ascending core (R272). -/
def Line.ordered (x : Line) : Line :=
  let y := match x.back with
    | none => x.before
    | some c => writeBackLine x.before c
  { x with toHolding := ((List.range 4).filter (fun c => x.asked.contains c)).foldl requestLine y }

/-- A core's request comes in. -/
def askLine (core cycle : Nat) (x : Line) : Line :=
  let y := x.inCycle cycle
  ({ y with asked := addNew y.asked core }).ordered

/-- OWNERSHIP_REQUEST. -/
def execOwnershipRequest (core : Fin 4) (line : Nat) (s : State) : Host.Outcome State Fault Refusal :=
  .next (s.setLine line (askLine core.val s.ctlCycle (s.line line)))

/-- A core's write-back comes in: by the core that held the line as the cycle began, or that holds it by now. A core that does not hold
the line, or still waits for its data, has nothing to write back. -/
def backLine (core cycle : Nat) (x : Line) : Line :=
  let y := x.inCycle cycle
  if y.before.heldBy core then ({ y with back := some core }).ordered
  else if y.heldBy core then Line.settled (writeBackLine y.toHolding core) cycle
  else x

/-- WRITE_BACK. -/
def execWriteBack (core : Fin 4) (line : Nat) (s : State) : Host.Outcome State Fault Refusal :=
  .next (s.setLine line (backLine core.val s.ctlCycle (s.line line)))

/-! ## The memory -/

/-- A write-back has reached memory: the lowest-numbered waiting core is granted, the others are told to retry (R272). -/
def lineWritten (x : Holding) : Holding :=
  let y := { x with wb := none, waiting := [] }
  match listMin x.waiting with
  | none => y
  | some core => grantLine core { y with retry := (x.waiting.filter (fun c => decide (c ≠ core))).foldl addNew x.retry }

/-- The data of a memory read have been sent: the requests that waited are forwarded in order, and ownership passes along them. -/
def lineRead (x : Holding) : Holding :=
  { x with reading := none, waiting := [], owner := (x.waiting.getLast?).or x.owner }

/-- LINE_MEMORY_DONE. -/
def execLineMemoryDone (line : Nat) (s : State) : Host.Outcome State Fault Refusal :=
  let x := s.line line
  .next (s.setLine line (if x.wb.isSome then Line.settled (lineWritten x.toHolding) s.ctlCycle
    else if x.reading.isSome then Line.settled (lineRead x.toHolding) s.ctlCycle else x))

end Sys2Proof.Machine
end

