-- ==== Sys2Proof/Machine/Codeword.lean ====
section
/-! DEFINITION. Codewords of the probe link (R10-R13, R24): the RS(544,514) code, the placing of the tag and of the 128 link words in
message symbols, the four frames, and the codewords of the return direction. `CODEWORD_DECODE` and the frame commands carry what a
decoder gives of a forward codeword: its tag's fields, the symbols in error, its frames. -/

namespace Sys2Proof.Machine

/-- A symbol of GF(2^10). -/
abbrev Sym := BitVec 10

/-- The field of Clause 91 is that of x^10 + x^3 + 1 (R10 names the clause; PRESUMED, log entry 131). -/
def gfDouble (a : Sym) : Sym := if a.getLsbD 9 then (a <<< 1) ^^^ 0x009#10 else a <<< 1

/-- A product: one doubling for each bit of the second factor, from the highest. -/
def gfMul (a b : Sym) : Sym :=
  (List.range 10).foldl (fun acc i => let d := gfDouble acc; if b.getLsbD (9 - i) then d ^^^ a else d) 0#10

/-- The powers of the field's element α = 2. -/
def gfPow : Nat → Sym
  | 0 => 1#10
  | n + 1 => gfDouble (gfPow n)

/-- A polynomial, highest power first, times (x + r). -/
def polyTimes (p : List Sym) (r : Sym) : List Sym :=
  List.zipWith (fun a b => a ^^^ b) (p ++ [0#10]) (0#10 :: p.map (fun a => gfMul a r))

/-- The generator polynomial: the product of x + α^j for j = 0 to 29 (PRESUMED, log entry 131). -/
def rsGenerator : List Sym := (List.range 30).foldl (fun p j => polyTimes p (gfPow j)) [1#10]

/-- One step of the division by the generator: the remainder after one more message symbol. -/
def rsStep (rem : List Sym) (m : Sym) : List Sym :=
  let q := rem.headD 0#10 ^^^ m
  List.zipWith (fun a g => a ^^^ gfMul q g) (rem.drop 1 ++ [0#10]) (rsGenerator.drop 1)

/-- The 30 parity symbols of 514 message symbols. -/
def rsParity (msg : List Sym) : List Sym := msg.foldl rsStep (List.replicate 30 0#10)

/-- The four symbols of a link word, bits [39:30] first (R11). -/
def wordSymbols (w : W40) : List Sym := [fld w 39 30, fld w 29 20, fld w 19 10, fld w 9 0].map (BitVec.ofNat 10)

/-- A codeword: the tag in symbols 0 and 1, link word i in symbols 2 + 4i to 5 + 4i, parity in 514 to 543 (R11). -/
def codeword (tag : BitVec 20) (words : List W40) : List Sym :=
  let msg := [BitVec.ofNat 10 (fld tag 19 10), BitVec.ofNat 10 (fld tag 9 0)] ++ words.flatMap wordSymbols
  msg ++ rsParity msg

/-- The tag of a codeword, its fields `CW_SEQ` and `TX_STATE` (Table 1.2), its link words, and its frames, header first. -/
def cwTag (c : List Sym) : BitVec 20 := (c.getD 0 0#10) ++ (c.getD 1 0#10)
def tagSeq (t : BitVec 20) : Nat := fld t 19 10
def tagState (t : BitVec 20) : Nat := fld t 9 8
def cwWord (c : List Sym) (i : Nat) : W40 :=
  BitVec.ofNat 40 (((List.range 4).map (fun j => (c.getD (2 + 4 * i + j) 0#10).toNat * 2 ^ (30 - 10 * j))).sum)
def cwFrame (c : List Sym) (f : Nat) : W40 × List W40 :=
  (cwWord c (32 * f), (List.range 31).map (fun j => cwWord c (32 * f + 1 + j)))

/-- The symbols in which a received codeword differs from the one sent: the code corrects up to 15 of them (R10). -/
def badSymbols (sent got : List Sym) : Nat := ((sent.zip got).filter (fun p => !decide (p.1 = p.2))).length

/-- The tag of the return direction (R12): `CW_SEQ` rises by 1 with every codeword since the port's transmitters began, one codeword in
340/7 ns; `TX_STATE` is zero. -/
def returnTag (since now : Nat) : BitVec 20 := BitVec.ofNat 10 ((now - since) * 7 / (340 * ns)) ++ 0#10

/-- A codeword of the return direction: four frames, each a message or idle (R24). -/
def returnCodeword (tag : BitVec 20) (frames : List LaneMsg) : List Sym :=
  codeword tag ((frames ++ List.replicate (4 - frames.length) LaneMsg.idle).flatMap (fun m => m.header :: m.payload))

/-- The tag that a lane's return transmitter sends now; none while it does not send. -/
def State.laneTag (s : State) (l : Nat) : Option (BitVec 20) := (s.lane l).txSince.map (fun t => returnTag t s.clock)

end Sys2Proof.Machine
end

