-- ==== Sys2Proof/Machine/Link.lean ====
section
/-! DEFINITION. The probe link (01_probe_link.md): port writes, codewords, data, marker and control frames, the return
direction's messages, and the limits of the lane states. Frames are those of a codeword that `CODEWORD_DECODE` has taken. -/

namespace Sys2Proof.Machine

/-- The eight lanes of a port (R4). -/
def portLanes (p : Nat) : List Nat := (List.range 8).map (fun k => 8 * p + k)

/-! ## Writes -/

/-- A write of 1 starts the port's `OFF` lanes in `HUNT` and its return transmitters; a write of 0 takes every lane to `OFF`
and forgets descriptors and maps (Table 1.9, R506). Refused with `BUSY` while an armed bench uses the port (R257). -/
def portEnableAct (p : Nat) (v : W64) (s : State) : State × Status :=
  if s.portArmed p then (s, .busy)
  else
    let s1 := s.put O.PORT_ENABLE p v
    if v = 1#64 then
      ((portLanes p).foldl (fun t l =>
        if t.laneState l = .off then (enterHunt l t).modLane l (fun x => { x with timeAt := t.clock, sinceEcho := 0, txSince := some t.clock })
        else t) s1, .ok)
    else (refreshConflicts ((portLanes p).foldl (fun t l => laneOff l (recallQuenches l t)) s1), .ok)

/-- `PORT_ENABLE`. -/
def execPortEnable (via : Via) (p : Nat) (v : W64) (s : State) : Host.Outcome State Fault Refusal :=
  .next (cmdWrite via O.PORT_ENABLE p v (portEnableAct p v) s)

/-- The counters of a lane clear (Table 1.10, R82); a wait for credit that runs counts from here. -/
def clearLaneCounters (l : Nat) (s0 : State) : State :=
  let s := s0.modLane l (fun x => { x with waitFrom := x.waitFrom.map (fun _ => s0.clock) })
  [O.FEC_CORR_SYM, O.FEC_UNCORR_CW, O.FRAME_ERR, O.STAMP_ERR, O.CREDIT_OVERRUN, O.CREDIT_WAIT_NS, O.MISSING_PARTS].foldl
    (fun t o => t.setEl o l 0#64) s

/-- `CLEAR_COUNTERS`: the lane counters of the port clear (R42, R82); accepted while an armed bench uses the port (R43). -/
def clearCountersAct (p : Nat) (s : State) : State × Status :=
  ((portLanes p).foldl (fun t l => clearLaneCounters l t) s, .ok)

/-- `CLEAR_COUNTERS`. -/
def execClearCounters (via : Via) (p : Nat) (v : W64) (s : State) : Host.Outcome State Fault Refusal :=
  .next (cmdWrite via O.CLEAR_COUNTERS p v (clearCountersAct p) s)

/-- `SEND_DESC_REQ`: `DESC_REQ` with `RESTART` 0 on every lane of the port in `UP` (R24). -/
def sendDescReqAct (p : Nat) (s : State) : State × Status :=
  ((portLanes p).foldl (fun t l => if t.isUp l then sendDescReq l t else t) s, .ok)

/-- `SEND_DESC_REQ`. -/
def execSendDescReq (via : Via) (p : Nat) (v : W64) (s : State) : Host.Outcome State Fault Refusal :=
  .next (cmdWrite via O.SEND_DESC_REQ p v (sendDescReqAct p) s)

/-- `REALIGN`: every lane of the port in `UP` returns to the first step of calibration; refused with `BUSY` while an armed
bench uses the port (R57). -/
def realignAct (p : Nat) (s : State) : State × Status :=
  if s.portArmed p then (s, .busy)
  else ((portLanes p).foldl (fun t l => if t.isUp l then startCalibration l (leaveAligned l .calibrating t) else t) s, .ok)

/-- `REALIGN`. -/
def execRealign (via : Via) (p : Nat) (v : W64) (s : State) : Host.Outcome State Fault Refusal :=
  .next (cmdWrite via O.REALIGN p v (realignAct p) s)

/-! ## Signal and codewords -/

/-- A signal appears: an `ABSENT` lane goes to `HUNT`; a lane in `HUNT` starts its 20 ms (Table 1.9). -/
def signalDetect (l : Nat) (s : State) : State :=
  if s.mode.safe then s
  else if s.laneState l = .absent then (enterHunt l s).modLane l (fun x => { x with signal := true, signalAt := s.clock })
  else if s.laneState l = .hunt && !(s.lane l).signal then
    s.modLane l (fun x => { x with signal := true, signalAt := s.clock })
  else s

/-- `SIGNAL_DETECT`. -/
def execSignalDetect (l : Fin 256) (s : State) : Host.Outcome State Fault Refusal := .next (signalDetect l.val s)

/-- Whether a codeword decodes: within the 15-symbol limit, with no error at all under `DETECT_ONLY` (R10, Table 1.11). -/
def decodes (s : State) (l badSyms : Nat) : Bool :=
  if s.elN O.FEC_MODE (l / 8) = 1 then decide (badSyms = 0) else decide (badSyms ≤ 15)

/-- Whether the receiver accepts a polarity while hunting: with `AUTO` either (R40). -/
def polarityOk (s : State) (l : Nat) (inverted : Bool) : Bool :=
  match s.elN O.RX_POLARITY (l / 8) with
  | 0 => !inverted
  | 1 => inverted
  | _ => true

/-- The sequence number after a codeword's. -/
def nextSeq (q : Option (BitVec 10)) : Option (BitVec 10) := q.map (fun c => c + 1#10)

/-- A codeword in `HUNT`: eight consecutive good ones with consecutive `CW_SEQ`, of one polarity, give lock (Table 1.9). -/
def huntCodeword (l : Nat) (ok : Bool) (cwSeq : BitVec 10) (inverted : Bool) (s : State) : State :=
  let x := s.lane l
  let s1 := s.modLane l (fun y => { y with signal := true, signalAt := if x.signal then x.signalAt else s.clock })
  if !ok then s1.modLane l (fun y => { y with good := 0, lastSeq := none })
  else
    let k := if nextSeq x.lastSeq = some cwSeq && decide (x.inverted = inverted) then x.good + 1 else 1
    let s2 := s1.modLane l (fun y => { y with good := k, lastSeq := some cwSeq, inverted := inverted })
    if 8 ≤ k then enterFramed l s2 else s2

/-- Corrected symbols are counted; more than `DEGRADE_SYM_PER_S` in the 1 s that ends now set `DEGRADED` with a warning record
(Table 1.10). -/
def corrected (l n : Nat) (s : State) : State :=
  let x := s.lane l
  let r := (x.corrTimes ++ [(s.clock, n)]).filter (fun p => decide (s.clock < p.1 + sec))
  let s1 := (s.count O.FEC_CORR_SYM l n).modLane l (fun y => { y with corrWindow := x.corrWindow + n, corrTimes := r })
  if decide (s.elN O.DEGRADE_SYM_PER_S (l / 8) < (r.map Prod.snd).sum) && !s.laneFlag l 0 then
    raiseError 0x01 1 0 l 0xFFFF 0#64 (s1.setLaneFlag l 0 true)
  else s1

/-- A codeword of a locked lane that decodes: corrected symbols, `CW_SEQ` breaks, the watermark (R61), and the return of a
`STALLED` lane to calibration (R66). -/
def goodCodeword (l : Nat) (t badSyms : Nat) (cwSeq : BitVec 10) (txState : BitVec 2) (s : State) : State :=
  let seqOk := decide (nextSeq (s.lane l).lastSeq = some cwSeq)
  let s1 := s.modLane l (fun y =>
    { y with badRun := 0, lastSeq := some cwSeq, txState := txState, lastCw := (t : Int), lastCwClock := s.clock })
  let s2 := if badSyms = 0 then s1 else corrected l badSyms s1
  let s3 := if seqOk then s2 else frameError l s2
  if s3.isUp l && decide (s3.alignState l = .stalled) then startCalibration l s3 else s3

/-- A codeword leaves the lane's FEC decoder at module time t (R504). -/
def codewordDecode (l t badSyms : Nat) (cwSeq : BitVec 10) (txState : BitVec 2) (inverted : Bool) (s0 : State) : State :=
  let s := advanceMod t s0
  if s.mode.safe then s
  else if s.laneState l = .hunt then huntCodeword l (decodes s l badSyms && polarityOk s l inverted) cwSeq inverted s
  else if s.isLocked l then
    if decodes s l badSyms && decide (inverted = (s.lane l).inverted) then goodCodeword l t badSyms cwSeq txState s
    else uncorrectable l (s.modLane l (fun y => { y with lastSeq := nextSeq y.lastSeq }))
  else s

/-- `CODEWORD_DECODE`. -/
def execCodewordDecode (l : Fin 256) (t badSyms : Nat) (cwSeq : BitVec 10) (txState : BitVec 2) (inverted : Bool) (s : State) :
    Host.Outcome State Fault Refusal :=
  .next (codewordDecode l.val t badSyms cwSeq txState inverted s)

/-- A codeword period of an `UP` lane in which no codeword decoded counts as one uncorrectable codeword (Table 1.10). -/
def codewordPeriodMissed (l : Nat) (s : State) : State :=
  if s.isUp l && !s.mode.safe then uncorrectable l (s.modLane l (fun y => { y with lastSeq := nextSeq y.lastSeq })) else s

/-- `CODEWORD_PERIOD_MISSED`. -/
def execCodewordPeriodMissed (l : Fin 256) (s : State) : Host.Outcome State Fault Refusal :=
  .next (codewordPeriodMissed l.val s)

/-! ## Adoption of descriptors and maps (R21, R46, R53, R506) -/

/-- The `LANE_GROUP_MAP` elements of a lane follow its map: positions count through the clocks in ascending order. They hold 1,024 groups;
of a longer map the rest shows nowhere (DESIGN CHOICE, log entry 158). -/
def writeGroupMap (l : Nat) (m : LaneMap) (s : State) : State :=
  let es := m.flatMap (fun p => p.2.map (fun g => put 1 63 ||| put p.1 16 ||| put g 0)) |>.take 1024
  let s1 := s.dropKeys (O.LANE_GROUP_MAP.key (1024 * l)) (O.LANE_GROUP_MAP.key (1024 * l + 1024))
  (es.zipIdx.foldl (fun t p => t.put O.LANE_GROUP_MAP (1024 * l + p.2) p.1) s1).bump O.LANE_GROUP_MAP 0

/-- Whether a clock's list differs in two maps. -/
def listChanges (old new : LaneMap) (d : Nat) : Bool :=
  !decide (old.groupsOf d = new.groupsOf d) || !decide (old.hasClock d = new.hasClock d)

/-- The lane adopts a descriptor and its complete map. In `UP`, a differing `DESIGN_ID` takes it out of its domain and back to
calibration (R53). A part in assembly whose list changes has lost its further words; what the previous map has decoded stays (R21).
Armed benches that use the lane are concerned by a differing triple (R46). -/
def adopt (l : Nat) (d : Descr) (m : LaneMap) (s : State) : State :=
  let moved := s.isUp l && !decide (s.laneDesign l = some d.designId)
  let s0 := dropClocks l (fun c => moved || listChanges (s.lane l).map m c) s
  let s1 := if moved then leaveAligned l .calibrating s0 else s0
  let s2 := s1.modLane l (fun x => { x with desc := some d, map := m, pendDesc := none })
  let s3 := (((s2.setEl O.DESIGN_ID l d.designId).setEl O.BUILD_HASH l d.buildHash).setN O.MAP_VERSION l d.mapVersion).setN
    O.CORE_IDENT l (d.coreVersion * 65536 + d.coreId)
  let s4 := writeGroupMap l m s3
  let s5 := if moved then startCalibration l s4 else s4
  let s6 := (s5.armedBenches.filter (fun b => s5.usesLane b l && !decide ((s5.bench b).triple = some d.triple))).foldl
    (fun t b => laneTrouble1 l 1 b t) s5
  laneRejoin l (refreshConflicts s6)

/-! ## Data frames (R15-R17, R26, R62) -/

/-- Whether the row of a part has left the swage already, as when the lane became `ALIGNED` after it: no later stamp than its clock's
latest row, and no later in time by more than lanes of a domain may differ (R54). -/
def State.rowGone (s : State) (p : Part) : Bool :=
  match s.lastOf p.design p.dclk with
  | none => false
  | some r => !stampLater p.stamp r.1 && decide (p.time ≤ r.2 + ((3200 * ns : Nat) : Int))

/-- A part with all its words is delivered (R56, R62): kept for its row, unless it was found missing before or its row has left. The test
of R56 is made on the row's time: a part of a row before the lane's join time is discarded, and a row for which no lane is expected then is
discarded whole. -/
def deliverPart (l : Nat) (p : Part) (s : State) : State :=
  let s1 := s.modLane l (fun y => { y with lastStamp := Tab.insert (Tab.erase y.lastStamp p.dclk) p.dclk p.stamp })
  if s.rowGone p || decide ((p.dclk, p.stamp) ∈ (s.lane l).missCounted) then s1
  else
    let t := match s.timeOfRow p.design p.dclk p.stamp with
      | none => p.time
      | some r => min r p.time
    let ls := s1.expectedLanes p.design p.dclk t
    if ls.contains l then s1.modLane l (fun y => { y with parts := y.parts ++ [p] })
    else
      let s2 := s1.modLane l (fun y => { y with early := y.early ++ [(p.dclk, p.stamp, p.time)] })
      if ls.isEmpty then freeParts p.design p.dclk p.stamp s2 else s2

/-- One word of the lane's stream for clock d: word `pos` of the row with this stamp, of a list of groups. A row whose earlier words
were lost has its part missing (R62); the words of the row that the join marker cut are discarded (R56). -/
def takeWord (l d : Nat) (gs : List Nat) (design : W64) (stamp : W40) (pos : Nat) (w : W40) (time : Int) (s : State) : State :=
  let x := s.lane l
  let cur := x.partsAsm.find? (fun p => decide (p.dclk = d))
  let rest := x.partsAsm.filter (fun p => !decide (p.dclk = d))
  let drop (t : State) : State :=
    match cur with
    | none => t
    | some p => countMissing l d p.stamp (t.modLane l (fun y =>
        { y with partsAsm := rest, parts := y.parts ++ [{ p with words := [], lost := true }] }))
  let finish (p : Part) (t : State) : State :=
    if gs.length ≤ p.words.length then deliverPart l p (t.modLane l (fun y => { y with partsAsm := rest }))
    else t.modLane l (fun y => { y with partsAsm := rest ++ [p] })
  if pos = 0 then
    finish { design := design, dclk := d, stamp := stamp, time := time, words := [w], lost := false, groups := gs } (drop s)
  else
    match cur with
    | some p =>
      if p.stamp = stamp && decide (p.words.length = pos) then finish { p with words := p.words ++ [w] } s
      else countMissing l d stamp (drop s)
    | none =>
      if x.straddled.contains (d, stamp) || x.parts.any (fun p => decide (p.dclk = d) && decide (p.stamp = stamp) && p.lost) then s
      else countMissing l d stamp (s.modLane l (fun y =>
        { y with parts := y.parts ++ [{ design := design, dclk := d, stamp := stamp, time := time, words := [], lost := true, groups := gs }] }))

/-- The words of a data frame, from position `off` of the row with `stamp`; `i` counts the payload words. -/
def takeWords (l d : Nat) (gs : List Nat) (design : W64) (t : Nat) (lat : Int) (stamp : W40) (off : Nat) : Nat → List W40 → State → State
  | _, [], s => s
  | i, w :: ws, s =>
    let k := off + i
    takeWords l d gs design t lat stamp off (i + 1) ws
      (takeWord l d gs design (stamp + BitVec.ofNat 40 (k / gs.length)) (k % gs.length) w (((t + wordTime (i + 1) : Nat) : Int) - lat) s)

/-- A data frame within its credit on a lane in `UP`: header checks (Table 1.3), the extended stamp becomes the held stamp (R17), the
row of the clock's next word is noted as so many rows later (R19), and the words of an `ALIGNED` lane go to the deskew buffer. That a
word beyond the clock's list is a frame error is a DESIGN CHOICE (log entry 132). -/
def dataWords (l t : Nat) (hdr : W40) (pay : List W40) (s : State) : State :=
  let x := s.lane l
  let d := hdrDclk hdr
  let gs := x.map.groupsOf d
  if hdrCount hdr = 0 then frameError l s
  else if !x.held.any (fun p => decide (p.1 = d)) then frameError l s
  else if !x.map.hasClock d then stampError l s
  else if gs.length ≤ hdrOffset hdr then frameError l s
  else
    let stamp := extendStamp (Tab.get (fun _ => 0#40) x.held d) (hdrStampLo hdr)
    let s1 := s.modLane l (fun y =>
      { y with held := Tab.insert (Tab.erase y.held d) d stamp
               lastData := Tab.insert (Tab.erase y.lastData d) d ((hdrOffset hdr + hdrCount hdr) / gs.length)
               midRow := if (hdrOffset hdr + hdrCount hdr) % gs.length = 0 then y.midRow.filter (fun k => decide (k ≠ d)) else addNew y.midRow d })
    if s1.isAligned l then
      match s1.laneDesign l with
      | none => s1
      | some design =>
        takeWords l d gs design t (s1.latency l) stamp (hdrOffset hdr) 0
          ((List.range (hdrCount hdr)).map (payWord pay)) s1
    else s1

/-- A data frame is received. Outside `UP` it is discarded and counted (R41); in `UP` it is counted against the credit (R26),
and a descriptor that waits is adopted with it (R21). `CREDIT_OVERRUN` and `CREDIT_WAIT_NS` are judged on the limit as raised, which may
be up to 31 frames beyond the last `CREDIT` sent (DESIGN CHOICE, log entry 162). -/
def dataFrame (l t : Nat) (hdr : W40) (pay : List W40) (s0 : State) : State :=
  let s := advanceMod t s0
  if s.mode.safe then s
  else if !s.isUp l || decide (hdrKind hdr ≠ 0) then frameError l s
  else
    let n := (s.lane l).frames + 1
    let s1 := s.modLane l (fun y => { y with frames := n })
    if (s.lane l).creditLimit < n then laneFault l .credit (s1.inc O.CREDIT_OVERRUN l)
    else
      let s2 := if (s.lane l).creditLimit = n then
          s1.modLane l (fun y => { y with waitFrom := some (y.waitFrom.getD s.clock) }) else s1
      let s3 := match (s2.lane l).pendDesc with
        | none => s2
        | some p => adopt l p.1 p.2 s2
      creditAfterFree l (dataWords l t hdr pay s3)

/-- `DATA_FRAME`. -/
def execDataFrame (l : Fin 256) (t : Nat) (hdr : W40) (pay : List W40) (s : State) : Host.Outcome State Fault Refusal :=
  .next (dataFrame l.val t hdr pay s)

/-! ## Time checks (R49, R50) -/

/-- The argument of a TIME_SUSPECT event: the offset as a signed count of 1/256 ns, saturated, and the lane (R50). -/
def suspectArg (l : Nat) (offset : Int) : W40 :=
  let q := max (-(2 ^ 31 : Int)) (min (2 ^ 31 - 1 : Int) (roundDiv offset 256))
  BitVec.ofInt 40 (q * 256 + l)

/-- `TIME_SUSPECT` is set on a lane in `UP`: the flag, the warning record, and an event in the armed benches that use the
lane. -/
def setSuspect (l : Nat) (offset : Int) (s : State) : State :=
  let s0 := s.modLane l (fun y => { y with goodEchoes := 0 })
  if s.laneFlag l 1 then s0
  else
    let s1 := raiseError 0x03 1 0 l 0xFFFF 0#64 (s0.setLaneFlag l 1 true)
    (s1.armedBenches.filter (fun b => s1.usesLane b l)).foldl (fun t b => benchEvent b 10 (t.lead b).1 (t.lead b).2 (suspectArg l offset) t) s1

/-- An echo within 8 ns: sixteen in a row clear the flag. -/
def goodEcho (l : Nat) (s : State) : State :=
  let k := (s.lane l).goodEchoes + 1
  let s1 := s.modLane l (fun y => { y with goodEchoes := k })
  if 16 ≤ k && s.laneFlag l 1 then s1.setLaneFlag l 1 false else s1

/-- Whether a marker's epoch makes the lane suspect: more than 1 ms after a step it differs from the current epoch (R49). -/
def epochStale (epoch : Nat) (s : State) : Bool :=
  match s.steppedAt with
  | none => false
  | some p => decide (p + ms < s.clock) && !decide (epoch = s.elN O.TIME_EPOCH 0)

/-- The epoch a marker of a lane in `UP` carries (R49): one that makes the lane suspect sets the flag, with the lane's `TIME_OFFSET` as
the event's offset (DESIGN CHOICE, log entry 133); any that is not the current one breaks the row of good echoes. -/
def markerEpoch (l epoch : Nat) (s : State) : State :=
  if epochStale epoch s then setSuspect l (w64Int (s.el O.TIME_OFFSET l)) s
  else if epoch = s.elN O.TIME_EPOCH 0 then s
  else s.modLane l (fun y => { y with goodEchoes := 0 })

/-! ## Marker frames (R17-R19, R52-R56, R68) -/

/-- Whether a marker entry disagrees (R19): its clock is not in the lane's map, or its stamp differs from the stamp of the row of the
clock's next word. -/
def markerBad (x : Lane) (e : Nat × W40) : Bool :=
  let next : Option W40 :=
    match x.held.find? (fun p => decide (p.1 = e.1)), x.lastData.find? (fun p => decide (p.1 = e.1)) with
    | some h, some q => some (h.2 + BitVec.ofNat 40 q.2)
    | _, _ => none
  !x.map.hasClock e.1 || (match next with
    | none => false
    | some st => !decide (st = e.2))

/-- A marker sets the held stamps of the clocks it lists (R17). -/
def setHeld (l : Nat) (es : List (Nat × W40)) (s : State) : State :=
  s.modLane l (fun y =>
    { y with held := es.foldl (fun h e => Tab.insert (Tab.erase h e.1) e.1 e.2) y.held
             lastData := y.lastData.filter (fun p => !es.any (fun e => decide (e.1 = p.1))) })

/-- The frequency of a design clock from two successive markers: cycles over time (R68). -/
def markFreq (stamps : Nat) (t : Int) : Nat := if t ≤ 0 then 0 else (roundDiv ((stamps * sec : Nat) : Int) t.toNat).toNat

/-- `CLOCK_FREQ_HZ` is updated on every marker (R68). -/
def updateFreq (l : Nat) (core : Int) (es : List (Nat × W40)) (s : State) : State :=
  let old := (s.lane l).marks
  let s1 := es.foldl (fun t e =>
    match old.find? (fun m => decide (m.1 = e.1)) with
    | none => t
    | some m => if core ≤ m.2.2 then t
      else t.setN O.CLOCK_FREQ_HZ e.1 (markFreq (e.2 - m.2.1).toNat (core - m.2.2))) s
  s1.modLane l (fun y => { y with marks := es.map (fun e => (e.1, e.2, core)) })

/-- The mean of a list of integers. -/
def meanInt (l : List Int) : Int := if l.isEmpty then 0 else roundDiv (l.foldl (· + ·) 0) l.length

/-- A path-latency measurement of a lane in calibration (R53-R55): sixteen within 20 ns set `PATH_LATENCY` and admit or refuse
the lane; a wider set is discarded. -/
def measure (l : Nat) (lat : Int) (s : State) : State :=
  let c := (s.lane l).calib ++ [lat]
  if c.length < 16 then s.modLane l (fun y => { y with calib := c })
  else
    let s1 := s.modLane l (fun y => { y with calib := [] })
    if spanWithin 20 c then
      admitOrRefuse l ((s1.setN O.ALIGN_REFUSE_CAUSE l 0).setEl O.PATH_LATENCY l (intW64 (meanInt c)))
    else s1.setN O.ALIGN_REFUSE_CAUSE l 1

/-- What a marker does for alignment: a calibrating lane is measured, or, once admitted, joins its domain (R56). -/
def alignMarker (l : Nat) (lat core : Int) (es : List (Nat × W40)) (s : State) : State :=
  if s.alignState l = .calibrating then
    if (s.lane l).admitted then
      (s.setAlign l .aligned).modLane l (fun y =>
        { y with joinTime := some core, admitted := false, early := [],
                 straddled := es.filter (fun e => y.midRow.contains e.1), leftClocks := y.leftClocks.filter (fun p =>
            !decide (some p.1 = y.desc.map (fun d => d.designId))) })
    else measure l lat s
  else s

/-- A marker frame is received at module time t (header). A misplaced one, not frame 0 of a codeword with `CW_SEQ` 0, or one
with more than 14 clocks, is a frame error (R14, R18, Table 1.10). -/
def markerFrame (l t slot : Nat) (hdr : W40) (pay : List W40) (s0 : State) : State :=
  let s := advanceMod t s0
  let es := markerEntries pay
  if !s.isLocked l then s
  else if hdrKind hdr ≠ 1 || slot ≠ 0 || decide ((s.lane l).lastSeq ≠ some 0#10) || decide (14 < es.length) then frameError l s
  else if !s.isUp l then setHeld l es s
  else if es.any (markerBad (s.lane l)) then stampError l s
  else
    let core := coreTime (payWord pay 0) (payWord pay 1)
    let s1 := updateFreq l core es (setHeld l es s)
    alignMarker l ((t : Int) - core) core es (markerEpoch l (fld (payWord pay 2) 31 0) s1)

/-- `MARKER_FRAME`. -/
def execMarkerFrame (l : Fin 256) (t : Nat) (slot : Fin 4) (hdr : W40) (pay : List W40) (s : State) :
    Host.Outcome State Fault Refusal :=
  .next (markerFrame l.val t slot.val hdr pay s)

/-! ## Map and descriptor frames (R20-R22) -/

/-- The entries of a `GROUP_MAP` frame join those received for their clock; a frame with another `LIST_LEN` begins the clock's list anew
(DESIGN CHOICE, log entry 134). -/
def addMap (bs : List MapBuild) (d len start n : Nat) (pay : List W40) : List MapBuild :=
  let es := (List.range n).map (fun i => (start + i, mapEntry pay i))
  let old := match bs.find? (fun m => decide (m.dclk = d) && decide (m.listLen = len)) with
    | none => []
    | some m => m.entries.filter (fun p => !es.any (fun e => decide (e.1 = p.1)))
  bs.filter (fun m => !decide (m.dclk = d)) ++ [{ dclk := d, listLen := len, entries := old ++ es }]

/-- A `GROUP_MAP` frame is stored for the next descriptor, or is a frame error (R20). -/
def groupMap (l : Nat) (hdr : W40) (pay : List W40) (s : State) : State :=
  let w := payWord pay 0
  let d := fld w 39 32
  let start := fld w 31 22
  let len := fld w 21 12
  let n := fld w 11 6
  if !s.isLocked l then s
  else if hdrKind hdr ≠ 2 || hdrType hdr ≠ 2 || n = 0 || decide (60 < n) || decide (len + 1 < start + n) then frameError l s
  else s.modLane l (fun y => { y with build := addMap y.build d len start n pay })

/-- `GROUP_MAP`. -/
def execGroupMap (l : Fin 256) (hdr : W40) (pay : List W40) (s : State) : Host.Outcome State Fault Refusal :=
  .next (groupMap l.val hdr pay s)

/-- The list of a clock once all its positions are filled. -/
def MapBuild.list (m : MapBuild) : List Nat :=
  (List.range (m.listLen + 1)).map (fun i => lookupNat 0 m.entries i)

/-- Whether the map received is complete for a descriptor (R22): the three conditions of the rule, and no more, so that a descriptor whose
`CLOCKS` or `GROUPS` lie outside Table 1.6 is adopted like any other (DESIGN CHOICE, log entry 158). -/
def mapComplete (bs : List MapBuild) (d : Descr) : Bool :=
  bs.all (fun m => (List.range (m.listLen + 1)).all (fun i => m.entries.any (fun p => decide (p.1 = i))))
    && decide (bs.length = d.clocks) && decide ((bs.map (fun m => m.listLen + 1)).sum = d.groups)

/-- The map received, clocks ascending. -/
def mapOf (bs : List MapBuild) : LaneMap :=
  (List.range 256).filterMap (fun d => (bs.find? (fun m => decide (m.dclk = d))).map (fun m => (d, m.list)))

/-- A `DESCRIPTOR` frame (R20-R22): a wrong format changes nothing but the count; an incomplete map counts one frame error and
is answered with `DESC_REQ`, the map frames received so far forgotten (DESIGN CHOICE, log entry 159); otherwise it is adopted at once
outside `UP`, and with the next data frame in `UP`. -/
def descriptorFrame (l : Nat) (hdr : W40) (pay : List W40) (s : State) : State :=
  if !s.isLocked l then s
  else if hdrKind hdr ≠ 2 || hdrType hdr ≠ 1 || fld (payWord pay 0) 39 32 ≠ 1 then frameError l s
  else
    let d := descrOf pay
    let bs := (s.lane l).build
    let s1 := s.modLane l (fun y => { y with build := [], descReqOut := false })
    if !mapComplete bs d then sendDescReq l (frameError l s1)
    else if s.isUp l then s1.modLane l (fun y => { y with pendDesc := some (d, mapOf bs) })
    else
      let s2 := adopt l d (mapOf bs) s1
      if s2.laneState l = .framed then
        (s2.setLaneState l .described).modLane l (fun y => { y with exchanges := 0 })
      else s2

/-- `DESCRIPTOR`. -/
def execDescriptor (l : Fin 256) (hdr : W40) (pay : List W40) (s : State) : Host.Outcome State Fault Refusal :=
  .next (descriptorFrame l.val hdr pay s)

/-! ## Round-trip compensation (R25, R28) -/

/-- The mean one-way delay of the last eight measured on the lane: what `TIME` carries in `DELAY` (R28). With fewer measured it is the
mean of those, 0 with none (DESIGN CHOICE, log entry 160). -/
def Lane.delayMean (x : Lane) : Int := meanInt x.delays

/-- Whether an integer fits a signed 32-bit element. -/
def fitsI32 (i : Int) : Bool := decide (-(2 ^ 31 : Int) ≤ i) && decide (i < (2 ^ 31 : Int))

/-- A measured offset goes to `TIME_OFFSET`; one that the element cannot hold leaves a free value (log entry 23). -/
def recordOffset (l : Nat) (offset : Int) (s : State) : State :=
  if fitsI32 offset then s.setEl O.TIME_OFFSET l (intW64 offset)
  else (s.setEl O.TIME_OFFSET l (intW64 (signedOf 32 (fld s.freeNext 31 0)))).drawn

/-- The lane's `DELAY` goes to `LINK_DELAY`; one that the element cannot hold leaves a free value (log entry 23). -/
def recordDelay (l : Nat) (d : Int) (s : State) : State :=
  if 0 ≤ d && decide (d < (2 ^ 32 : Int)) then s.setEl O.LINK_DELAY l (intW64 d)
  else (s.setN O.LINK_DELAY l (fld s.freeNext 31 0)).drawn

/-- A `TIME_ECHO` frame whose header left the decoder at module time t answers `TIME` number `TIME_SEQ`: delay and offset of
the exchange, `LINK_DELAY`, `TIME_OFFSET`, the count towards `UP`, and the check of R49 in `UP`. -/
def timeEcho (l t : Nat) (hdr : W40) (pay : List W40) (s0 : State) : State :=
  let s := advanceMod t s0
  if !s.isLocked l then s
  else if hdrKind hdr ≠ 2 || hdrType hdr ≠ 3 then frameError l s
  else
    match (s.lane l).echoes.find? (fun p => decide (p.1 = hdrReqId hdr)) with
    | none => s
    | some e =>
      let t1 : Int := (e.2 : Int)
      let t4 : Int := (t : Int) - (decoderLatency : Nat)
      let t2 := coreTime (payWord pay 0) (payWord pay 1)
      let t3 := coreTime (payWord pay 2) (payWord pay 3)
      let delay := roundDiv ((t4 - t1) - (t3 - t2)) 2
      let offset := roundDiv ((t2 - t1) + (t3 - t4)) 2
      let s1 := s.modLane l (fun y =>
        { y with echoes := y.echoes.filter (fun p => !decide (p.1 = hdrReqId hdr))
                 delays := ((delay :: y.delays).take 8), exchanges := y.exchanges + 1 })
      let s2 := recordOffset l offset (recordDelay l (s1.lane l).delayMean s1)
      if s2.isUp l then
        if (8 * ns : Nat) < offset.natAbs then setSuspect l offset s2 else goodEcho l s2
      else if s2.laneState l = .described && decide (16 ≤ (s2.lane l).exchanges) then enterUp l s2
      else s2

/-- `TIME_ECHO`. -/
def execTimeEcho (l : Fin 256) (t : Nat) (hdr : W40) (pay : List W40) (s : State) : Host.Outcome State Fault Refusal :=
  .next (timeEcho l.val t hdr pay s)

/-- The instant a lane's next `TIME` leaves: the first frame boundary at or after the instant it is due that no `QUENCH` has taken. -/
def State.timeLeaves (s : State) (l : Nat) : Nat :=
  let x := s.lane l
  x.boundary (max s.clock (max x.timeAt x.busyUntil))

/-- Every 1 µs: `TIME` with module time at the instant it leaves, `DELAY` and the epoch; every sixteenth asks for an echo (R25, Table 1.8).
One that a `QUENCH` displaces leaves in the next frame, its time restated (R27). A negative mean goes out as a `DELAY` of 0, and the last
four requests for an echo are remembered (DESIGN CHOICE, log entries 135 and 161). -/
def sendTime (l : Nat) (s0 : State) : State :=
  if s0.txOn l then
    let s := advanceTo (s0.timeLeaves l) s0
    let x := s.lane l
    let echo := decide (x.sinceEcho % 16 = 0)
    let s1 := s.modLane l (fun y =>
      { y with timeSeq := (y.timeSeq + 1) % 65536, timeAt := y.timeAt + us, sinceEcho := (y.sinceEcho + 1) % 16
               busyUntil := y.boundary (s.clock + 1)
               echoes := if echo then (y.echoes ++ [(y.timeSeq, s.mtime)]).reverse.take 4 |>.reverse else y.echoes })
    s1.send (.lane l (.time x.timeSeq echo s.mtime (x.delayMean.toNat % 2 ^ 40) (s.elN O.TIME_EPOCH 0)))
  else s0

/-- `TIME`. -/
def execTime (l : Fin 256) (s : State) : Host.Outcome State Fault Refusal := .next (sendTime l.val s)

/-- `CREDIT` on a lane in `UP`, carrying the current limit (R26). -/
def creditMessage (l : Nat) (s : State) : State := if s.isUp l then sendCredit l (raiseLimit l s) else s

/-- `CREDIT`. -/
def execCredit (l : Fin 256) (s : State) : Host.Outcome State Fault Refusal := .next (creditMessage l.val s)

/-- Every 100 µs an unanswered `DESC_REQ` is sent again (Table 1.8). -/
def descReqRetry (l : Nat) (s : State) : State :=
  if (s.lane l).descReqOut && s.txOn l then sendDescReq l (advanceTo ((s.lane l).descReqAt + 100 * us) s) else s

/-- `DESC_REQ_RETRY`. -/
def execDescReqRetry (l : Fin 256) (s : State) : Host.Outcome State Fault Refusal := .next (descReqRetry l.val s)

/-! ## Limits of the lane states (Table 1.9) -/

/-- 20 ms after signal detect a lane still in `HUNT` faults with `CW_LOCK`; without a signal no time runs. -/
def huntTimeout (l : Nat) (s : State) : State :=
  if s.laneState l = .hunt && (s.lane l).signal then laneFault l .cwLock (advanceTo ((s.lane l).signalAt + 20 * ms) s) else s

/-- `HUNT_TIMEOUT`. -/
def execHuntTimeout (l : Fin 256) (s : State) : Host.Outcome State Fault Refusal := .next (huntTimeout l.val s)

/-- A lane still in `FRAMED` after 5 ms faults with `PROTOCOL`. -/
def framedTimeout (l : Nat) (s : State) : State :=
  if s.laneState l = .framed then laneFault l .protocol (advanceTo ((s.lane l).since + 5 * ms) s) else s

/-- `FRAMED_TIMEOUT`. -/
def execFramedTimeout (l : Fin 256) (s : State) : Host.Outcome State Fault Refusal := .next (framedTimeout l.val s)

/-- A lane still in `DESCRIBED` after 1 ms faults with `PROTOCOL`. -/
def describedTimeout (l : Nat) (s : State) : State :=
  if s.laneState l = .described then laneFault l .protocol (advanceTo ((s.lane l).since + ms) s) else s

/-- `DESCRIBED_TIMEOUT`. -/
def execDescribedTimeout (l : Fin 256) (s : State) : Host.Outcome State Fault Refusal := .next (describedTimeout l.val s)

/-- A lane in `FAULT` for 10 ms returns to `HUNT`. -/
def faultRetry (l : Nat) (s : State) : State :=
  if s.laneState l = .fault && !s.mode.safe then enterHunt l (advanceTo ((s.lane l).since + 10 * ms) s) else s

/-- `FAULT_RETRY`. -/
def execFaultRetry (l : Fin 256) (s : State) : Host.Outcome State Fault Refusal := .next (faultRetry l.val s)

/-- A lane with no signal 100 ms after entering `HUNT` becomes `ABSENT`. -/
def absentTimeout (l : Nat) (s : State) : State :=
  if s.laneState l = .hunt && !(s.lane l).signal then (advanceTo ((s.lane l).since + 100 * ms) s).setLaneState l .absent else s

/-- `ABSENT_TIMEOUT`. -/
def execAbsentTimeout (l : Fin 256) (s : State) : Host.Outcome State Fault Refusal := .next (absentTimeout l.val s)

/-- A 1 s window of corrected symbols ends: `DEGRADED` clears after a full window with no more than `DEGRADE_SYM_PER_S`
(R42). The windows run on through every lane state. -/
def degradedWindow (l : Nat) (s0 : State) : State :=
  let s := advanceTo ((s0.lane l).windowStart + sec) s0
  let above := decide (s.elN O.DEGRADE_SYM_PER_S (l / 8) < (s.lane l).corrWindow)
  (s.setLaneFlag l 0 above).modLane l (fun y => { y with windowStart := s.clock, corrWindow := 0 })

/-- `DEGRADED_WINDOW`. -/
def execDegradedWindow (l : Fin 256) (s : State) : Host.Outcome State Fault Refusal := .next (degradedWindow l.val s)

end Sys2Proof.Machine
end

