-- ==== Sys2Proof/Machine/Outputs.lean ====
section
/-! DEFINITION. Outputs: frequency plans and their hops (R437, R444), clock outputs and SYNC_IN (R438-R440), PPS_OUT (R441), the
TRIG_IO pins' functions, scheduled edges and inputs (R442, R443, R445), and the converters (R453, R454). -/

namespace Sys2Proof.Machine

/-! ## AUX0_OUT (R453) -/

/-- One cycle of the DAC domain, 1/1.28 GHz, in units of 1/65,536 ns. -/
def dacCycle : Nat := 51200

/-- The AUX0 phase accumulator now. -/
def State.aux0PhaseNow (s : State) : Nat :=
  (s.timing.aux0Phase + s.elN O.AUX0_FTW 0 * ((s.clock - s.timing.aux0Base) / dacCycle)) % 2 ^ 48

/-- The accumulator takes a phase in the DAC cycle at hand; the cycles go on as they were. -/
def setAux0Phase (p : Nat) (s : State) : State :=
  { s with timing := { s.timing with
      aux0Base := s.timing.aux0Base + (s.clock - s.timing.aux0Base) / dacCycle * dacCycle, aux0Phase := p } }

/-- The code on AUX0_OUT: the table entry of the phase's bits [47:36]; 0 V while `AUX0_ENABLE` is 0. -/
def State.aux0Code (s : State) : Option (BitVec 16) :=
  if s.elB O.AUX0_ENABLE 0 then some ((s.el O.AUX0_TABLE (s.aux0PhaseNow / 2 ^ 36)).setWidth 16) else none

/-! ## Applications (R439, R440) -/

/-- The enabled outputs, each with its first rising edge. -/
def State.firstEdges (s : State) : List (Nat × Nat) := ((List.range 8).filter s.outEnable).map (fun n => (n, s.firstEdge n))

/-- Every enabled divider restarts at this instant. -/
def restartOutputs (r : Restart) (s : State) : State :=
  let t : State := { s with timing := { s.timing with restartAt := s.clock, restartBy := r } }
  t.send (.outputsRestart s.clock t.firstEdges)

/-- The staged configuration of all eight outputs becomes active. -/
def activateOutputs (s : State) : State := (List.range 8).foldl (fun t n => t.setEl O.OUT_ACTIVE n (t.el O.OUT_CFG n)) s

/-- Whether the outputs were restarted by `r` in this TMB cycle. -/
def State.restarted (s : State) (r : Restart) : Bool :=
  decide (s.timing.restartBy = r) && decide (s.timing.restartAt / ns = s.clock / ns)

/-- An application that no hop holds: with a SYNC_IN edge in the same TMB cycle it makes one application, so the dividers restart
once. -/
def applyOutputs (s : State) : State :=
  let s1 := activateOutputs s
  if s.restarted .sync then s1 else setAux0Phase 0 (restartOutputs .apply s1)

/-- A SYNC_IN edge that no hop holds. -/
def syncOutputs (s : State) : State :=
  let s1 := if s.elN O.APPLY_SOURCE 0 = 1 then activateOutputs s else s
  if s.restarted .apply then s1 else setAux0Phase 0 (restartOutputs .sync s1)

/-- A write of `OUT_APPLY`. -/
def outApplyAct (v : W64) (s : State) : State × Status :=
  if v ≠ 1#64 || decide (s.elN O.APPLY_SOURCE 0 = 1) then (s, .invalid)
  else if s.timing.hop.isSome then ({ s with timing := { s.timing with heldApply := true } }, .ok)
  else (applyOutputs s, .ok)

/-- OUT_APPLY. -/
def execOutApply (via : Via) (v : W64) (s : State) : Host.Outcome State Fault Refusal :=
  .next (cmdWrite via O.OUT_APPLY 0 v (outApplyAct v) s)

/-- A SYNC_IN rising edge: counted, and performed at once or at the end of a hop. -/
def syncIn (s : State) : State :=
  let s1 := s.inc O.SYNC_IN_COUNT 0
  if s1.timing.hop.isSome then { s1 with timing := { s1.timing with heldSync := true } } else syncOutputs s1

/-- SYNC_IN_EDGE. -/
def execSyncInEdge (s : State) : Host.Outcome State Fault Refusal := .next (syncIn s)

/-! ## Plans (R437, R444) -/

/-- A hop to a slot starts: the outputs are held low until it is done. -/
def startHop (slot : Nat) (s : State) : State :=
  ({ s with timing := { s.timing with hop := some slot } } : State).setN O.PLAN_ACTIVE 0 slot

/-- A write of `PLAN_SELECT`. -/
def planSelectAct (v : W64) (s : State) : State × Status :=
  if 8 ≤ v.toNat then (s, .invalid)
  else if s.timing.hop.isSome then (s, .busy)
  else (startHop v.toNat s, .ok)

/-- PLAN_SELECT. -/
def execPlanSelect (via : Via) (v : W64) (s : State) : Host.Outcome State Fault Refusal :=
  .next (cmdWrite via O.PLAN_SELECT 0 v (planSelectAct v) s)

/-- The states of `PLAN_SCHED_STATUS` and `EDGE_SCHED_STATUS`, with the values of R157. -/
def State.planSched (s : State) : Nat := fld (s.el O.PLAN_SCHED_STATUS 0) 2 0
def setPlanSched (v : Nat) (s : State) : State :=
  s.setEl O.PLAN_SCHED_STATUS 0 (setFld (s.el O.PLAN_SCHED_STATUS 0) 2 0 v)

/-- A scheduled hop starts, or waits behind the one that runs (R444). -/
def hopOrWait (slot : Nat) (s : State) : State :=
  if s.timing.hop.isSome then { s with timing := { s.timing with hopDue := some slot } } else startHop slot s

/-- What was held for the end of a hop is performed once. -/
def performHeld (s : State) : State :=
  let a := s.timing.heldApply || (s.timing.heldSync && decide (s.elN O.APPLY_SOURCE 0 = 1))
  let any := s.timing.heldApply || s.timing.heldSync
  let s1 : State := { s with timing := { s.timing with heldApply := false, heldSync := false } }
  let s2 := restartOutputs .hop (if a then activateOutputs s1 else s1)
  if any then setAux0Phase 0 s2 else s2

/-- The hop delayed behind the one that ended starts. -/
def startDelayed (s : State) : State :=
  match s.timing.hopDue with
  | none => s
  | some k =>
    let s1 := startHop k { s with timing := { s.timing with hopDue := none } }
    if s1.planSched = schPending then setPlanSched schDone s1 else s1

/-- A hop is done: a band found by the search is stored, the outputs restart as at an application. -/
def planHopDone (band : Nat) (s : State) : State :=
  match s.timing.hop with
  | none => s
  | some k =>
    let s1 := if s.elB O.PLAN_STATE k then s else s.setEl O.PLAN_STATE k (put 1 0 ||| put (band % 64) 1)
    startDelayed (performHeld { s1 with timing := { s1.timing with hop := none } })

/-- PLAN_HOP_DONE. -/
def execPlanHopDone (band : Fin 64) (s : State) : Host.Outcome State Fault Refusal := .next (planHopDone band.val s)

/-- A pending plan change is over without a hop. -/
def dropDelayed (s : State) : State := { s with timing := { s.timing with hopDue := none } }

/-- A plan change whose time has passed (R445). -/
def latePlan (s : State) : State :=
  if s.elN O.PLAN_LATE_POLICY 0 = 0 then setPlanSched schRejected (dropDelayed s)
  else hopOrWait (s.elN O.PLAN_AT_SLOT 0) (setPlanSched schLate (dropDelayed s))

/-- A write of `PLAN_AT`. -/
def planAtAct (v : W64) (s : State) : State × Status :=
  if v = 0#64 then (setPlanSched schNone (dropDelayed (s.put O.PLAN_AT 0 v)), .ok)
  else if s.timePassed v.toNat then (latePlan s, .late)
  else (setPlanSched schPending (dropDelayed (s.put O.PLAN_AT 0 v)), .ok)

/-- PLAN_AT. -/
def execPlanAt (via : Via) (v : W64) (s : State) : Host.Outcome State Fault Refusal :=
  .next (cmdWrite via O.PLAN_AT 0 v (planAtAct v) s)

/-- The instant of a scheduled plan change. -/
def scheduledHop (s : State) : State :=
  if s.planSched = schPending && s.timing.hopDue.isNone then
    let s1 := advanceMod (s.elN O.PLAN_AT 0 * ns) s
    let s2 := hopOrWait (s1.elN O.PLAN_AT_SLOT 0) s1
    if s1.timing.hop.isSome then s2 else setPlanSched schDone s2
  else s

/-- SCHEDULED_PLAN_HOP. -/
def execScheduledPlanHop (s : State) : Host.Outcome State Fault Refusal := .next (scheduledHop s)

/-! ## PPS_OUT (R441) -/

/-- PPS_OUT takes a level, and the pins under `PPS` with it. -/
def setPps (v : Bool) (s : State) : State :=
  if v = s.timing.ppsHigh then s
  else
    let s1 := ({ s with timing := { s.timing with ppsHigh := v } } : State).send (.pps v)
    (List.range 4).foldl (fun t n => if t.pinFunction n = 3 then drivePin n t else t) s1

/-- `PPS_OUT_WIDTH_US` after the second PPS_OUT falls. -/
def ppsEnd (s : State) : State :=
  if s.timing.ppsHigh then setPps false (advanceTo (s.timing.ppsAt + s.elN O.PPS_OUT_WIDTH_US 0 * us) s) else s

/-- PPS_OUT_WIDTH_END. -/
def execPpsOutWidthEnd (s : State) : Host.Outcome State Fault Refusal := .next (ppsEnd s)

/-- The next whole second of module time: PPS_OUT rises while it is enabled. -/
def ppsSecond (s : State) : State :=
  if !s.tmbOn then s
  else
    let s1 := ppsEnd s
    let s2 := advanceMod ((s1.mtime / sec + 1) * sec) s1
    if s2.elB O.PPS_OUT_ENABLE 0 then setPps true { s2 with timing := { s2.timing with ppsAt := s2.clock } } else s2

/-- PPS_OUT. -/
def execPpsOut (s : State) : Host.Outcome State Fault Refusal := .next (ppsSecond s)

/-! ## TRIG_IO (R442) -/

/-- The state of `EDGE_SCHED_STATUS`. -/
def State.edgeSched (s : State) (n : Nat) : Nat := fld (s.el O.EDGE_SCHED_STATUS n) 2 0
def setEdgeSched (n v : Nat) (s : State) : State :=
  s.setEl O.EDGE_SCHED_STATUS n (setFld (s.el O.EDGE_SCHED_STATUS n) 2 0 v)

/-- A pin leaves a function: what the old one drove is over. -/
def clearPin (n : Nat) (s : State) : State := s.setPin n { s.pin n with setState := false, pulseEnd := none }

/-- A pending edge whose pin leaves `SCHEDULED` has failed (R443); the manual gives no failing code. -/
def failEdge (n : Nat) (s : State) : State :=
  if s.edgeSched n = schPending then
    (setEdgeSched n schFailed (s.setEl O.EDGE_SCHED_STATUS n
      (setFld (s.el O.EDGE_SCHED_STATUS n) 15 8 (fld s.freeNext 7 0)))).drawn
  else s

/-- A write of `TRIG_IO_CFG`. -/
def trigIoAct (n : Nat) (v : W64) (s : State) : State × Status :=
  if 5 ≤ fld v 2 0 || decide (fld v 63 7 ≠ 0) then (s, .invalid)
  else if (match ownerOf (s.elN O.TRIG_PIN_OWNER n) with | none => false | some b => s.isArmed b) then (s, .busy)
  else
    let same := decide (fld v 2 0 = s.pinFunction n)
    let s1 := if same then s else clearPin n (if s.pinFunction n = 4 then failEdge n s else s)
    (drivePin n (s1.put O.TRIG_IO_CFG n v), .ok)

/-- TRIG_IO_CFG. -/
def execTrigIoCfg (via : Via) (n : Nat) (v : W64) (s : State) : Host.Outcome State Fault Refusal :=
  .next (cmdWrite via O.TRIG_IO_CFG n v (trigIoAct n v) s)

/-- The two elements of a TIME96 that stand for an instant of module time (R354). -/
def time96Lo (t : Nat) : W64 := BitVec.ofNat 64 (t / sec % 2 ^ 48)
def time96Hi (t : Nat) : W64 := put (t % sec / ns) 0 ||| put (t % ns) 32

/-- An edge on an `INPUT` pin at module time t: recorded and counted where it rises, `INVERT` giving the sense. -/
def trigInput (n : Nat) (x : PinEdge) (s : State) : State :=
  let t := x.t
  if s.pinFunction n = 0 && x.rising != bit (s.el O.TRIG_IO_CFG n) 6 then
    ((s.setEl O.TRIG_IN_TIME (2 * n) (time96Lo t)).setEl O.TRIG_IN_TIME (2 * n + 1) (time96Hi t)).inc O.TRIG_IN_COUNT n
  else s

/-- TRIG_IO_INPUT_EDGE. -/
def execTrigIoInputEdge (n : Fin 4) (t : PinEdge) (s : State) : Host.Outcome State Fault Refusal := .next (trigInput n.val t s)

/-! ## Scheduled edges (R443, R445) -/

/-- `EDGE_OP` is performed: 0 `RISE`, 1 `FALL`, 2 `PULSE`. -/
def performEdge (n : Nat) (s : State) : State :=
  match s.elN O.EDGE_OP n with
  | 0 => setPinState n true s
  | 1 => setPinState n false s
  | _ => pulsePin n s

/-- An edge whose time has passed (R445). -/
def lateEdge (n : Nat) (s : State) : State :=
  if s.elN O.EDGE_LATE_POLICY n = 0 then setEdgeSched n schRejected s else performEdge n (setEdgeSched n schLate s)

/-- A write of `EDGE_AT`. -/
def edgeAtAct (n : Nat) (v : W64) (s : State) : State × Status :=
  if s.pinFunction n ≠ 4 then (s, .invalid)
  else if v = 0#64 then (setEdgeSched n schNone (s.put O.EDGE_AT n v), .ok)
  else if s.timePassed v.toNat then (lateEdge n s, .late)
  else (setEdgeSched n schPending (s.put O.EDGE_AT n v), .ok)

/-- EDGE_AT. -/
def execEdgeAt (via : Via) (n : Nat) (v : W64) (s : State) : Host.Outcome State Fault Refusal :=
  .next (cmdWrite via O.EDGE_AT n v (edgeAtAct n v) s)

/-- The instant of a scheduled edge. -/
def scheduledEdge (n : Nat) (s : State) : State :=
  if s.edgeSched n = schPending then
    setEdgeSched n schDone (performEdge n (advanceMod (s.elN O.EDGE_AT n * ns) s))
  else s

/-- SCHEDULED_EDGE. -/
def execScheduledEdge (n : Fin 4) (s : State) : Host.Outcome State Fault Refusal := .next (scheduledEdge n.val s)

/-! ## AUX1_OUT (R454) -/

/-- `AUX1_FILL` follows the queue. -/
def setAux1Queue (q : List Nat) (s : State) : State :=
  ({ s with timing := { s.timing with aux1Queue := q } } : State).setN O.AUX1_FILL 0 q.length

/-- A write of `AUX1_PUSH`: four codes, the lowest first. -/
def aux1PushAct (v : W64) (s : State) : State × Status :=
  if 65536 < s.timing.aux1Queue.length + 4 then (s, .noResource)
  else (setAux1Queue (s.timing.aux1Queue ++ [fld v 15 0, fld v 31 16, fld v 47 32, fld v 63 48]) s, .ok)

/-- AUX1_PUSH. -/
def execAux1Push (via : Via) (v : W64) (s : State) : Host.Outcome State Fault Refusal :=
  .next (cmdWrite via O.AUX1_PUSH 0 v (aux1PushAct v) s)

/-- A write of `AUX1_FLUSH`. -/
def aux1FlushAct (s : State) : State × Status := (setAux1Queue [] s, .ok)

/-- AUX1_FLUSH. -/
def execAux1Flush (via : Via) (v : W64) (s : State) : Host.Outcome State Fault Refusal :=
  .next (cmdWrite via O.AUX1_FLUSH 0 v aux1FlushAct s)

/-- The code of this sample: 0 `LEVEL`, 1 `QUEUE`, 2 `OFF`. -/
def aux1Next (s : State) : Nat × State :=
  match s.elN O.AUX1_SOURCE 0 with
  | 0 => (4096 * fld (s.el O.SQ_STATUS (s.elN O.AUX1_SQ 0)) 3 0, s)
  | 1 =>
    match s.timing.aux1Queue with
    | [] => (s.timing.aux1Code, s.inc O.AUX1_UNDERRUN 0)
    | c :: rest => (c, setAux1Queue rest s)
  | _ => (0, s)

/-- One sample: `AUX1_DIV` DAC cycles after the last one. -/
def aux1Sample (s : State) : State :=
  if !s.tmbOn then s else
  let s1 := advanceTo (s.timing.aux1At + s.elN O.AUX1_DIV 0 * dacCycle) s
  let r := aux1Next s1
  ({ r.2 with timing := { r.2.timing with aux1Code := r.1, aux1At := r.2.clock } } : State).send (.aux1 r.1)

/-- AUX1_SAMPLE. -/
def execAux1Sample (s : State) : Host.Outcome State Fault Refusal := .next (aux1Sample s)

end Sys2Proof.Machine
end

