-- ==== Sys2Proof/Machine/Refs.lean ====
section
/-! DEFINITION. Module time and its steps (R424-R426, R446), references (R427-R429), the selector (R430-R435), PTP (R447-R449) and
the calendar (R450-R452). -/

namespace Sys2Proof.Machine

/-! ## Steps (R425, R426, R446) -/

/-- Whether the step from module time `old` to the present one made a scheduled time pass (R446): it counts as passed now (R156), and did
not before, or lay ahead and lies behind now. -/
def State.madePass (s : State) (old t : Nat) : Bool :=
  s.timePassed t && (!({ s with mtime := old } : State).timePassed t || (decide (old < t * ns) && decide (t * ns ≤ s.mtime)))

/-- A pending ARM that a step makes pass. -/
def passArm (old : Nat) (s : State) (b : Nat) : State :=
  if decide (s.armSched b = schPending) && s.madePass old (s.elN O.ARM_AT b) then
    if s.elN O.ARM_LATE_POLICY b = 0 then setArmSched b schRejected s
    else
      let r := tryArm b 2 none s
      if r.2 = .ok then setArmSched b schLate r.1
      else (setArmSched b schFailed r.1).setEl O.SCHED_STATUS b
        (setFld ((setArmSched b schFailed r.1).el O.SCHED_STATUS b) 15 8 r.2.code)
  else s

/-- A pending disarm that a step makes pass. -/
def passDisarm (old : Nat) (s : State) (b : Nat) : State :=
  if decide (s.disarmSched b = schPending) && s.madePass old (s.elN O.DISARM_AT b) then
    let s1 := s.modBench b (fun x => { x with stopAt := none })
    if s.elN O.DISARM_LATE_POLICY b = 0 then setDisarmSched b schRejected s1
    else setDisarmSched b schLate (disarmNow b s1)
  else s

/-- A pending edge that a step makes pass. -/
def passEdge (old : Nat) (s : State) (n : Nat) : State :=
  if decide (s.edgeSched n = schPending) && s.madePass old (s.elN O.EDGE_AT n) then lateEdge n s else s

/-- A pending plan change that a step makes pass. -/
def passPlan (old : Nat) (s : State) : State :=
  if decide (s.planSched = schPending) && s.timing.hopDue.isNone && s.madePass old (s.elN O.PLAN_AT 0) then latePlan s else s

/-- The benches with a schedule that has been written. -/
def State.scheduled (s : State) : List Nat :=
  (Tab.keysIn s.elems (O.SCHED_STATUS.key 0) (O.SCHED_STATUS.key 1024)).map (fun k => k - O.SCHED_STATUS.key 0)

/-- The pending scheduled times that a step makes pass are treated as passed at its instant (R446). -/
def stepPass (old : Nat) (s : State) : State :=
  let s1 := s.scheduled.foldl (passArm old) s
  let s2 := s1.scheduled.foldl (passDisarm old) s1
  passPlan old ((List.range 4).foldl (passEdge old) s2)

/-- The TAI second at which the UTC day in progress ends: where a pending leap second falls (R451). -/
def refreshLeap (s : State) : State :=
  let off := w64Int (s.el O.UTC_OFFSET 0)
  { s with timing := { s.timing with leapAt := (((s.mtime / sec : Nat) : Int) - off) / 86400 * 86400 + 86400 + off } }

/-- A step of module time: `TIME_EPOCH` advances, a slew in progress is over. -/
def stepTime (t : Nat) (s : State) : State :=
  let s1 : State := { s with mtime := t, slew := 0, slewFrac := 0, steppedAt := some s.clock }
  stepPass s.mtime (refreshLeap (s1.setN O.TIME_EPOCH 0 ((s1.elN O.TIME_EPOCH 0 + 1) % 2 ^ 32)))

/-! ## The selector's view (R427, R430) -/

/-- The selector states (Table 12.3). -/
def selFreerun : Nat := 0
def selAcquiring : Nat := 1
def selLocked : Nat := 2
def selSwitching : Nat := 3
def selHoldover : Nat := 4

/-- The state in `SEL_STATE`. -/
def State.selState (s : State) : Nat := fld (s.el O.SEL_STATE 0) 31 0

/-- The states in `REF_STATE` (R428). -/
def refAbsent : Nat := 0
def refQualifying : Nat := 1
def refQualified : Nat := 2

/-- The rank of a reference that is ranked and `QUALIFIED`. -/
def State.usableRank (s : State) (r : Nat) : Option Nat :=
  if decide (s.elN O.REF_STATE r = refQualified) && decide (s.elN O.REF_PRIORITY r ≠ 255) then some (s.elN O.REF_PRIORITY r) else none

/-- The preferred reference: the best-ranked external one that is `QUALIFIED`; REFA where the ranks are equal. -/
def State.preferred (s : State) : Option Nat :=
  match s.usableRank 0, s.usableRank 1 with
  | none, none => none
  | some _, none => some 0
  | none, some _ => some 1
  | some a, some b => if b < a then some 1 else some 0

/-- Whether the module follows REFB: it is selected, or the target of a switch. -/
def State.onRefB (s : State) : Bool := decide (s.timing.target = 1)

/-! ## What the instance announces (R449) -/

/-- The quality of the module as grandmaster (Table 12.7): clockClass, clockAccuracy, timeSource. -/
def State.ownQuality (s : State) : Nat × Nat × Nat :=
  if s.selState = selLocked || s.selState = selSwitching then (6, 0x21, 0x90)
  else if s.selState = selHoldover then (if s.timing.holdLate then 52 else 7, 0xFE, 0xA0)
  else (248, 0xFE, 0xA0)

/-- Whether M0 announces the upstream grandmaster's dataset. -/
def State.upstream (s : State) : Bool := s.onRefB && (decide (s.selState = selLocked) || decide (s.selState = selSwitching))

/-- `PTP_CLOCK_CLASS` shows the class that is announced. -/
def refreshClass (s : State) : State :=
  s.setN O.PTP_CLOCK_CLASS 0 (if s.upstream then s.timing.ptp.up.clockClass else s.ownQuality.1)

/-- While REFB is selected, `UTC_OFFSET` and `LEAP_PENDING` are those of the upstream Announce (R450). -/
def takeUpstream (s : State) : State :=
  if s.onRefB && s.timing.ptp.haveAnnounce then
    let s1 := (s.setEl O.UTC_OFFSET 0 (intW64 s.timing.ptp.up.utcOffset)).setN O.LEAP_PENDING 0 s.timing.ptp.up.leap
    if s1.el O.UTC_OFFSET 0 = s.el O.UTC_OFFSET 0 && decide (s1.el O.LEAP_PENDING 0 = s.el O.LEAP_PENDING 0) then s
    else refreshLeap s1
  else s

/-! ## Transitions (R430-R435) -/

/-- `SEL_STATE` takes a state; [63:32] hold the selected reference. The manual does not say what they hold where none is selected
in `HOLDOVER`. -/
def showSel (v : Nat) (s : State) : State :=
  if s.timing.target = 255 then
    (if v = selHoldover then (s.setEl O.SEL_STATE 0 (setFld s.freeNext 31 0 v)).drawn else s.setN O.SEL_STATE 0 v)
  else s.setEl O.SEL_STATE 0 (put v 0 ||| put s.timing.target 32)

/-- The time in `HOLDOVER`, past periods and the present one. -/
def State.holdTime (s : State) : Nat :=
  s.timing.holdTotal + (if s.selState = selHoldover then s.clock - s.timing.holdAt else 0)

/-- The selector takes a state with a reference (255: none). -/
def setSel (v target : Nat) (s : State) : State :=
  let held := s.holdTime
  let s1 : State := { s with timing := { s.timing with target := target, since := s.clock, holdTotal := held } }
  takeUpstream (refreshClass (showSel v s1))

/-- The control value freezes at its mean over the preceding second (R435). -/
def freezeLoop (s : State) : State :=
  { s with timing := { s.timing with frozen := some (Config.controlMean s.timing.freezes), freezes := s.timing.freezes + 1 } }

/-- The control value of the loop at this instant (R430, R435, R436): frozen from a loss on, the factory nominal one in `FREERUN`, else what
the loop of `LOOP_BW_MHZ` gives on its reference. -/
def State.controlNow (s : State) : Int :=
  match s.timing.frozen with
  | some v => v
  | none =>
    if s.selState = selFreerun then Config.controlNominal
    else Config.controlLoop (s.elN O.LOOP_BW_MHZ 0) s.timing.target s.clock

/-- A loss freezes the control value, unless it is frozen already. -/
def freezeOnce (s : State) : State := if s.timing.frozen.isSome then s else freezeLoop s

/-- `HOLDOVER` begins. -/
def enterHoldover (s : State) : State :=
  let s1 := setSel selHoldover 255 s
  raiseError 0x81 1 8 noUnit 0xFFFF 0#64 { s1 with timing := { s1.timing with holdAt := s1.clock, holdLate := false } }

/-- On to the preferred reference, or `HOLDOVER` where there is none. -/
def switchOrHold (s : State) : State :=
  match s.preferred with
  | some p => setSel selSwitching p s
  | none => enterHoldover s

/-- What the selector does when references, ranks or its state have changed: it acquires from `FREERUN`, leaves `HOLDOVER`, and with
`REVERTIVE` switches to a better reference. A lost reference is left to SELECTED_REFERENCE_LOST; a switch is not interrupted. -/
def reselect (s : State) : State :=
  match s.preferred with
  | none => s
  | some p =>
    if s.selState = selFreerun then setSel selAcquiring p s
    else if s.selState = selHoldover then setSel selSwitching p s
    else if s.selState = selLocked && decide (p ≠ s.timing.target) && s.elB O.REVERTIVE 0
        && decide (s.elN O.REF_STATE s.timing.target = refQualified) then setSel selSwitching p s
    else s

/-- The selected reference, or the target of a switch, is lost. -/
def refLost (s : State) : State :=
  let r := s.timing.target
  if r = 255 || decide (s.elN O.REF_STATE r = refQualified) then s
  else
    let s1 := raiseError 0x80 1 8 noUnit 0xFFFF 0#64 s
    if s1.selState = selAcquiring then
      (match s1.preferred with
       | some p => setSel selAcquiring p s1
       | none => setSel selFreerun 255 s1)
    else switchOrHold (freezeOnce s1)

/-- SELECTED_REFERENCE_LOST. -/
def execSelectedReferenceLost (s : State) : Host.Outcome State Fault Refusal := .next (refLost s)

/-- The loop's phase error passes 1 µs, or its control value reaches the edge of the band. -/
def lockLost (s : State) : State := if s.selState = selLocked then switchOrHold (freezeOnce s) else s

/-- LOCK_LOSS. -/
def execLockLoss (s : State) : Host.Outcome State Fault Refusal := .next (lockLost s)

/-- An offset between module time and the reference is to be slewed away. -/
def slewAway (offset : Int) (s : State) : State := { s with slew := -offset, slewFrac := 0 }

/-- `ACQUIRING` ends after `LOCK_DELAY_MS`: an offset above 1 µs is stepped away if no bench is armed, any other is slewed (R431).
`offset` is module time less the reference. -/
def lockDelay (offset : Int) (s : State) : State :=
  if s.selState = selAcquiring then
    let s1 := setSel selLocked s.timing.target (advanceTo (s.timing.since + s.elN O.LOCK_DELAY_MS 0 * ms) s)
    let s2 :=
      if us < offset.natAbs && s1.armedBenches.isEmpty then stepTime ((s1.mtime : Int) - offset).toNat s1 else slewAway offset s1
    reselect s2
  else s

/-- LOCK_DELAY_EXPIRY. -/
def execLockDelayExpiry (offset : Int) (s : State) : Host.Outcome State Fault Refusal := .next (lockDelay offset s)

/-- A switch is complete: the loop follows the target, and the offset to it is slewed away (R432, R433). -/
def switchDone (offset : Int) (s : State) : State :=
  if s.selState = selSwitching then
    let s1 := setSel selLocked s.timing.target { s with timing := { s.timing with frozen := none } }
    reselect (slewAway offset s1)
  else s

/-- SWITCH_COMPLETE. -/
def execSwitchComplete (offset : Int) (s : State) : Host.Outcome State Fault Refusal := .next (switchDone offset s)

/-- Four hours of `HOLDOVER` have passed: the clockClass becomes 52. -/
def holdoverClass (s : State) : State :=
  if s.selState = selHoldover && !s.timing.holdLate then
    let s1 := advanceTo (s.timing.holdAt + 14400 * sec) s
    refreshClass { s1 with timing := { s1.timing with holdLate := true } }
  else s

/-- HOLDOVER_CLASS_CHANGE. -/
def execHoldoverClassChange (s : State) : Host.Outcome State Fault Refusal := .next (holdoverClass s)

/-! ## References (R428, R429) -/

/-- A reference takes a state and its qualification starts anew. -/
def setRefState (r v : Nat) (s : State) : State :=
  let s1 := s.setN O.REF_STATE r v
  s1.setRef r { s1.ref r with good := 0, since := s1.clock }

/-- A failed measurement: back to `QUALIFYING`. -/
def refFails (r : Nat) (s : State) : State := if s.elN O.REF_STATE r = refAbsent then s else setRefState r refQualifying s

/-- `PTP_PORT_STATE` values (IEEE 1588-2019 portState). -/
def portFaulty : Nat := 2
def portDisabled : Nat := 3
def portListening : Nat := 4
def portMaster : Nat := 6
def portUncalibrated : Nat := 8
def portSlave : Nat := 9

/-- Whether a servo offset lies within 1 µs. -/
def servoOk (off : Int) : Bool := decide (off.natAbs ≤ 1000)

/-- Whether a measurement of a reference meets R428: ±2 ppm, and for REFB the port state and the servo offset. The edges of PPS_IN
are checked as they come. -/
def goodMeasurement (r : Nat) (ppb : Int) (s : State) : Bool :=
  decide (ppb.natAbs ≤ 2000)
    && (decide (r = 0) || (decide (s.elN O.PTP_PORT_STATE 1 = portSlave) && servoOk s.timing.ptp.offset))

/-- A 100 ms measurement of a reference ends. -/
def refMeasure (r : Nat) (ppb : Int) (s : State) : State :=
  if !s.tmbOn || decide (s.elN O.REF_STATE r = refAbsent) then s
  else
    let s1 := (advanceTo ((s.ref r).since + 100 * ms) s).setEl O.REF_FREQ_PPB r (intW64 ppb)
    if !goodMeasurement r ppb s1 then refFails r s1
    else
      let x := s1.ref r
      let s2 := s1.setRef r { x with good := x.good + 1, since := s1.clock }
      if decide (s2.elN O.REF_STATE r = refQualifying) && decide (s2.elN O.QUAL_TIME_MS 0 ≤ 100 * (x.good + 1)) then
        reselect (s2.setN O.REF_STATE r refQualified)
      else s2

/-- REF_MEASUREMENT. -/
def execRefMeasurement (r : Fin 2) (ppb : Int) (s : State) : Host.Outcome State Fault Refusal := .next (refMeasure r.val ppb s)

/-- The edges of REF10_IN stop. -/
def ref10Stops (s : State) : State :=
  if s.elN O.REF_STATE 0 = refAbsent then s
  else
    let s1 := setRefState 0 refAbsent s
    s1.setRef 0 { s1.ref 0 with ppsAt := none }

/-- REF10_IN_LOSS. -/
def execRef10InLoss (s : State) : Host.Outcome State Fault Refusal := .next (ref10Stops s)

/-- The edges of REF10_IN are back. -/
def ref10Returns (s : State) : State :=
  if s.tmbOn && decide (s.elN O.REF_STATE 0 = refAbsent) then setRefState 0 refQualifying s else s

/-- REF10_IN_RETURN. -/
def execRef10InReturn (s : State) : Host.Outcome State Fault Refusal := .next (ref10Returns s)

/-- How far a PPS_IN edge lies from 10,000,000 REF10_IN cycles after the previous one, in nanoseconds: `cycles` whole cycles of
100 ns and `off`. -/
def ppsDeviation (cycles : Nat) (off : Int) : Int := ((cycles : Int) - 10000000) * 100 + off

/-- A PPS_IN edge: one more than 100 ns off returns REFA to `QUALIFYING`. The first edge after REF10_IN came has no previous one. -/
def ppsIn (cycles : Nat) (off : Int) (s : State) : State :=
  if s.elN O.REF_STATE 0 = refAbsent then s
  else
    let s1 := if (s.ref 0).ppsAt.isSome && decide (100 < (ppsDeviation cycles off).natAbs) then refFails 0 s else s
    s1.setRef 0 { s1.ref 0 with ppsAt := some s1.clock }

/-- PPS_IN_EDGE. -/
def execPpsInEdge (cycles : Nat) (off : Int) (s : State) : Host.Outcome State Fault Refusal := .next (ppsIn cycles off s)

/-- No PPS_IN edge within 1.1 s of the previous one. -/
def ppsMissing (s : State) : State :=
  match (s.ref 0).ppsAt with
  | none => refFails 0 s
  | some t => refFails 0 (advanceTo (t + 1100 * ms) s)

/-- PPS_IN_TIMEOUT. -/
def execPpsInTimeout (s : State) : Host.Outcome State Fault Refusal := .next (ppsMissing s)

/-! ## PTP (R447-R449) -/

/-- Whether a port takes part: enabled, and its link up. -/
def State.ptpUp (s : State) (m : Nat) : Bool := bit (s.el O.PTP_PORT_CFG m) 0 && decide (s.elN O.NET_LINK_STATE m = 1)

/-- Whether a port is slave-only: M1 while REFB is ranked. -/
def State.slaveOnly (s : State) (m : Nat) : Bool := decide (m = 1) && decide (s.elN O.REF_PRIORITY 1 ≠ 255)

/-- The state of a port after a change of its configuration, of its link or of REFB's rank. -/
def refreshPtp (m : Nat) (s : State) : State :=
  let old := s.elN O.PTP_PORT_STATE m
  let v :=
    if !bit (s.el O.PTP_PORT_CFG m) 0 then portDisabled
    else if !s.ptpUp m then portFaulty
    else if !s.slaveOnly m then portMaster
    else if old = portSlave || old = portUncalibrated then old
    else portListening
  let s1 := s.setN O.PTP_PORT_STATE m v
  if decide (m = 1) && !decide (v = portSlave) && !decide (v = portUncalibrated) then
    { s1 with timing := { s1.timing with ptp := { s1.timing.ptp with haveAnnounce := false } } }
  else s1

/-- The intervals of a port (R448): Announce 2^n s, Sync from half a second to two, delay requests 2^n s at least. -/
def State.announceInterval (s : State) (m : Nat) : Nat := 2 ^ fld (s.el O.PTP_PORT_CFG m) 11 8 * sec
def State.syncInterval (s : State) (m : Nat) : Nat :=
  match fld (s.el O.PTP_PORT_CFG m) 15 12 with
  | 15 => sec / 2
  | n => 2 ^ n * sec
def State.delayInterval (s : State) (m : Nat) : Nat := 2 ^ fld (s.el O.PTP_PORT_CFG m) 19 16 * sec

/-- When the upstream master counts as lost: three Announce intervals after its last Announce, or three Sync intervals after its last
Sync. -/
def State.masterDue (s : State) : Nat :=
  let a := s.timing.ptp.announceAt + 3 * s.announceInterval 1
  match s.timing.ptp.syncAt with
  | none => a
  | some t => min a (t + 3 * s.syncInterval 1)

/-- Announce receipt timeout, or no Sync for three intervals. -/
def announceTimeout (s0 : State) : State :=
  let s := if s0.timing.ptp.haveAnnounce then advanceTo s0.masterDue s0 else s0
  let s1 := if s.elN O.REF_STATE 1 = refAbsent then s else setRefState 1 refAbsent s
  let p := s1.elN O.PTP_PORT_STATE 1
  let s2 : State := { s1 with timing := { s1.timing with ptp := { s1.timing.ptp with haveAnnounce := false } } }
  if p = portSlave || p = portUncalibrated then s2.setN O.PTP_PORT_STATE 1 portListening else s2

/-- ANNOUNCE_RECEIPT_TIMEOUT. -/
def execAnnounceReceiptTimeout (s : State) : Host.Outcome State Fault Refusal := .next (announceTimeout s)

/-- The order of Announces that the best-master algorithm compares (IEEE 1588 dataset comparison, PRESUMED, log entry 175). -/
def announceKey (a : Announce) : List Nat := [a.prio1, a.clockClass, a.accuracy, a.variance, a.prio2, a.gm.toNat]

def keyLess : List Nat → List Nat → Bool
  | x :: t, y :: u => decide (x < y) || (decide (x = y) && keyLess t u)
  | _, _ => false

/-- Whether an Announce is of a better master than another: of another grandmaster by its dataset, of the same one by its steps. -/
def betterMaster (a b : Announce) : Bool :=
  if a.gm = b.gm then decide (a.steps < b.steps) else keyLess (announceKey a) (announceKey b)

/-- An Announce with its fields in their widths. -/
def cutAnnounce (a : Announce) : Announce :=
  { a with prio1 := a.prio1 % 256, clockClass := a.clockClass % 256, accuracy := a.accuracy % 256, variance := a.variance % 65536,
           prio2 := a.prio2 % 256, steps := a.steps % 65536, timeSource := a.timeSource % 256, leap := a.leap % 3 }

/-- An Announce reaches the slave-only port: the upstream dataset, where it comes from the master followed, or from a better one. -/
def ptpAnnounce (x : Announce) (s : State) : State :=
  let a := cutAnnounce x
  let old := s.timing.ptp
  if old.haveAnnounce && decide (a.source ≠ old.up.source) && !betterMaster a old.up then s
  else
    let p : Ptp := { old with up := a, haveAnnounce := true, announceAt := s.clock,
                              syncAt := if old.haveAnnounce && decide (a.source = old.up.source) then old.syncAt else none }
    let s1 : State := { s with timing := { s.timing with ptp := p } }
    let s2 := if s1.elN O.PTP_PORT_STATE 1 = portListening then s1.setN O.PTP_PORT_STATE 1 portUncalibrated else s1
    refreshClass (takeUpstream s2)

/-- A Sync reaches the slave-only port: the servo's offset; REFB is present, and fails beyond 1 µs. -/
def ptpSync (off : Int) (s : State) : State :=
  if !s.timing.ptp.haveAnnounce then s
  else
    let s1 : State := { s with timing := { s.timing with ptp := { s.timing.ptp with offset := off, syncAt := some s.clock } } }
    let s2 := (s1.setEl O.REFB_OFFSET_NS 0 (intW64 off)).setN O.PTP_PORT_STATE 1 portSlave
    if s2.elN O.REF_STATE 1 = refAbsent then setRefState 1 refQualifying s2
    else if servoOk off then s2 else refFails 1 s2

/-- Whether a port sends its messages in two steps. -/
def State.twoStep (s : State) (m : Nat) : Bool := bit (s.el O.PTP_PORT_CFG m) 2

/-- The module's clock identity: the EUI-64 of M0's MAC address; the port numbers are 1 and 2 (R447). -/
def clockIdentity : W64 :=
  let mac := Config.netMac 0
  put (fld mac 47 24) 40 ||| put 0xFFFE 24 ||| put (fld mac 23 0) 0
def portIdentity (m : Nat) : W64 × Nat := (clockIdentity, m + 1)

/-- The transport of a port (R448): 0 UDP over IPv4, 1 UDP over IPv6, 2 Ethernet. -/
def State.transport (s : State) (m : Nat) : Nat := fld (s.el O.PTP_PORT_CFG m) 4 3

/-- A Sync or a delay message of a port leaves. -/
def sendPtp (m : Nat) (kind : PtpKind) (s : State) : State :=
  s.send (.ptp m kind (s.twoStep m) (s.elN O.PTP_DOMAIN 0) (s.transport m) (portIdentity m))

/-- A PTP message reaches a port. A request is answered: an E2E one by a master, a peer-delay one by either. -/
def ptpReceived (m : Nat) (msg : PtpMsg) (s : State) : State :=
  if !s.tmbOn || !s.ptpUp m then s
  else
    match msg with
    | .announce a => if s.slaveOnly m then ptpAnnounce a s else s
    | .sync off => if s.slaveOnly m then ptpSync off s else s
    | .delayReq =>
      if bit (s.el O.PTP_PORT_CFG m) 1 || decide (s.elN O.PTP_PORT_STATE m = portMaster) then sendPtp m .delay s
      else s
    | .delayResp => s

/-- PTP_MESSAGE_RECEIVED. -/
def execPtpMessageReceived (m : Fin 2) (msg : PtpMsg) (s : State) : Host.Outcome State Fault Refusal :=
  .next (ptpReceived m.val msg s)

/-- The dataset that a master port announces (R449): the upstream grandmaster's, one step on, or the module's own. -/
def State.dataset (s : State) (m : Nat) : Announce :=
  let q := s.ownQuality
  let own : Announce :=
    { source := portIdentity m, gm := clockIdentity, prio1 := s.elN O.PTP_PRIORITY1 0, clockClass := q.1, accuracy := q.2.1,
      variance := Config.ptpVariance % 65536, prio2 := s.elN O.PTP_PRIORITY2 0, steps := 0, timeSource := q.2.2,
      utcOffset := w64Int (s.el O.UTC_OFFSET 0), leap := s.elN O.LEAP_PENDING 0, ptpTimescale := true }
  if s.upstream then
    { s.timing.ptp.up with
      source := portIdentity m, steps := s.timing.ptp.up.steps + 1, utcOffset := own.utcOffset, leap := own.leap, ptpTimescale := true }
  else own

/-- The Announce of a master port. -/
def State.announceOf (s : State) (m : Nat) : Out := .announce m (s.elN O.PTP_DOMAIN 0) (s.transport m) (s.dataset m)

/-- The interval of a kind of message, and where its last one is noted. -/
def State.ptpInterval (s : State) (m : Nat) : PtpKind → Nat
  | .announce => s.announceInterval m
  | .sync => s.syncInterval m
  | .delay => s.delayInterval m
def kindSlot : PtpKind → Nat
  | .announce => 0 | .sync => 1 | .delay => 2

/-- The interval of a port since its last message of a kind ends. -/
def endInterval (m : Nat) (kind : PtpKind) (s : State) : State :=
  let k := 3 * m + kindSlot kind
  let t := match s.timing.ptp.sentAt.find? (fun p => decide (p.1 = k)) with
    | some p => advanceTo (p.2 + s.ptpInterval m kind) s
    | none => s
  { t with timing := { t.timing with ptp := { t.timing.ptp with
    sentAt := (k, t.clock) :: t.timing.ptp.sentAt.filter (fun p => decide (p.1 ≠ k)) } } }

/-- A PTP interval ends: a master sends Announce and Sync, a slave its delay requests; peer delay is measured by either. -/
def ptpSent (m : Nat) (kind : PtpKind) (s : State) : State :=
  if !s.tmbOn || !s.ptpUp m then s
  else
    let master := decide (s.elN O.PTP_PORT_STATE m = portMaster)
    let slave := decide (s.elN O.PTP_PORT_STATE m = portSlave) || decide (s.elN O.PTP_PORT_STATE m = portUncalibrated)
    match kind with
    | .announce =>
      if master then
        let t := endInterval m kind s
        t.send (t.announceOf m)
      else s
    | .sync => if master then sendPtp m .sync (endInterval m kind s) else s
    | .delay => if slave || bit (s.el O.PTP_PORT_CFG m) 1 then sendPtp m .delay (endInterval m kind s) else s

/-- PTP_MESSAGE_SENT. -/
def execPtpMessageSent (m : Fin 2) (kind : PtpKind) (s : State) : Host.Outcome State Fault Refusal :=
  .next (ptpSent m.val kind s)

/-! ## Writes of module time (R426) -/

/-- Whether writes of `TIME_SET` and `CAL_UTC` are refused now. -/
def State.timeBusy (s : State) : Bool := !s.armedBenches.isEmpty || decide (s.selState = selSwitching) || s.onRefB

/-- Module time takes a value by a write; while REFA is selected and `LOCKED` only its whole seconds change. -/
def writeTime (t : Nat) (s : State) : State :=
  if s.selState = selLocked && decide (s.timing.target = 0) then stepTime (t / sec * sec + s.mtime % sec) s else stepTime t s

/-- A caller of TIME96 halves (R354): functions, sessions, service cores. -/
def viaCaller (v : Via) : Nat :=
  match v with
  | .wctl f | .relay f => f.val
  | .vdp k => 1024 + k.val
  | .service c => 1088 + c.val

/-- The half a caller has left in a list for an element. -/
def halfOf (c k : Nat) (l : List ((Nat × Nat) × W64)) : Option W64 := (l.find? (fun p => decide (p.1 = (c, k)))).map Prod.snd

/-- The list with a caller's half for an element replaced, or dropped. -/
def setHalf (c k : Nat) (v : Option W64) (l : List ((Nat × Nat) × W64)) : List ((Nat × Nat) × W64) :=
  let r := l.filter (fun p => decide (p.1 ≠ (c, k)))
  match v with
  | none => r
  | some x => ((c, k), x) :: r

/-- The instant two halves of a TIME96 name (Table 10.2). -/
def time96At (lo hi : W64) : Nat := fld lo 47 0 * sec + fld hi 31 0 * ns + fld hi 47 32

/-- A write of `TIME_SET`: element 0 is held, element 1 applies both halves. -/
def timeSetAct (via : Via) (e : Nat) (v : W64) (s : State) : State × Status :=
  let c := viaCaller via
  let k := O.TIME_SET.key 0
  if e = 0 then
    if s.timeBusy then (s, .busy) else ({ s with heldHalf := setHalf c k (some v) s.heldHalf }, .ok)
  else
    match halfOf c k s.heldHalf with
    | none => (s, .invalid)
    | some lo =>
      if s.timeBusy then (s, .busy)
      else (writeTime (time96At lo v) { s with heldHalf := setHalf c k none s.heldHalf }, .ok)

/-- TIME_SET. -/
def execTimeSet (via : Via) (e : Nat) (v : W64) (s : State) : Host.Outcome State Fault Refusal :=
  .next (cmdWrite via O.TIME_SET e v (timeSetAct via e v) s)

/-! ## Calendar (R450-R452) -/

/-- Whether a year is a leap year (R450). -/
def leapYear (y : Nat) : Bool := (decide (y % 4 = 0) && !decide (y % 100 = 0)) || decide (y % 400 = 0)

/-- The length of a month, 1-12, in a year. -/
def monthDays (y m : Nat) : Nat :=
  match m with
  | 2 => if leapYear y then 29 else 28
  | 4 | 6 | 9 | 11 => 30
  | _ => 31

/-- The days of a year. -/
def yearDays (y : Nat) : Nat := if leapYear y then 366 else 365

/-- The days from 2000-01-01 to the first day of year 2000 + n. -/
def daysToYear (n : Nat) : Nat := ((List.range n).map (fun i => yearDays (2000 + i))).sum

/-- The days of a year before a month. -/
def daysToMonth (y m : Nat) : Nat := ((List.range (m - 1)).map (fun i => monthDays y (i + 1))).sum

/-- The UTC second, counted from 1970-01-01, of a date: year less 2000, month, day and second of the day. -/
def utcOf (n m d t : Nat) : Nat := (10957 + daysToYear n + daysToMonth (2000 + n) m + (d - 1)) * 86400 + t

/-- The year (less 2000) and the day in it of a day counted from 2000-01-01; at most `fuel` years on. -/
def yearOf : Nat → Nat → Nat → Nat × Nat
  | 0, n, d => (n, d)
  | fuel + 1, n, d => if d < yearDays (2000 + n) then (n, d) else yearOf fuel (n + 1) (d - yearDays (2000 + n))

/-- The month and the day of the month of a day of a year. -/
def monthOf (y : Nat) : Nat → Nat → Nat → Nat × Nat
  | 0, m, d => (m, d + 1)
  | fuel + 1, m, d => if d < monthDays y m then (m, d + 1) else monthOf y fuel (m + 1) (d - monthDays y m)

/-- The UTC second that contains module time, and whether it is an inserted one: then the one before it. A leap second of the
past whose command has yet to come counts (R451). -/
def State.utcNow (s : State) : Int × Bool :=
  let tai : Int := ((s.mtime / sec : Nat) : Int)
  let off := w64Int (s.el O.UTC_OFFSET 0)
  let at_ := s.timing.leapAt
  match s.elN O.LEAP_PENDING 0 with
  | 1 => if tai < at_ then (tai - off, false) else (tai - off - 1, decide (tai = at_))
  | 2 => if tai < at_ - 1 then (tai - off, false) else (tai - off + 1, false)
  | _ => (tai - off, false)

/-- `CAL_UTC` for a UTC second (Table 12.8); zero outside its range. -/
def calWord (utc : Int) (extra : Bool) : W64 :=
  if utc < 946684800 || 7258118400 ≤ utc then 0#64
  else
    let t := (utc - 946684800).toNat
    let y := yearOf 200 0 (t / 86400)
    let m := monthOf (2000 + y.1) 12 1 y.2
    put (t % 60 + extra.toNat) 0 ||| put (t / 60 % 60) 6 ||| put (t / 3600 % 24) 12 ||| put m.2 17 ||| put m.1 22 ||| put y.1 26
      ||| put 1 34

/-- `CAL_UTC` now. -/
def State.calNow (s : State) : W64 := calWord s.utcNow.1 s.utcNow.2

/-- Whether a value written to `CAL_UTC` names a date (R452). -/
def calOk (v : W64) : Bool :=
  decide (fld v 33 26 ≤ 199) && decide (1 ≤ fld v 25 22) && decide (fld v 25 22 ≤ 12)
    && decide (1 ≤ fld v 21 17) && decide (fld v 21 17 ≤ monthDays (2000 + fld v 33 26) (fld v 25 22))
    && decide (fld v 16 12 ≤ 23) && decide (fld v 11 6 ≤ 59) && decide (fld v 5 0 ≤ 59) && decide (fld v 63 35 = 0)

/-- A write of `CAL_UTC`: the current UTC second becomes the one written; the nanoseconds are kept. -/
def calUtcAct (v : W64) (s : State) : State × Status :=
  if !calOk v then (s, .invalid)
  else if s.timeBusy then (s, .busy)
  else
    let utc := utcOf (fld v 33 26) (fld v 25 22) (fld v 21 17) (fld v 16 12 * 3600 + fld v 11 6 * 60 + fld v 5 0)
    (stepTime (((utc : Int) + w64Int (s.el O.UTC_OFFSET 0)).toNat * sec + s.mtime % sec) s, .ok)

/-- CAL_UTC. -/
def execCalUtc (via : Via) (v : W64) (s : State) : Host.Outcome State Fault Refusal :=
  .next (cmdWrite via O.CAL_UTC 0 v (calUtcAct v) s)

/-- The end of a pending leap second: an inserted second is over, or a skipped one would begin (R451). -/
def leapSecond (s : State) : State :=
  let off := w64Int (s.el O.UTC_OFFSET 0)
  match s.elN O.LEAP_PENDING 0 with
  | 1 =>
    let s1 := advanceMod ((s.timing.leapAt + 1).toNat * sec) s
    refreshLeap ((s1.setEl O.UTC_OFFSET 0 (intW64 (off + 1))).setN O.LEAP_PENDING 0 0)
  | 2 =>
    let s1 := advanceMod ((s.timing.leapAt - 1).toNat * sec) s
    refreshLeap ((s1.setEl O.UTC_OFFSET 0 (intW64 (off - 1))).setN O.LEAP_PENDING 0 0)
  | _ => s

/-- LEAP_SECOND. -/
def execLeapSecond (s : State) : Host.Outcome State Fault Refusal := .next (leapSecond s)

end Sys2Proof.Machine
end

