-- ==== Sys2Proof/Machine/Net.lean ====
section
/-! DEFINITION. The management network (R371-R373) and VDP sessions: opening (R375-R377), packets (R374, R378), closing (R378). -/

namespace Sys2Proof.Machine

/-! ## Links (R371) -/

/-- The values of `NET_LINK_STATE`. -/
def netDown : Nat := 0
def netUp : Nat := 1

/-- A port's link is lost. -/
def netLinkDown (m : Nat) (s : State) : State :=
  if s.elN O.NET_LINK_STATE m = netUp then
    raiseError 0x90 1 9 noUnit 0xFFFF 0#64 (refreshPtp m (s.setN O.NET_LINK_STATE m netDown))
  else s

/-- NET_LINK_DOWN. -/
def execNetLinkDown (m : Fin 2) (s : State) : Host.Outcome State Fault Refusal := .next (netLinkDown m.val s)

/-- Whether the management network and the service firmware run. -/
def State.netOn (s : State) : Bool := !decide (s.mode.base = .cold) && !decide (s.mode.base = .boot) && !s.svcDown

/-- A port's link comes up: with power on, and a link mode other than `OFF`. -/
def netLinkUp (m : Nat) (s : State) : State :=
  if s.elN O.NET_LINK_MODE m = 0 || decide (s.mode.base = .cold) then s else refreshPtp m (s.setN O.NET_LINK_STATE m netUp)

/-- NET_LINK_UP. -/
def execNetLinkUp (m : Fin 2) (s : State) : Host.Outcome State Fault Refusal := .next (netLinkUp m.val s)

/-! ## Addresses (R373) -/

/-- The IPv4 and the global IPv6 address in force on a port, where enabled. -/
def NetCfg.v4 (c : NetCfg) : Option Nat := if bit c.ipv4 63 then some (fld c.ipv4 31 0) else none
def NetCfg.v6 (c : NetCfg) : Option Nat := if bit c.ip6cfg 8 then some (c.ip6hi.toNat * 2 ^ 64 + c.ip6lo.toNat) else none

/-- The link-local address formed from a MAC address as a modified EUI-64. -/
def linkLocal (mac : Nat) : Nat :=
  0xFE80 * 2 ^ 112 + Nat.xor (mac / 2 ^ 24 % 2 ^ 24) 0x020000 * 2 ^ 40 + 0xFFFE * 2 ^ 24 + mac % 2 ^ 24

/-- The addresses a port holds: those of its settings and the link-local one, always. -/
def NetCfg.addrs (c : NetCfg) (m : Nat) : List Nat :=
  c.v4.toList ++ c.v6.toList ++ [linkLocal (fld (Config.netMac m) 47 0)]

/-- The staged settings of a port. -/
def State.stagedNet (s : State) (m : Nat) : NetCfg :=
  { ipv4 := s.el O.NET_IPV4 m, gw := s.el O.NET_IPV4_GW m, ip6hi := s.el O.NET_IPV6 (2 * m), ip6lo := s.el O.NET_IPV6 (2 * m + 1),
    ip6cfg := s.el O.NET_IPV6_CFG m, vdp := s.elB O.NET_VDP_ENABLE m }

/-- A session of a port on an address the port does not hold closes. -/
def closeIfGone (m : Nat) (s : State) (k : Nat) : State :=
  match s.session k with
  | none => s
  | some x => if decide (x.port = m) && !((s.netCfg m).addrs m).contains x.addr then closeSession k s else s

/-- A write of `NET_APPLY`: 1 only. -/
def netApplyAct (m : Nat) (v : W64) (s : State) : State × Status :=
  if v ≠ 1#64 then (s, .invalid)
  else ((List.range 64).foldl (closeIfGone m) (s.setNetCfg m (s.stagedNet m)), .ok)

/-- NET_APPLY. -/
def execNetApply (via : Via) (m : Nat) (v : W64) (s : State) : Host.Outcome State Fault Refusal :=
  .next (cmdWrite via O.NET_APPLY m v (netApplyAct m v) s)

/-! ## Frames (R372) -/

/-- The UDP ports of VDP and of PTP over UDP. -/
def vdpPort : Nat := 29841
def isPtpPort (p : Nat) : Bool := decide (p = 319) || decide (p = 320)

/-- What a port does with a frame: answers it, passes it on, or drops and counts it. -/
inductive FrameFate where
  | answer | pass | drop
  deriving DecidableEq, Repr

/-- The fate of a frame. ARP and ICMP echo reach a port that holds an IPv4 address, VDP one that accepts it. -/
def frameFate (m len : Nat) (frame : EthFrame) (s : State) : FrameFate :=
  if 1518 < len then .drop
  else
    match frame with
    | .arp | .icmpEcho => if (s.netCfg m).v4.isSome then .answer else .drop
    | .neighbour | .icmp6Echo => .answer
    | .udp p => if decide (p = vdpPort) then (if (s.netCfg m).vdp then .pass else .drop) else if isPtpPort p then .pass else .drop
    | .ptp => .pass
    | .tagged | .fragment | .other => .drop

/-- A frame arrives on a port whose link is up. -/
def frameIn (m len : Nat) (frame : EthFrame) (s : State) : State :=
  if !s.netOn || !decide (s.elN O.NET_LINK_STATE m = netUp) then s
  else
    match frameFate m len frame s with
    | .answer => s.send (.netAnswer m frame)
    | .pass => s
    | .drop => s.inc O.NET_DROPPED m

/-- ETHERNET_FRAME. -/
def execEthernetFrame (m : Fin 2) (len : Nat) (frame : EthFrame) (s : State) : Host.Outcome State Fault Refusal :=
  .next (frameIn m.val len frame s)

/-- Whether VDP packets reach the module on a port: the network runs, the link is up and VDP is accepted there. -/
def State.vdpOn (s : State) (m : Nat) : Bool :=
  s.netOn && decide (s.elN O.NET_LINK_STATE m = netUp) && (s.netCfg m).vdp

/-! ## Opening a session (R375-R377) -/

/-- What a `HELLO` carries: principal, the client's public key and nonce, and what its signature covers. -/
def helloPrinc (p : List Byte) : Nat := fieldBE 16 2 p
def helloKey (p : List Byte) : List Byte := slice 18 65 p
def helloNonce (p : List Byte) : List Byte := slice 83 16 p
def helloSig (p : List Byte) : List Byte := slice 99 64 p
def helloDigest (p : List Byte) : List Byte := Config.sha384 (bytesLE 8 Config.moduleSerial.toNat ++ slice 16 83 p)

/-- Whether a `HELLO` is accepted. -/
def helloOk (p : List Byte) (s : State) : Bool :=
  let n := helloPrinc p
  decide (163 ≤ p.length) && decide (n < 2048) && decide (s.princKind n = 2) && s.hasKeyOf n
    && Config.ecdsaVerify (s.elBytes O.PRINC_KEY (8 * n) 8) (helloDigest p) (helloSig p)

/-- The IDs of the open sessions. -/
def State.openIds (s : State) : List Nat := s.sessions.filterMap (fun p => p.2.map Session.id)

/-- A new session ID, 1-65,535, that no open session has: which one the manual leaves open. -/
def State.newId (s : State) : Nat :=
  (((List.range 65).map (fun i => (s.freeNext.toNat + i) % 65535 + 1)).find? (fun k => !s.openIds.contains k)).getD 1

/-- The lowest slot without a session. -/
def State.freeSlot (s : State) : Option Nat := (List.range 64).find? (fun k => (s.session k).isNone)

/-- `HELLO_REPLY` of the n-th session opened. -/
def helloReply (n id : Nat) (p : List Byte) : List Byte :=
  let body := Config.ephemeralPublic n ++ Config.moduleNonce n
  vdpHeader pktHelloReply id 0 ++ body
    ++ Config.deviceSign (Config.sha384 (helloNonce p ++ bytesBE 2 id ++ body))

/-- The key material of a session. -/
def sessionKeys (n id : Nat) (p : List Byte) : List Byte :=
  Config.hkdf72 (Config.ecdh n (helloKey p)) (helloNonce p ++ Config.moduleNonce n) (bytesBE 4 0x56445031 ++ bytesBE 2 id)

/-- A session opens in a slot, with its own copies of the caller-local objects (R365). -/
def openSession (m addr k id : Nat) (p : List Byte) (s : State) : State :=
  let n := s.sessionCount
  let x : Session := { id := id, princ := helloPrinc p, port := m, addr := addr, keys := sessionKeys n id p, high := 0, seen := [],
                       sendNum := 0, lastAt := s.clock, replay := [], subs := [], notice := 0, inbox := [] }
  let s1 := refreshSessions ((resetCopy (1024 + k) { s with sessionCount := n + 1 }).setSession k (some x))
  (s1.setEl O.SESSION_INFO k (put id 0 ||| put (helloPrinc p) 16 ||| put m 27 ||| put 1 28)).send (.packet m (helloReply n id p))

/-- `REJECT` with `NO_RESOURCE`. -/
def rejectPacket : List Byte := vdpHeader pktReject 0 0 ++ bytesBE 1 Status.noResource.code

/-- A `HELLO` reaches the module. -/
def helloIn (m addr : Nat) (p : List Byte) (s : State) : State :=
  if !helloOk p s then s.inc O.VDP_HELLO_DROPPED 0
  else
    match s.freeSlot with
    | none => s.send (.packet m rejectPacket)
    | some k => openSession m addr k s.newId p s.drawn

/-! ## Packets (R374, R378) -/

/-- Whether a packet number is acceptable: above every number seen, or among the 64 below the highest and not seen. -/
def numOk (x : Session) (n : Nat) : Bool :=
  decide (x.high < n) || (decide (n < x.high) && decide (x.high ≤ n + 64) && decide (0 < n) && !x.seen.contains n)

/-- A packet number has been seen: what lies more than 64 below the highest is forgotten. -/
def seeNum (n : Nat) (x : Session) : Session :=
  let h := max x.high n
  { x with high := h, seen := (n :: x.high :: x.seen).filter (fun k => decide (k ≠ h) && decide (h ≤ k + 64)) }

/-- The slot of the open session with an ID. -/
def State.sessionSlot (s : State) (id : Nat) : Option Nat :=
  (List.range 64).find? (fun k => match s.session k with | none => false | some x => decide (x.id = id))

/-- The plaintext of a `DATA` packet, none where its tag fails. -/
def openPacket (x : Session) (p : List Byte) : Option (List Byte) :=
  Config.aesOpen (slice 0 32 x.keys) (slice 64 4 x.keys ++ slice 8 8 p) (slice 0 16 p) (p.drop 16)

/-- A `DATA` packet reaches the module: accepted with its message, which the request's own command executes, or discarded. -/
def dataIn (p : List Byte) (s : State) : State :=
  match s.sessionSlot (fieldBE 4 2 p) with
  | none => s.inc O.VDP_PKT_DROPPED 0
  | some k =>
    match s.session k with
    | none => s.inc O.VDP_PKT_DROPPED 0
    | some x =>
      if !numOk x (fieldBE 8 8 p) then s.inc O.VDP_PKT_DROPPED 0
      else
        match openPacket x p with
        | none => s.inc O.VDP_PKT_DROPPED 0
        | some msg => s.setSession k (some { seeNum (fieldBE 8 8 p) x with lastAt := s.clock, inbox := x.inbox ++ [msg] })

/-- A VDP packet reaches an address of a port: unknown ones are discarded and counted; replies and rejects are for clients. -/
def vdpIn (m addr : Nat) (p : List Byte) (s : State) : State :=
  if !headerOk p then s.inc O.VDP_PKT_DROPPED 0
  else if fieldBE 3 1 p = pktHello then helloIn m addr p s
  else if fieldBE 3 1 p = pktData then dataIn p s
  else s

/-- HELLO: a packet to one of the port's addresses. -/
def execHello (m : Fin 2) (addr : Nat) (p : List Byte) (s : State) : Host.Outcome State Fault Refusal :=
  .next (if s.vdpOn m.val && ((s.netCfg m.val).addrs m.val).contains addr then vdpIn m.val addr p s else s)

/-- DATA: a packet to the port, at its link-local address. -/
def execData (m : Fin 2) (p : List Byte) (s : State) : Host.Outcome State Fault Refusal :=
  .next (if s.vdpOn m.val then vdpIn m.val (linkLocal (fld (Config.netMac m.val) 47 0)) p s else s)

/-! ## Closing (R378) -/

/-- A session has had no accepted packet for `VDP_IDLE_S`. -/
def sessionIdle (k : Nat) (s : State) : State :=
  match s.session k with
  | none => s
  | some x => closeSession k (advanceTo (x.lastAt + s.elN O.VDP_IDLE_S 0 * sec) s)

/-- SESSION_IDLE_TIMEOUT. -/
def execSessionIdleTimeout (slot : Fin 64) (s : State) : Host.Outcome State Fault Refusal := .next (sessionIdle slot.val s)

/-- A write of `SESSION_CLOSE`: the ID of an open session. -/
def sessionCloseAct (v : W64) (s : State) : State × Status :=
  match s.sessionSlot v.toNat with
  | none => (s, .invalid)
  | some k => (closeSession k s, .ok)

/-- SESSION_CLOSE. -/
def execSessionClose (via : Via) (v : W64) (s : State) : Host.Outcome State Fault Refusal :=
  .next (cmdWrite via O.SESSION_CLOSE 0 v (sessionCloseAct v) s)

end Sys2Proof.Machine
end

