-- ==== Sys2Proof/Machine/Access.lean ====
section
/-! DEFINITION. The dictionary's objects as one: the rules of each writable object, the values that are sampled when read, accesses
through references (R366-R368) and of several elements at once (R359), and reads of TIME96 (R354). -/

namespace Sys2Proof.Machine

/-! ## Settings with checks of their own -/

/-- A port setting: `BUSY` while an armed bench uses the port (R257). -/
def portSetAct (o : ObjInfo) (p : Nat) (v : W64) (s : State) : State × Status :=
  if s.portArmed p then (s, .busy) else (s.put o p v, .ok)

/-- A setting of the module that is refused while any bench is armed. -/
def idleSetAct (o : ObjInfo) (e : Nat) (v : W64) (s : State) : State × Status :=
  if !s.armedBenches.isEmpty then (s, .busy) else (s.put o e v, .ok)

/-- A setting of a bench that is refused while the bench is armed (R211, R257). -/
def benchSetAct (o : ObjInfo) (b e : Nat) (v : W64) (s : State) : State × Status :=
  if s.isArmed b then (s, .busy) else (s.put o e v, .ok)

/-- A setting with reserved bits: they are zero. -/
def bitsSetAct (o : ObjInfo) (e : Nat) (v mask : W64) (s : State) : State × Status :=
  if v &&& ~~~ mask ≠ 0#64 then (s, .invalid) else (s.put o e v, .ok)

/-- Whether another `DRAIN` queue names a stream (R281). -/
def streamNamed (q k : Nat) (s : State) : Bool :=
  (Tab.keysIn s.elems (O.Q_CONFIG.key 0) (O.Q_CONFIG.key 16384)).any (fun key =>
    let i := key - O.Q_CONFIG.key 0
    !decide (i = q) && decide (s.qKind i = 1) && decide (qSource (s.el O.Q_CONFIG i) = k))

/-- A write of `Q_CONFIG` (R281): its refusals in the order of R357. -/
def qConfigAct (q : Nat) (v : W64) (s : State) : State × Status :=
  let kind := fld v 2 0
  let owner := ownerOf (s.elN O.Q_OWNER q)
  let eventQ := match owner with | none => false | some b => decide (s.elN O.EVENT_QUEUE b = q)
  let armed := match owner with | none => false | some b => s.isArmed b
  if decide (kind = 1) && !decide (owner = some (qSource v / 16)) then (s, .denied)
  else if !queueFieldsOk q v || (decide (kind = 1) && streamNamed q (qSource v) s) then (s, .invalid)
  else if armed && (eventQ || decide (s.qKind q = 1)) then (s, .busy)
  else (noteQueue s q (s.put O.Q_CONFIG q v), .ok)

/-- A write of `EVENT_QUEUE` (R283): an `EVENT` queue of the bench, or none. -/
def eventQueueAct (b : Nat) (v : W64) (s : State) : State × Status :=
  let q := v.toNat
  if q = noBench || (decide (q < 16384) && decide (s.qKind q = 2) && decide (s.elN O.Q_OWNER q = b)) then (s.put O.EVENT_QUEUE b v, .ok)
  else (s, .invalid)

/-- The flash-kept settings are journalled. -/
def journalSettings (s : State) : State :=
  journalAdd (.settings (s.elN O.SPARE_COUNT 0) ((List.range 4).map (fun h => s.el O.SUBSYS_ID h))) s

/-- A write of `SPARE_COUNT`: `NO_RESOURCE` when the trace ingots that it leaves would not cover the quotas (R315). -/
def spareAct (v : W64) (s : State) : State × Status :=
  let healthy := (candidates.filter (fun r => decide (s.rankState r ≠ rankRetired))).length
  if traceIngots (min healthy (min 30 (32 - v.toNat))) < s.total O.INGOT_QUOTA then (s, .noResource)
  else (journalSettings (s.put O.SPARE_COUNT 0 v), .ok)

/-- A write of `SUBSYS_ID`: effective at the next power-on. -/
def subsysAct (h : Nat) (v : W64) (s : State) : State × Status := (journalSettings (s.put O.SUBSYS_ID h v), .ok)

/-- A write of `INT_PENDING`: each 1 clears its bit (R421). -/
def intPendingAct (h : Nat) (v : W64) (s : State) : State × Status :=
  if fld v 63 5 ≠ 0 then (s, .invalid) else (intUpdate h (s.put O.INT_PENDING h (s.el O.INT_PENDING h &&& ~~~ v)), .ok)

/-- A write of `INT_MASK`. -/
def intMaskAct (h : Nat) (v : W64) (s : State) : State × Status :=
  if fld v 63 5 ≠ 0 then (s, .invalid) else (intUpdate h (s.put O.INT_MASK h v), .ok)

/-- A write of `STORE_WIN_BASE`: a multiple of 2^30 below the end of the trace ingots' addresses (R397). -/
def winBaseAct (e : Nat) (v : W64) (s : State) : State × Status :=
  if v.toNat % 2 ^ 30 ≠ 0 || decide (0x5E00000000 ≤ v.toNat) then (s, .invalid) else (s.put O.STORE_WIN_BASE e v, .ok)

/-- A write of `READOUT_RANGE`: 1-385,024 positions (R410). -/
def readoutRangeAct (q : Nat) (v : W64) (s : State) : State × Status :=
  if fld v 63 39 ≠ 0 || decide (fld v 38 19 = 0) || decide (385024 < fld v 38 19) then (s, .invalid)
  else (s.put O.READOUT_RANGE q v, .ok)

/-- A write of `READOUT_CMD`, of `FILL_CMD`: 1 start, 2 stop or abort. -/
def readoutCmdAct (q : Nat) (v : W64) (s : State) : State × Status :=
  if v = 1#64 then readoutStartAct q s else if v = 2#64 then readoutStopAct q s else (s, .invalid)
def fillCmdAct (e : Nat) (v : W64) (s : State) : State × Status :=
  if v = 1#64 then fillStartAct (e / 1024) s else if v = 2#64 then fillAbortAct (e / 1024) s else (s, .invalid)

/-- Writes of `NET_LINK_MODE` and `NET_FEC`: `RS` is not valid at 10 Gb/s (R371). -/
def linkModeAct (m : Nat) (v : W64) (s : State) : State × Status :=
  if v = 1#64 && decide (s.elN O.NET_FEC m = 2) then (s, .invalid) else (s.put O.NET_LINK_MODE m v, .ok)
def netFecAct (m : Nat) (v : W64) (s : State) : State × Status :=
  if v = 2#64 && decide (s.elN O.NET_LINK_MODE m = 1) then (s, .invalid) else (s.put O.NET_FEC m v, .ok)

/-- A write of `REF_PRIORITY` (R427) takes effect at once. -/
def refPriorityAct (r : Nat) (v : W64) (s : State) : State × Status := (reselect (refreshPtp 1 (s.put O.REF_PRIORITY r v)), .ok)

/-- A write of `REVERTIVE` (R433). -/
def revertiveAct (v : W64) (s : State) : State × Status := (reselect (s.put O.REVERTIVE 0 v), .ok)

/-- Writes of `UTC_OFFSET` and `LEAP_PENDING`: `BUSY` while REFB is selected (R450). -/
def calendarAct (o : ObjInfo) (v : W64) (s : State) : State × Status :=
  if s.onRefB then (s, .busy) else (refreshLeap (s.put o 0 v), .ok)

/-- A write of `PLAN_FREQ_HZ`: `BUSY` for the active slot; the band-search result clears (R437). -/
def planFreqAct (k : Nat) (v : W64) (s : State) : State × Status :=
  if s.elN O.PLAN_ACTIVE 0 = k then (s, .busy) else ((s.put O.PLAN_FREQ_HZ k v).setEl O.PLAN_STATE k 0#64, .ok)

/-- A write of `OUT_CFG` (R438). -/
def outCfgAct (n : Nat) (v : W64) (s : State) : State × Status :=
  if fld v 11 0 < 48 || decide (64 * fld v 11 0 ≤ fld v 29 12) || decide (fld v 63 31 ≠ 0) then (s, .invalid)
  else (s.put O.OUT_CFG n v, .ok)

/-- A write of `PPS_OUT_ENABLE`: PPS_OUT is low while it is 0 (R441). -/
def ppsEnableAct (v : W64) (s : State) : State × Status :=
  let s1 := s.put O.PPS_OUT_ENABLE 0 v
  (if v = 0#64 then setPps false s1 else s1, .ok)

/-- A write of `AUX0_FTW`: the accumulator goes on from its phase, in the cycles of the DAC domain (R453). -/
def auxFtwAct (v : W64) (s : State) : State × Status := ((setAux0Phase s.aux0PhaseNow s).put O.AUX0_FTW 0 v, .ok)

/-- A write of `PTP_PORT_CFG` (R448): the ranges of its fields. -/
def ptpCfgAct (m : Nat) (v : W64) (s : State) : State × Status :=
  let sync := fld v 15 12
  if fld v 4 3 = 3 || decide (fld v 7 5 ≠ 0) || decide (4 < fld v 11 8) || !(decide (sync ≤ 1) || decide (sync = 15))
      || decide (5 < fld v 19 16) || decide (fld v 63 20 ≠ 0) then (s, .invalid)
  else (refreshPtp m (s.put O.PTP_PORT_CFG m v), .ok)

/-- A write of `MODE_CMD` (R459). -/
def modeCmdAct (v : W64) (s : State) : State × Status :=
  if fld v 15 4 ≠ 0 || decide (fld v 63 26 ≠ 0) then (s, .invalid)
  else
    match fld v 3 0 with
    | 1 => endExclusiveAct s
    | 2 => exclusiveAct (fld v 25 16) s
    | 3 => quiesceAct false s
    | 4 => quiesceAct true s
    | 5 => factoryAct s
    | _ => (s, .invalid)

/-- A write of `CAS_EXPECT` (R367): bits [62:32] are zero. -/
def casExpectAct (e : Nat) (v : W64) (s : State) : State × Status :=
  if fld v 62 32 ≠ 0 then (s, .invalid) else (s.put O.CAS_EXPECT e v, .ok)

/-! ## The rules of every writable object -/

/-- An object with the rule of its writes. -/
abbrev Rule := ObjInfo × (State → State × Status)

/-- Ports, tiles and condition units (areas 3 and 5). -/
def linkRules (e : Nat) (v : W64) : List Rule :=
  [(O.PORT_ENABLE, portEnableAct e v), (O.CLEAR_COUNTERS, clearCountersAct e), (O.SEND_DESC_REQ, sendDescReqAct e),
   (O.REALIGN, realignAct e), (O.ROW_WAIT_NS, idleSetAct O.ROW_WAIT_NS e v), (O.TILE_POWER, tilePowerAct e v),
   (O.TILE_RESET, tileResetAct e v), (O.CU_CONFIG, cuConfigAct e v), (O.CU_GROUP, cuGroupAct e v), (O.CU_EXPORT, cuExportAct e v)]
    ++ [O.EQ_PRESET, O.TX_FFE_PRESET, O.RX_POLARITY, O.TX_POLARITY, O.PRECODE, O.FEC_MODE, O.DEGRADE_SYM_PER_S, O.UNCORR_LIMIT].map
      (fun o => (o, portSetAct o e v))
    ++ [O.CU_PATTERN, O.CU_MASK, O.CU_LOW, O.CU_HIGH, O.CU_LEVEL, O.CU_HYST].map (fun o => (o, writeShadowed o e v))

/-- Sequencers, commits and schedules (area 5). -/
def sequencerRules (e : Nat) (v : W64) : List Rule :=
  [(O.SQ_CONFIG, sqConfigAct e v), (O.SQ_BRANCH_INPUTS, sqInputsAct e v), (O.SQ_LEVEL_BRANCH, sqLevelAct e v),
   (O.SQ_BRANCH_ACTION, sqActionAct e v), (O.SQ_CNT_CONFIG, sqCntConfigAct e v), (O.HOLDOFF_SEL, holdoffSelAct e v),
   (O.TRIG_PULSE_NS, trigPulseAct e v), (O.COMMIT, commitWriteAct e v), (O.ARM_AT, armAtAct e v), (O.DISARM_AT, disarmAtAct e v),
   (O.QUENCH_CMD, quenchCmdAct e v), (O.RESUME_CMD, resumeCmdAct e v)]
    ++ [O.SQ_LEVEL_TIMEOUT, O.SQ_CNT_LIMIT, O.HOLDOFF_KIND, O.HOLDOFF_VALUE].map (fun o => (o, writeShadowed o e v))

/-- Acquisition and assay (area 6). -/
def acquisitionRules (e : Nat) (v : W64) : List Rule :=
  [(O.GOLD_INGOTS, goldIngotsAct e v), (O.GOLD_SEAL, goldSealAct e v), (O.AE_CONFIG, aeConfigAct e v), (O.AE_GROUP_LIST, aeListAct e v),
   (O.GOLD_FIRST, goldFirstAct e v), (O.GOLD_CELLS, goldCellsAct e v), (O.ALIGN_STAMP, aeSetAct O.ALIGN_STAMP e e v),
   (O.ALIGN_OFFSET, aeSetAct O.ALIGN_OFFSET e e v), (O.AE_LIST_LEN, aeTraceAct O.AE_LIST_LEN e e v),
   (O.AE_MASK, aeSetAct O.AE_MASK (e / 16384) e v), (O.STREAM_WEIGHT, benchSetAct O.STREAM_WEIGHT (e / 16) e v)]
    ++ [O.PRE_COUNT, O.POST_COUNT, O.SYNC_INTERVAL].map (fun o => (o, writeShadowed o e v))
    ++ [O.STORE_MODE, O.SEGMENT_LIMIT, O.SEG_FULL_POLICY].map (fun o => (o, benchSetAct o e e v))

/-- Benches, locks and proposals (area 4). -/
def benchRules (via : Via) (e : Nat) (v : W64) : List Rule :=
  [(O.BENCH_CMD, benchCmdAct e v), (O.LOCK_ACQUIRE, lockAcquireAct via e v), (O.LOCK_RELEASE, lockReleaseAct via e),
   (O.LOCK_RENEW, lockRenewAct via e), (O.LOCK_BREAK, lockBreakAct e), (O.PROP_SUBMIT, propSubmitAct via v),
   (O.PROP_COUNTERSIGN, propCountersignAct via v), (O.PROP_CANCEL, propCancelAct via v), (O.CSIGN_SIG, csignSigAct e v)]
    ++ [O.PROP_BODY, O.PROP_LEN, O.PROP_SIG].map (fun o => (o, propStageAct via o e v))

/-- Queues, capture store and host ports (areas 7-9). -/
def queueRules (e : Nat) (v : W64) : List Rule :=
  [(O.STORE_BACKLOG, idleSetAct O.STORE_BACKLOG e v), (O.Q_CLAIM, qClaimAct e v), (O.Q_RELEASE, qReleaseAct e v),
   (O.EVENT_QUEUE, eventQueueAct e v), (O.Q_CONFIG, qConfigAct e v), (O.Q_FLUSH, qFlushAct e v), (O.Q_RESET, qResetAct e v),
   (O.SPARE_COUNT, spareAct v), (O.STORE_SPEED, storeSpeedAct v), (O.RANK_RETIRE, rankRetireAct v),
   (O.POISON_LIST_CLEAR, poisonClearAct), (O.DELAY_LOAD, delayLoadAct), (O.SUBSYS_ID, subsysAct e v),
   (O.INT_PENDING, intPendingAct e v), (O.INT_MASK, intMaskAct e v), (O.Q_HOST, qHostAct e v),
   (O.RING_BASE, ringAct O.RING_BASE 4096 e v), (O.RING_WB_ADDR, ringAct O.RING_WB_ADDR 8 e v),
   (O.READOUT_RANGE, readoutRangeAct e v), (O.READOUT_CMD, readoutCmdAct e v)]

/-- Timing (area 2). -/
def timingRules (via : Via) (e : Nat) (v : W64) : List Rule :=
  [(O.TIME_SET, timeSetAct via e v), (O.CAL_UTC, calUtcAct v), (O.REF_PRIORITY, refPriorityAct e v), (O.REVERTIVE, revertiveAct v),
   (O.UTC_OFFSET, calendarAct O.UTC_OFFSET v), (O.LEAP_PENDING, calendarAct O.LEAP_PENDING v), (O.PLAN_FREQ_HZ, planFreqAct e v),
   (O.PLAN_SELECT, planSelectAct v), (O.PLAN_AT, planAtAct v), (O.OUT_CFG, outCfgAct e v), (O.OUT_APPLY, outApplyAct v),
   (O.PPS_OUT_ENABLE, ppsEnableAct v), (O.TRIG_IO_CFG, trigIoAct e v), (O.EDGE_AT, edgeAtAct e v), (O.AUX0_FTW, auxFtwAct v),
   (O.AUX1_PUSH, aux1PushAct v), (O.AUX1_FLUSH, aux1FlushAct), (O.PTP_PORT_CFG, ptpCfgAct e v)]

/-- Network, health, errors, firmware and the module (areas A-D and 1). -/
def moduleRules (e : Nat) (v : W64) : List Rule :=
  [(O.NET_LINK_MODE, linkModeAct e v), (O.NET_FEC, netFecAct e v), (O.NET_IPV4, bitsSetAct O.NET_IPV4 e v 0x8000003FFFFFFFFF#64),
   (O.NET_IPV6_CFG, bitsSetAct O.NET_IPV6_CFG e v 0x1FF#64), (O.NET_APPLY, netApplyAct e v), (O.SESSION_CLOSE, sessionCloseAct v),
   (O.MODE_CMD, modeCmdAct v), (O.WARM_RESET, warmResetAct v), (O.TS_ENABLE, bitsSetAct O.TS_ENABLE e v 0xF#64),
   (O.ERR_ACK, errAckAct e v), (O.FW_BEGIN, fwBeginAct v), (O.FW_PAGE, fwPageAct v), (O.FW_FINISH, fwFinishAct v)]

/-- Caller-local objects (area E), but for `RELAY_DATA` and `MBX_SUBMIT`. -/
def callerRules (e : Nat) (v : W64) : List Rule :=
  [(O.CAS_EXPECT, casExpectAct e v), (O.STORE_WIN_BASE, winBaseAct e v), (O.FILL_CMD, fillCmdAct e v)]

/-- The rule of a write of an object; one without a rule of its own only takes the value. -/
def ruleOf (via : Via) (o : ObjInfo) (e : Nat) (v : W64) : State → State × Status :=
  (((linkRules e v ++ sequencerRules e v ++ acquisitionRules e v ++ benchRules via e v ++ queueRules e v ++ timingRules via e v
      ++ moduleRules e v ++ callerRules e v).find? (fun r => decide (r.1.base = o.base))).map Prod.snd).getD (setAct o e v)

/-! ## The catalogue (R384) -/

/-- The code of a type (Table 10.2). -/
def Ty.code : Ty → Nat
  | .bool => 0 | .u8 => 1 | .u16 => 2 | .u32 => 3 | .u64 => 4 | .i32 => 5 | .i64 => 6 | .w40 => 7 | .time96 => 8 | .enum => 9
  | .bits => 10 | .str => 11 | .addr => 12 | .cmd => Config.commandType.toNat

/-- The code of an access kind (Table 10.3). -/
def Acc.code : Acc → Nat
  | .ro => 0 | .rw => 1 | .wo => 2 | .rc => 3 | .w1c => 4 | .cmd => 5 | .cas => 6

/-- Character i of an object's name. -/
def nameChar (o : ObjInfo) (i : Nat) : Nat := ((o.name.toList[i]?).map Char.toNat).getD 0

/-- Eight characters of a name, the first in the lowest byte. -/
def nameWord (o : ObjInfo) (w : Nat) : W64 :=
  BitVec.ofNat 64 (((List.range 8).map (fun i => nameChar o (8 * w + i) * 2 ^ (8 * i))).sum)

/-- Whether a setting is shadowed. -/
def isShadowed (o : ObjInfo) : Bool :=
  (shadowedCu ++ shadowedSq ++ shadowedAcq).any (fun p => decide (p.base = o.base))

/-- Whether some elements have another default than most. -/
def defaultVaries (o : ObjInfo) : Bool :=
  (factoryDefault o.base 0).isSome || elementDefaults.any (fun p => decide (p.1 / 2 ^ 28 = o.base))

/-- `Trusted-only`: the objects that the protection set holds, which proposals write (R248, Table 7.2; DESIGN CHOICE, log entry 17: the
catalogue's own values are not printed). -/
def trustedBit (o : ObjInfo) : Nat := if protItems.any (fun p => decide (p.base = o.base)) then 16 else 0

/-- The entries of the catalogue, one per object (R384): the 32 objects of a lane family each have theirs. -/
def catEntries : List ObjInfo :=
  catalogue.flatMap (fun o =>
    if o.fam then (List.range 32).map (fun p => { o with base := o.base + p, count := 8, fam := false }) else [o])

/-- Word w of a catalogue entry (Table 10.11). -/
def catWord (o : ObjInfo) (w : Nat) : W64 :=
  match w with
  | 0 => put (o.base / 4096) 60 ||| put (o.base % 4096) 48 ||| put (o.count % 2 ^ 20) 28 ||| put o.ty.code 20 ||| put o.acc.code 16
      ||| put (o.readRights.bits + trustedBit o) 8 ||| put (o.writeRights.bits + trustedBit o) 0
  | 1 => if o.base = O.CAT_COUNT.base then BitVec.ofNat 64 catEntries.length else intW64 o.dflt
  | 2 => put (isShadowed o).toNat 0 ||| put (isSampled o 0).toNat 1 ||| put (decide (o.own = .caller)).toNat 2
      ||| put (defaultVaries o).toNat 3
  | 3 | 4 | 5 | 6 => nameWord o (w - 3)
  | _ => 0#64

/-- Element e of `CAT_ENTRY`. -/
def catElement (e : Nat) : W64 :=
  match catEntries[e / 8]? with
  | none => 0#64
  | some o => catWord o (e % 8)

/-! ## Values sampled when read -/

/-- A directory entry as `INGOT_DIR` shows it (Table 9.4). -/
def dirWord (d : DirEntry) (w : Nat) : W64 :=
  if w = 0 then put d.ingot 0 ||| put d.tile 19 ||| put d.state 23 ||| put d.poisoned.toNat 26 ||| put (d.segment % 65536) 32
    ||| put (d.firstSeq % 65536) 48
  else put d.fillSeq.toNat 0 ||| put d.cells 32

/-- An entry of a segment table as `SEG_ENTRY` shows it. -/
def SegEntry.word (x : SegEntry) (w : Nat) : W64 :=
  match w with
  | 0 => x.w0 | 1 => x.w1 | 2 => x.w2 | _ => x.w3

/-- An element of `SEG_ENTRY`. -/
def State.segWord (s : State) (e : Nat) : W64 := (s.segShown (e / 4)).word (e % 4)

/-- Element e of a caller's `INGOT_DIR` (R321, R370). -/
def ingotDir (via : Via) (e : Nat) (s : State) : W64 :=
  match viaBench via s with
  | none => 0#64
  | some b => dirWord (((s.dir b)[e % 2 ^ 20 / 2]?).getD { ingot := 0 }) (e % 2)

/-- The values that are computed when read. -/
def sampledValues (via : Via) (e : Nat) (s : State) : List (ObjInfo × W64) :=
  [(O.CAT_COUNT, BitVec.ofNat 64 catEntries.length), (O.CAT_ENTRY, catElement e), (O.CAL_UTC, s.calNow),
   (O.HOLDOVER_S, BitVec.ofNat 64 (s.holdTime / sec)), (O.Q_STATE, s.qState e), (O.POOL_FREE, BitVec.ofNat 64 s.poolFree),
   (O.NEIGHBOUR_REFRESHES, BitVec.ofNat 64 s.neighbours),
   (O.LOCK_STATE, s.lockView e), (O.SEG_ENTRY, s.segWord e), (O.INGOT_DIR, ingotDir via e s),
   (O.LOCAL_BENCH, BitVec.ofNat 64 ((viaBench via s).getD noBench)), (O.CREDIT_WAIT_NS, s.creditWait e)]

/-- What an element reads as: zero for one that is only written, the default of a setting of a
condition unit of no bench (R113), the computed value, the shadow copy (R148), or the element. -/
def State.shown (s : State) (via : Via) (o : ObjInfo) (e : Nat) : W64 :=
  if o.acc = .wo || o.acc = .cmd then 0#64
  else if shadowedCu.any (fun p => decide (p.base = o.base)) && (s.cuBench e).isNone then elemDefault (o.key e)
  else
    match (sampledValues via e s).find? (fun p => decide (p.1.base = o.base)) with
    | some p => p.2
    | none => s.view o e

/-! ## Reads -/

/-- The element that a caller's reference names: of its own copy of a caller-local object, of its bench for one that is indexed relative
to a bench (R370). -/
def resolveFor (via : Via) (obj e : Nat) (s : State) : Option (ObjInfo × Nat) :=
  match resolveRef obj e with
  | none => none
  | some (o, i) =>
    if o.isLocal then (viaCopy via).map (fun c => (o, copyEl c i))
    else if o.own = .caller then (viaBench via s).map (fun b => (o, benchEl b i))
    else some (o, i)

/-- A TIME96 element (R354): the even one latches the odd one for the caller, whose next read of the odd one returns it. -/
def readTime96 (via : Via) (o : ObjInfo) (e : Nat) (lo hi : W64) (s : State) : State × W64 :=
  let c := viaCaller via
  if e % 2 = 0 then ({ s with latched := setHalf c (o.key (e + 1)) (some hi) s.latched }, lo)
  else
    match halfOf c (o.key e) s.latched with
    | some v => ({ s with latched := setHalf c (o.key e) none s.latched }, v)
    | none => (s, hi)

/-- `CC_VALUE` (R368): the change counter of the object that `CC_REF` names; absent where the caller cannot read it, by its relay
too (R366). -/
def readCcValue (via0 : Via) (e : Nat) (s : State) : State × Status × W64 :=
  let via : Via := match via0 with
    | .wctl f => .relay f
    | v => v
  let r := s.el O.CC_REF e
  match resolveFor via (fld r 63 48) (fld r 27 0) s with
  | none => (s, .denied, 0#64)
  | some (o, i) =>
    if !reaches via o s || !mayRead o i (viaRights via s) s then (s, .denied, 0#64)
    else (s, .ok, (s.counter o i).setWidth 64)

/-- A read of an element whose checks have passed. -/
def readAct (via : Via) (o : ObjInfo) (e : Nat) (s : State) : State × Status × W64 :=
  if o.base = O.Q_POP.base then qPopAct e s
  else if o.base = O.CC_VALUE.base then readCcValue via e s
  else if o.base = O.MODULE_TIME.base then
    let r := readTime96 via o e (time96Lo s.mtime) (time96Hi s.mtime) s
    (r.1, .ok, r.2)
  else if o.ty = .time96 && decide (o.acc ≠ .wo) then
    let r := readTime96 via o e (s.el o e) (s.el o (if e % 2 = 0 then e + 1 else e)) s
    (r.1, .ok, r.2)
  else (s, .ok, s.shown via o e)

/-! ## Relayed accesses (R366) -/

/-- The path of a relayed access (R366). -/
def relayVia (via : Via) : Via :=
  match via with
  | .wctl f => .relay f
  | v => v

/-- Whether a reference may be relayed: it names neither area 0 nor area E. -/
def relayable (r : W64) : Bool := decide (fld r 63 60 ≠ 0) && decide (fld r 63 60 ≠ 14)

/-- A write of `RELAY_DATA` (R366, R367): a write of the element that `RELAY_REF` names. -/
def relayWriteAct (via : Via) (e : Nat) (v : W64) (s : State) : State × Status :=
  let c := e / 1024
  let r := s.el O.RELAY_REF (copyEl c 0)
  if !relayable r then (s, .invalid)
  else
    match resolveRef (fld r 63 48) (fld r 27 0) with
    | none => (s, absentStatus (relayVia via) (fld r 63 48) s)
    | some (o, i) =>
      let w := relayVia via
      let p := takeCas w o s
      let x := dictWrite w p.1 o i v (ruleOf w o i v) p.2
      (if x.2 = .ok then relayAdvance c x.1 else x.1, x.2)

/-- A read of `RELAY_DATA`. -/
def relayReadAct (via : Via) (e : Nat) (s : State) : State × Status × W64 :=
  let c := e / 1024
  let r := s.el O.RELAY_REF (copyEl c 0)
  if !relayable r then (s, .invalid, 0#64)
  else
    match resolveRef (fld r 63 48) (fld r 27 0) with
    | none => (s, absentStatus (relayVia via) (fld r 63 48) s, 0#64)
    | some (o, i) =>
      let w := relayVia via
      match readCheck w o i s with
      | .ok =>
        let x := readAct w o i s
        (if x.2.1 = .ok then relayAdvance c x.1 else x.1, x.2.1, x.2.2)
      | st => (s, st, 0#64)

/-- A write of any element, and a read of any element. -/
def writeElem (via : Via) (o : ObjInfo) (e : Nat) (v : W64) : State → State × Status :=
  if o.base = O.RELAY_DATA.base then relayWriteAct via e v else ruleOf via o e v
def readElem (via : Via) (o : ObjInfo) (e : Nat) : State → State × Status × W64 :=
  if o.base = O.RELAY_DATA.base then relayReadAct via e else readAct via o e

/-! ## Requests over several elements (R359) -/

/-- The first failure of R357 among the checks of several elements. -/
def worstStatus (l : List Status) : Status :=
  if l.contains .denied then .denied else if l.contains .invalid then .invalid else if l.contains .stale then .stale
  else (l.find? (fun st => !decide (st = .ok))).getD .ok

/-- The checks of one element of a request: those of R357, the owner checks and field rules of the object's own rules in their place. -/
def elementCheck (via : Via) (expect : Option (BitVec 32)) (o : ObjInfo) (p : Nat × W64) (s : State) : Status :=
  let st := writeCheck via expect o p.1 p.2 s
  let own := (writeElem via o p.1 p.2 s).2
  if ownFirst via o p.1 st own s then own else st

/-- The rules of several elements, one after another, until one refuses; a later one sees what the earlier ones left, so that two exports
do not swap slots in one request (DESIGN CHOICE, log entry 143). One whose time has passed refuses no other: the answer is then `LATE`. -/
def actAll (via : Via) (o : ObjInfo) : List (Nat × W64) → State → State × Status
  | [], s => (s, .ok)
  | p :: rest, s =>
    let r := writeElem via o p.1 p.2 s
    if r.2 = .ok || r.2 = .late then
      let x := actAll via o rest r.1
      (x.1, if x.2 = .ok then r.2 else x.2)
    else r

/-- The elements of a request whose scheduled time has passed (R156, R445). -/
def lateOnes (via : Via) (o : ObjInfo) (l : List (Nat × W64)) (s : State) : List (Nat × W64) :=
  l.filter (fun p => decide ((writeElem via o p.1 p.2 s).2 = .late))

/-- A write of several elements of one object: all of them or none, and one advance of its change counter. Where some come late, none is
written, and each late one has the outcome that its policy gives it (R156, R445); of a request refused otherwise nothing remains, not even
the lane reports of its ARM attempts (DESIGN CHOICE, log entry 143). -/
def writeMany (via : Via) (expect : Option (BitVec 32)) (o : ObjInfo) (l : List (Nat × W64)) (s : State) : State × Status :=
  match l with
  | [p] => dictWrite via expect o p.1 p.2 (writeElem via o p.1 p.2) s
  | _ =>
    match worstStatus (l.map (fun p => elementCheck via expect o p s)) with
    | .ok =>
      let r := actAll via o l s
      if r.2 = .ok then (r.1.bump o ((l.map Prod.fst).headD 0), .ok)
      else if r.2 = .late then actAll via o (lateOnes via o l s) s
      else noteRefusal via o ((l.map Prod.fst).headD 0) r.2 s
    | st => noteRefusal via o ((l.map Prod.fst).headD 0) st s

/-- The values of several elements, until a read refuses. -/
def readAll (via : Via) (o : ObjInfo) : List Nat → State → State × Status × List W64
  | [], s => (s, .ok, [])
  | e :: rest, s =>
    let r := readElem via o e s
    if r.2.1 = .ok then
      let x := readAll via o rest r.1
      (x.1, x.2.1, r.2.2 :: x.2.2)
    else (r.1, r.2.1, [])

/-- A read of several elements of one object. -/
def readMany (via : Via) (o : ObjInfo) (l : List Nat) (s : State) : State × Status × List W64 :=
  match worstStatus (l.map (fun e => readCheck via o e s)) with
  | .ok =>
    let r := readAll via o l s
    if r.2.1 = .ok then r else (s, r.2.1, [])
  | st => (s, st, [])

end Sys2Proof.Machine
end

