-- ==== Sys2Proof/Machine/Vdp.lean ====
section
/-! DEFINITION. Requests: VDP messages with the replay window (R379, R380, R383), subscriptions and notices (R381, R382), and the
mailbox of a host function (R417, R418). -/

namespace Sys2Proof.Machine

/-! ## One request (R380) -/

/-- What a request answers: the reference it repeats, status, change counter, subscription, values. -/
structure Answer where
  ref : W64 := 0#64
  st : Status
  counter : BitVec 32 := 0#32
  sub : Nat := 0
  vals : List W64 := []
  deriving DecidableEq, Repr

/-- The `count` consecutive elements of one object that a reference names; none where one is not there. -/
def requestEls (via : Via) (ref : W64) (count : Nat) (s : State) : Option (ObjInfo × List Nat) :=
  match (List.range count).mapM (fun i => resolveFor via (fld ref 63 48) (fld ref 27 0 + i) s) with
  | none => none
  | some [] => none
  | some (p :: rest) => some (p.1, (p :: rest).map Prod.snd)

/-- Whether a request has its form: a reference in ADDR layout, 1-128 elements. -/
def requestOk (ref : W64) (count : Nat) : Bool := addrLayout ref && decide (1 ≤ count) && decide (count ≤ 128)

/-- The answer of a request that ends in a status: it carries the counter of the object it names (R380). -/
def requestAnswer (via : Via) (ref : W64) (st : Status) (vals : List W64) (s : State) : Answer :=
  { ref := ref, st := st, counter := objCounter via (fld ref 63 48) s, vals := vals }

/-- The status of a request without its form: the right to what it names comes first (R357), of one element where it names none. -/
def malformed (via : Via) (ref : W64) (count : Nat) (check : ObjInfo → Nat → Status) (s : State) : Status :=
  match requestEls via ref (max 1 count) s with
  | none => absentStatus via (fld ref 63 48) s
  | some (o, es) => match worstStatus (es.map (check o)) with
    | .ok => .invalid
    | st => st

/-- A `READ`. -/
def readRequest (via : Via) (ref : W64) (count : Nat) (s : State) : State × Answer :=
  if !requestOk ref count then (s, requestAnswer via ref (malformed via ref count (fun o e => readCheck via o e s) s) [] s)
  else
    match requestEls via ref count s with
    | none => (s, requestAnswer via ref (absentStatus via (fld ref 63 48) s) [] s)
    | some (o, es) =>
      let r := readMany via o es s
      (r.1, { ref := ref, st := r.2.1, counter := r.1.counter o (es.headD 0), vals := r.2.2 })

/-- A `WRITE`, or with an expected counter a `CAS_WRITE`. -/
def writeRequest (via : Via) (ref : W64) (expect : Option (BitVec 32)) (vals : List W64) (s : State) : State × Answer :=
  if !requestOk ref vals.length then
    (spendCas via (fld ref 63 48) s, requestAnswer via ref (malformed via ref vals.length (fun o e => writeRight via o e s) s) [] s)
  else
    match requestEls via ref vals.length s with
    | none => (spendCas via (fld ref 63 48) s, requestAnswer via ref (absentStatus via (fld ref 63 48) s) [] s)
    | some (o, es) =>
      let p := takeCas via o s
      let r := writeMany via (if expect.isSome then expect else p.1) o (es.zip vals) p.2
      (relaySpends via o r.1, { ref := ref, st := r.2, counter := r.1.counter o (es.headD 0) })

/-! ## The replay window (R379, R418) -/

/-- The stored responses that are still held: 30 s each. -/
def heldReplies (l : List Replay) (now : Nat) : List Replay := l.filter (fun x => decide (now < x.at_ + 30 * sec))

/-- The stored response of an ID; 0 is never stored. -/
def heldReply (id : BitVec 32) (l : List Replay) (now : Nat) : Option Replay :=
  if id = 0#32 then none else (heldReplies l now).find? (fun x => decide (x.reqId = id))

/-- The store with one more response: the last 64 IDs. -/
def storeReply (id : BitVec 32) (a : Answer) (now : Nat) (l : List Replay) : List Replay :=
  if id = 0#32 then l
  else (({ reqId := id, ref := a.ref, at_ := now, orig := a.st, counter := a.counter, sub := a.sub, vals := a.vals } : Replay) :: heldReplies l now).take 64

/-- What a request says beside its ID (Table 10.10): operation, reference, the field at bytes 16-19, count, values. -/
structure Asked where
  op : Nat
  flags : Nat := 0
  ref : W64 := 0#64
  expect : Option Nat := none
  count : Option Nat := none
  vals : List W64 := []
  deriving DecidableEq, Repr

/-- Whether a message is a request: the fields that its operation uses. -/
def Asked.is (q : Asked) (id : BitVec 32) (m : List Byte) : Bool :=
  decide (fieldBE 0 4 m = id.toNat) && decide (fieldBE 4 1 m = q.op)
    && (decide (q.op ≠ opSubscribe) || decide (fieldBE 5 1 m % 2 = q.flags))
    && (decide (opKeepalive ≤ q.op) || decide (fieldBE 8 8 m = q.ref.toNat))
    && (q.expect.map (fun n => decide (fieldBE 16 4 m = n))).getD true
    && (q.count.map (fun n => decide (fieldBE 20 2 m = n))).getD true
    && decide (slice 24 (8 * q.vals.length) m = q.vals.flatMap (fun v => bytesBE 8 v.toNat))

/-- Whether a session may hand a request to the dictionary (R271): it is the oldest message that the session's packets have brought. Where
none waits, the request stands for its packet too (DESIGN CHOICE, log entry 83). -/
def Session.hands (x : Session) (id : BitVec 32) (q : Asked) : Bool := (x.inbox.head?.map (q.is id)).getD true

/-- A request of an open session, handed over by it: answered from the store, or executed, stored and answered. Its message leaves the
inbox. -/
def vdpRequest (slot : Nat) (id : BitVec 32) (q : Asked) (act : State → State × Answer) (s : State) : State :=
  match (s.session slot).filter (fun x => x.hands id q) with
  | none => s
  | some x =>
    let s1 := s.setSession slot (some { x with inbox := x.inbox.tail })
    match heldReply id x.replay s.clock with
    | some h => respond slot id h.ref .duplicate h.orig h.counter h.sub h.vals s1
    | none =>
      let r := act s1
      let s2 :=
        match r.1.session slot with
        | none => r.1
        | some y => r.1.setSession slot (some { y with replay := storeReply id r.2 r.1.clock y.replay })
      respond slot id r.2.ref r.2.st r.2.st r.2.counter r.2.sub r.2.vals s2

/-- READ. -/
def execRead (slot : Fin 64) (id : BitVec 32) (ref : W64) (count : Nat) (s : State) : Host.Outcome State Fault Refusal :=
  .next (vdpRequest slot.val id { op := opRead, ref := ref, count := some count } (readRequest (.vdp slot) ref count) s)

/-- WRITE. -/
def execWrite (slot : Fin 64) (id : BitVec 32) (ref : W64) (vals : List W64) (s : State) : Host.Outcome State Fault Refusal :=
  .next (vdpRequest slot.val id { op := opWrite, ref := ref, count := some vals.length, vals := vals } (writeRequest (.vdp slot) ref none vals) s)

/-- CAS_WRITE. -/
def execCasWrite (slot : Fin 64) (id : BitVec 32) (ref : W64) (expect : BitVec 32) (vals : List W64) (s : State) :
    Host.Outcome State Fault Refusal :=
  .next (vdpRequest slot.val id { op := opCasWrite, ref := ref, expect := some expect.toNat, count := some vals.length, vals := vals }
    (writeRequest (.vdp slot) ref (some expect) vals) s)

/-- KEEPALIVE. -/
def execKeepalive (slot : Fin 64) (id : BitVec 32) (s : State) : Host.Outcome State Fault Refusal :=
  .next (vdpRequest slot.val id { op := opKeepalive } (fun t => (t, { st := .ok })) s)

/-- A `CLOSE`: its response, then the session closes; one whose request ID is held is not executed again (R379, R383). -/
def closeRequest (slot : Nat) (id : BitVec 32) (s : State) : State :=
  let t := vdpRequest slot id { op := opClose } (fun t => (t, { st := .ok })) s
  match (s.session slot).filter (fun x => x.hands id { op := opClose }) with
  | none => t
  | some x => if (heldReply id x.replay s.clock).isSome then t else closeSession slot t

/-- CLOSE. -/
def execClose (slot : Fin 64) (id : BitVec 32) (s : State) : Host.Outcome State Fault Refusal := .next (closeRequest slot.val id s)

/-! ## Subscriptions (R381, R382) -/

/-- The subscriptions of every session. -/
def State.subCount (s : State) : Nat := (s.sessions.map (fun p => match p.2 with | none => 0 | some x => x.subs.length)).sum

/-- A `SUBSCRIBE`. -/
def subscribeRequest (slot : Fin 64) (ref : W64) (count interval : Nat) (periodic : Bool) (s : State) : State × Answer :=
  let answer := fun st => requestAnswer (.vdp slot) ref st [] s
  if !requestOk ref count then (s, answer (malformed (.vdp slot) ref count (fun o e => readCheck (.vdp slot) o e s) s))
  else
    match requestEls (.vdp slot) ref count s, s.session slot.val with
    | some (o, es), some x =>
      let c := s.counter o (es.headD 0)
      let st := worstStatus (es.map (fun e => readCheck (.vdp slot) o e s))
      if st ≠ .ok then (s, { ref := ref, st := st, counter := c })
      else if 60000 < interval || (!periodic && isSampled o (es.headD 0)) then (s, { ref := ref, st := .invalid, counter := c })
      else
        match (List.range 256).find? (fun k => !x.subs.any (fun u => decide (u.id = k))) with
        | none => (s, { ref := ref, st := .noResource, counter := c })
        | some k =>
          if 4096 ≤ s.subCount then (s, { ref := ref, st := .noResource, counter := c })
          else
            let gap := max 1 interval
            let u : Sub := { id := k, ref := (fld ref 63 48, fld ref 27 0), count := count, interval := gap, periodic := periodic,
                             dueAt := if periodic then s.clock + gap * ms else s.clock, counter := c }
            (s.setSession slot.val (some { x with subs := x.subs ++ [u] }), { ref := ref, st := .ok, counter := c, sub := k })
    | _, _ => (s, answer (absentStatus (.vdp slot) (fld ref 63 48) s))

/-- SUBSCRIBE. -/
def execSubscribe (slot : Fin 64) (id : BitVec 32) (ref : W64) (count interval : Nat) (periodic : Bool) (s : State) :
    Host.Outcome State Fault Refusal :=
  .next (vdpRequest slot.val id
    { op := opSubscribe, flags := periodic.toNat, ref := ref, expect := some interval, count := some count }
    (subscribeRequest slot ref count interval periodic) s)

/-- A subscription ends. -/
def endSub (slot k : Nat) (s : State) : State :=
  match s.session slot with
  | none => s
  | some x => s.setSession slot (some { x with subs := x.subs.filter (fun u => decide (u.id ≠ k)) })

/-- An `UNSUBSCRIBE`: the subscription ends; one that is not held is refused. -/
def unsubscribeRequest (slot k : Nat) (s : State) : State × Answer :=
  match s.session slot with
  | none => (s, { st := .denied })
  | some x =>
    let ref := BitVec.ofNat 64 k
    if x.subs.any (fun u => decide (u.id = k)) then (endSub slot k s, { ref := ref, st := .ok }) else (s, { ref := ref, st := .invalid })

/-- UNSUBSCRIBE. -/
def execUnsubscribe (slot : Fin 64) (id : BitVec 32) (sub : Nat) (s : State) : Host.Outcome State Fault Refusal :=
  .next (vdpRequest slot.val id { op := opUnsubscribe, ref := BitVec.ofNat 64 sub } (unsubscribeRequest slot.val sub) s)

/-- A subscription's interval is over: the final notice where the right to read is lost, the current values under `PERIODIC` or after
an advance of the counter, nothing otherwise. -/
def notifySub (slot : Fin 64) (u : Sub) (s : State) : State :=
  let s0 := advanceTo u.dueAt s
  let ref := refWord u.ref.1 u.ref.2
  match requestEls (.vdp slot) ref u.count s0 with
  | none => endSub slot.val u.id (sendNotify slot.val u.id ref true (objCounter (.vdp slot) u.ref.1 s0) [] s0)
  | some (o, es) =>
    let c := s0.counter o (es.headD 0)
    if (es.map (fun e => readCheck (.vdp slot) o e s0)).contains .denied then
      endSub slot.val u.id (sendNotify slot.val u.id ref true c [] s0)
    else if !u.periodic && decide (c = u.counter) then s0
    else
      let s1 := sendNotify slot.val u.id ref false c (readMany (.vdp slot) o es s0).2.2 s0
      match s1.session slot.val with
      | none => s1
      | some x =>
        s1.setSession slot.val (some { x with subs := x.subs.map (fun w =>
          if w.id = u.id then { w with dueAt := s1.clock + w.interval * ms, counter := c } else w) })

/-- NOTIFY. -/
def execNotify (slot : Fin 64) (sub : Nat) (s : State) : Host.Outcome State Fault Refusal :=
  .next (match (s.session slot.val).bind (fun x => x.subs.find? (fun u => decide (u.id = sub))) with
    | none => s
    | some u => notifySub slot u s)

/-! ## The mailbox (R417, R418) -/

/-- `MBX_RESP` takes a response: sequence, status, original status, `DONE`, counter and the values of a read; the rest is zero. -/
def writeResponse (f : Nat) (seq : BitVec 32) (st orig : Status) (counter : BitVec 32) (vals : List W64) (s : State) : State :=
  let s1 := s.setEl O.MBX_RESP (copyEl f 0) (put seq.toNat 0 ||| put st.code 32 ||| put orig.code 40 ||| put 1 63)
  let s2 := s1.setEl O.MBX_RESP (copyEl f 1) (counter.setWidth 64)
  (List.range 128).foldl (fun t i => t.setEl O.MBX_RESP (copyEl f (4 + i)) ((vals[i]?).getD 0#64)) s2

/-- The fields of `MBX_REQ` (Table 11.5). -/
def mbxSeq (s : State) (f : Nat) : BitVec 32 := (s.el O.MBX_REQ (copyEl f 0)).setWidth 32
def mbxOp (s : State) (f : Nat) : Nat := fld (s.el O.MBX_REQ (copyEl f 0)) 39 32
def mbxCount (s : State) (f : Nat) : Nat := fld (s.el O.MBX_REQ (copyEl f 0)) 47 40 + 1
def mbxRef (s : State) (f : Nat) : W64 := s.el O.MBX_REQ (copyEl f 1)
def mbxExpect (s : State) (f : Nat) : BitVec 32 := (s.el O.MBX_REQ (copyEl f 2)).setWidth 32
def mbxVals (s : State) (f : Nat) : List W64 := (List.range (mbxCount s f)).map (fun i => s.el O.MBX_REQ (copyEl f (4 + i)))

/-- The request in a function's mailbox, executed through the relay. -/
def mbxRequest (f : Fin 1024) (s : State) : State × Answer :=
  if mbxOp s f.val = opRead then readRequest (.relay f) (mbxRef s f.val) (mbxCount s f.val) s
  else writeRequest (.relay f) (mbxRef s f.val) (if mbxOp s f.val = opCasWrite then some (mbxExpect s f.val) else none)
    (mbxVals s f.val) s

/-- A write of `MBX_SUBMIT`. -/
def mbxSubmitAct (f : Fin 1024) (v : W64) (s : State) : State × Status :=
  let n := f.val
  let op := mbxOp s n
  let seq := mbxSeq s n
  if v ≠ seq.setWidth 64 || !(decide (op = opRead) || decide (op = opWrite) || decide (op = opCasWrite))
      || decide (128 < mbxCount s n) || !relayable (mbxRef s n) then (s, .invalid)
  else
    match heldReply seq (s.func n).replay s.clock with
    | some h => (writeResponse n seq .duplicate h.orig h.counter h.vals s, .ok)
    | none =>
      let r := mbxRequest f s
      let s1 := r.1.modFunc n (fun x => { x with replay := storeReply seq r.2 r.1.clock x.replay })
      (writeResponse n seq r.2.st r.2.st r.2.counter r.2.vals s1, .ok)

/-- MBX_SUBMIT. -/
def execMbxSubmit (f : Fin 1024) (v : W64) (s : State) : Host.Outcome State Fault Refusal :=
  .next (cmdWrite (.wctl f) O.MBX_SUBMIT (copyEl f.val 0) v (mbxSubmitAct f v) s)

end Sys2Proof.Machine
end

