-- ==== Sys2Proof/Machine/Rom.lean ====
section
/-! DEFINITION. What W-ROM and the functions' DVSEC hold (R384, R395, R396): constants of the module, which no command changes. -/

namespace Sys2Proof.Machine

/-- One entry of the window map (Table 11.3). -/
def windowEntry (window bar size : Nat) : List W64 := [put window 0 ||| put bar 8, BitVec.ofNat 64 size]

/-- The window map of a function (R396, Table 11.2), W-CTL, W-DBL, W-STORE, W-ROM; a virtual function has no W-ROM. -/
def windowMap (virtual : Bool) : List W64 :=
  windowEntry 1 0 (2 ^ 27) ++ windowEntry 2 2 (2 ^ 23) ++ windowEntry 3 4 (2 ^ 36)
    ++ (if virtual then [0#64, 0#64] else windowEntry 4 0xFF (2 ^ 22))

/-- Where the window map and the self-description image lie in W-ROM. -/
def windowMapAt : Nat := 0x10000
def selfDescriptionAt : Nat := 0x20000

/-- The elements of an object whose defaults differ from its entry's `DEFAULT`: reference and default. -/
def otherDefaults (o : ObjInfo) : List (W64 × W64) :=
  ((List.range o.count).filter (fun e => !decide (elemDefault (o.key e) = intW64 o.dflt))).map (fun e =>
    (o.ref e, elemDefault (o.key e)))

/-- The self-description image (R395): the entries of the catalogue, then the elements with other defaults, each as its reference and its
default (DESIGN CHOICE, log entry 154: how those are laid out is not given). -/
def selfDescription : List W64 :=
  catEntries.flatMap (fun o => (List.range 8).map (catWord o))
    ++ catalogue.flatMap (fun o => (otherDefaults o).flatMap (fun p => [p.1, p.2]))

/-- The bytes that W-ROM begins with (R395): the signature of the image header, where the PCI Data Structure lies, and what R395 gives of
that (the places PRESUMED, log entry 154). -/
def pciDataAt : Nat := 0x1C
def romHeader : List (Nat × List Byte) :=
  [(0, [0x55#8, 0xAA#8]), (0x18, bytesLE 2 pciDataAt), (pciDataAt, bytesBE 4 0x50434952), (pciDataAt + 0x04, bytesLE 2 0x1F9B),
   (pciDataAt + 0x06, bytesLE 2 0x0208), (pciDataAt + 0x0D, bytesLE 3 0x118000), (pciDataAt + 0x14, [0xF0#8]),
   (pciDataAt + 0x15, [0x80#8])]

/-- The byte at an offset that a list of 8-byte words laid out from `at_` on holds, little-endian. -/
def wordByte (at_ : Nat) (ws : List W64) (off : Nat) : Option Byte :=
  if at_ ≤ off then (ws[(off - at_) / 8]?).map (fun w => w.extractLsb' (8 * ((off - at_) % 8)) 8) else none

/-- The byte of W-ROM at an offset: header, window map, self-description image; the rest is not stated (`Config.romByte`). -/
def romByte (off : Nat) : Byte :=
  match romHeader.findSome? (fun p => if p.1 ≤ off then p.2[off - p.1]? else none) with
  | some b => b
  | none => (((wordByte selfDescriptionAt selfDescription off).or (wordByte windowMapAt (windowMap false) off))).getD (Config.romByte off)

/-- A read of W-ROM: of a physical function with its expansion ROM enabled (R392), within the window; else an Unsupported Request. -/
def romRead (f : Nat) (off : StoreOffset) (len : Nat) (s : State) : State :=
  if isPF f && (s.func f).romOn && decide (off.off + len ≤ 2 ^ 22) then
    let x := enabledBytes len off.enables ((List.range len).map (fun i => romByte (off.off + i))) s
    x.2.send (.storeData f x.1)
  else s.send (.unsupported f)

end Sys2Proof.Machine
end

