-- ==== Sys2Proof/Machine/Windows.lean ====
section
/-! DEFINITION. Accesses by place: host control windows (R5, R360-R363), the relay (R366), TIME96 reads (R354), compare-and-set (R367) and
service cores (R270); reads of W-STORE and W-ROM (R395, R398, R399); and what waits in the host port complex: its order (R401), the
allocator's rounds that release it (R296-R299), the end of a speed change (R334). -/

namespace Sys2Proof.Machine

/-- A write of an element, `MBX_SUBMIT` among them. -/
def writePlace (via : Via) (o : ObjInfo) (e : Nat) (v : W64) : State → State × Status :=
  if o.base = O.MBX_SUBMIT.base then
    (match via with
     | .wctl f => mbxSubmitAct f v
     | _ => refuse .denied)
  else writeElem via o e v

/-- A write of an element by its place; of one that is not there, what a write without the right is answered (R352). -/
def writeAt (via : Via) (obj e : Nat) (v : W64) (s : State) : State :=
  match resolveFor via obj e s with
  | none => answerWrite via (refWord obj e) (objCounter via obj s) (absentStatus via obj s) (spendCas via obj s)
  | some (o, i) => cmdWrite via o i v (writePlace via o i v) s

/-- A read of an element by its place, its value cut to some of its bytes. -/
def readPart (via : Via) (obj e : Nat) (cut : W64 → W64) (s : State) : State :=
  match resolveFor via obj e s with
  | none => answerRead via (refWord obj e) (objCounter via obj s) (absentStatus via obj s) 0#64 s
  | some (o, i) => cmdRead via o i (fun t => let r := readElem via o i t; (r.1, r.2.1, cut r.2.2)) s

/-- A read of an element by its place. -/
def readAt (via : Via) (obj e : Nat) (s : State) : State := readPart via obj e id s

/-- The status of a W-CTL write of another size than 8 aligned bytes (R360): the right comes first (R357). -/
def missizedStatus (via : Via) (obj e : Nat) (s : State) : Status :=
  match resolveFor via obj e s with
  | none => absentStatus via obj s
  | some (o, i) => match writeRight via o i s with
    | .ok => .invalid
    | st => st

/-- A write in W-CTL is performed (R5, R360, R361): 8 bytes, 8-byte aligned; any other is discarded, and spends an armed compare-and-set as
any write does (R367). -/
def ctlWriteNow (f : Fin 1024) (off : Nat) (bytes : List Byte) (s : State) : State :=
  if bytes.length ≠ 8 || decide (off % 8 ≠ 0) then
    let obj := off / 2048
    let e := off / 8 % 256
    answerWrite (.wctl f) (refWord obj e) (objCounter (.wctl f) obj s) (missizedStatus (.wctl f) obj e s) (spendCas (.wctl f) obj s)
  else writeAt (.wctl f) (off / 2048) (off / 8 % 256) (BitVec.ofNat 64 (natLE bytes)) s

/-- A write in W-CTL: a posted write of the function. -/
def wCtlWrite (f : Fin 1024) (off : Nat) (bytes : List Byte) (s : State) : State :=
  postedWrite f.val (.ctlWrite off bytes) (ctlWriteNow f off bytes) s

/-- W_CTL_WRITE. -/
def execWCtlWrite (f : Fin 1024) (off : Nat) (bytes : List Byte) (s : State) : Host.Outcome State Fault Refusal :=
  .next (wCtlWrite f off bytes s)

/-- Whether a read of W-CTL has its form: 4 or 8 bytes, naturally aligned (R360). -/
def readSizeOk (at_ len : Nat) : Bool := (decide (len = 8) && decide (at_ = 0)) || (decide (len = 4) && (decide (at_ = 0) || decide (at_ = 4)))

/-- The bytes of an element that a read of W-CTL returns. -/
def cutWord (at_ len : Nat) (v : W64) : W64 := BitVec.ofNat 64 (v.toNat / 2 ^ (8 * at_) % 2 ^ (8 * len))

/-- A read of an element is performed: in W-CTL of some of its bytes, any other than 4 or 8 aligned bytes being an Unsupported Request (R360); on the
other paths of the whole element. -/
def elementReadNow (via : Via) (obj : Nat) (p : ElemPart) (s : State) : State :=
  match via with
  | .wctl f => if readSizeOk p.first p.len then readPart via obj p.elem (cutWord p.first p.len) s else s.send (.unsupported f.val)
  | _ => readAt via obj p.elem s

/-- A read of an element: by a function a read request in its window. -/
def elementRead (via : Via) (obj : Nat) (p : ElemPart) (s : State) : State :=
  match viaFunc via with
  | none => elementReadNow via obj p s
  | some f => windowRead f (.ctlRead via obj p) (elementReadNow via obj p) s

/-- TIME96_READ. -/
def execTime96Read (via : Via) (obj : Nat) (e : ElemPart) (s : State) : Host.Outcome State Fault Refusal :=
  .next (elementRead via obj e s)

/-- CAS_EXPECT. -/
def execCasExpect (f : Fin 1024) (v : W64) (s : State) : Host.Outcome State Fault Refusal :=
  .next (cmdWrite (.wctl f) O.CAS_EXPECT (copyEl f.val 0) v (casExpectAct (copyEl f.val 0) v) s)

/-- An access to `RELAY_DATA`. -/
def relayAccess (f : Fin 1024) (op : RelayOp) (s : State) : State :=
  match op with
  | .read =>
    windowRead f.val (.ctlRead (.wctl f) O.RELAY_DATA.base { elem := 0 })
      (cmdRead (.wctl f) O.RELAY_DATA (copyEl f.val 0) (relayReadAct (.wctl f) (copyEl f.val 0))) s
  | .write v => cmdWrite (.wctl f) O.RELAY_DATA (copyEl f.val 0) v (relayWriteAct (.wctl f) (copyEl f.val 0) v) s

/-- RELAY_DATA. -/
def execRelayData (f : Fin 1024) (op : RelayOp) (s : State) : Host.Outcome State Fault Refusal := .next (relayAccess f op s)

/-- A service core's access (R270): as principal 0; one outside its map returns no data and raises `SERVICE_MAP`. -/
def serviceAccess (core : Fin 4) (inMap : Bool) (obj e : Nat) (wr : Option W64) (s : State) : State :=
  if !inMap then raiseError 0xA0 1 10 noUnit 0xFFFF 0#64 s
  else
    match wr with
    | none => readAt (.service core) obj e s
    | some v => writeAt (.service core) obj e v s

/-- SERVICE_CORE_ACCESS. -/
def execServiceCoreAccess (core : Fin 4) (inMap : Bool) (obj e : Nat) (wr : Option W64) (s : State) : Host.Outcome State Fault Refusal :=
  .next (serviceAccess core inMap obj e wr s)

/-! ## Reads of W-STORE and W-ROM -/

/-- A read of W-STORE or W-ROM is performed; an AtomicOp, an I/O or a locked request is an Unsupported Request (R399). -/
def windowReadNow (f : Nat) (off : StoreOffset) (len : Nat) (s : State) : State :=
  match off.space with
  | .store => storeReadNow f off len s
  | .rom => romRead f off len s
  | .unsupported => s.send (.unsupported f)

/-- W_STORE_READ. -/
def execWStoreRead (f : Fin 1024) (off : StoreOffset) (len : Nat) (s : State) : Host.Outcome State Fault Refusal :=
  .next (windowRead f.val (.windowRead off len) (windowReadNow f.val off len) s)

/-! ## What the host port complex holds (R298, R401) -/

/-- An access that waited behind the held writes of its function is performed. -/
def performAccess (f : Nat) (a : HostAccess) (s : State) : State :=
  match a with
  | .storeWrite off bytes => storeWriteNow f off bytes s
  | .windowRead off len => windowReadNow f off len s
  | .ctlWrite off bytes => ctlWriteNow (Fin.ofNat 1024 f) off bytes s
  | .element via obj e v =>
    match findObj obj with
    | none => s
    | some o => writeNow via o e v (writePlace via o e v) s
  | .ctlRead via obj p => elementReadNow via obj p s
  | .doorbell off acc => dblNow f off acc s

/-- An access is performed as if nothing of its function waited; what it leaves waiting stands before the rest. -/
def performFirst (f : Nat) (a : HostAccess) (s : State) : State :=
  let rest := s.held.filter (fun h => decide (h.func = f))
  let t := performAccess f a { s with held := s.held.filter (fun h => !decide (h.func = f)) }
  { t with held := t.held ++ rest }

/-- Held accesses of a function proceed, in order, as long as the packets suffice. A write whose ingot its bench no longer holds is dropped,
and counted (R400). -/
def releaseHeld (f : Nat) : Nat → Option Nat → State → Option Nat × State
  | 0, pkt, s => (pkt, s)
  | n + 1, pkt, s =>
    match s.firstHeld f with
    | none => (pkt, s)
    | some h =>
      let t := s.dropHeld h
      match h.op with
      | .read addr len errs enables =>
        if s.readWaits h.bench addr (touched len enables) then (pkt, s) else releaseHeld f n pkt (storeRead f h.bench addr len errs enables t)
      | .access a => releaseHeld f n pkt (performFirst f a t)
      | .write ingot cell pos bs fill =>
        if s.staleHeld h.bench ingot then releaseHeld f n pkt (t.inc O.STORE_WRITE_DROPPED h.bench)
        else if !t.needsPacket f ingot cell then releaseHeld f n pkt (stagePiece f h.bench ingot cell pos bs fill none t)
        else
          match pkt with
          | none => (none, s)
          | some id => releaseHeld f n none (stagePiece f h.bench ingot cell pos bs fill (some id) t)

/-- A packet granted for a function's held write is used; one that nothing needed is released. -/
def grantHeld (f id : Nat) (s : State) : State :=
  match releaseHeld f (s.held.length) (some id) s with
  | (none, t) => t
  | (some p, t) => releaseLink p t

/-- The functions of which something waits. -/
def State.heldFuncs (s : State) : List Nat := (s.held.map (fun h => h.func)).eraseDups

/-- What waits and needs no pool cells any more goes on. -/
def releaseFree (s : State) : State := s.heldFuncs.foldl (fun t f => (releaseHeld f t.held.length none t).2) s

/-- The speed change is complete, and the reads held meanwhile go on. -/
def speedChangeDone (s : State) : State :=
  if s.speedChange then releaseFree (speedDone s) else s

/-- SPEED_CHANGE_DONE. -/
def execSpeedChangeDone (s : State) : Host.Outcome State Fault Refusal := .next (speedChangeDone s)

/-- A request is granted: its packet, the rotating pointer, and what its requester does with it. -/
def grantBid (x : Bid) (s : State) : State :=
  let r := grantPacket (classPacket x.req) x.req.cls x.req.tile.val x.req.cells s
  let s1 := match x.bench with
    | none => r.2
    | some b => r.2.setRotor x.req.cls b
  match x.func, x.req.cls with
  | some f, _ => grantHeld f r.1 s1
  | none, .assay => goldAsk x.req r.1 s1
  | none, .firmware => postService x.req r.1 s1
  | none, _ => keepGrant x.req r.1 s1

/-- The requests of a round are taken in order; each is granted whole within 64 cells, or receives "no cell". -/
def roundGo : Nat → Nat → List Bid → State → State
  | 0, _, _, s => s
  | n + 1, budget, bids, s =>
    match firstBid s bids with
    | none => s
    | some x =>
      let rest := bids.erase x
      if x.req.cells ≤ budget && mayGrant x.req.cls x.bench x.req.tile.val x.req.cells s then
        roundGo n (budget - x.req.cells) rest (grantBid x s)
      else roundGo n budget rest (noteRefused x (refusedCell x.bench s))

/-- The functions whose first held access waits for pool cells, which are requested in every round (R298). -/
def heldBids (s : State) : List Bid :=
  s.heldFuncs.filterMap (fun f =>
    match s.firstHeld f with
    | some { op := .write .., bench := b, .. } =>
      some { req := { cls := .hostStaging, bench := some (Fin.ofNat 1024 b), tile := 0, cells := 4 }, func := some f }
    | _ => none)

/-- One round of the allocator; what waits without need of cells goes on before it. -/
def allocRound (reqs : List AllocReq) (s : State) : State :=
  let t := releaseFree s
  let bids := (reqs.filter rightCells).map (fun x => { req := x, func := none : Bid }) ++ heldBids t
  roundGo bids.length 64 bids t

/-- ALLOC_ROUND. -/
def execAllocRound (reqs : List AllocReq) (s : State) : Host.Outcome State Fault Refusal := .next (allocRound reqs s)

end Sys2Proof.Machine
end

