-- ==== Sys2Proof/Machine/Dispatch.lean ====
section
/-! DEFINITION. What each command does: one arm per constructor of `Instr`, one direct call of its meaning. -/

namespace Sys2Proof.Machine

/-- The effect of a command on everything but the queue. -/
def exec (i : Instr) (s : State) : Host.Outcome State Fault Refusal :=
  match i with
  | .portEnable via p v => Sys2Proof.Machine.execPortEnable via p v s
  | .clearCounters via p v => Sys2Proof.Machine.execClearCounters via p v s
  | .sendDescReq via p v => Sys2Proof.Machine.execSendDescReq via p v s
  | .realign via p v => Sys2Proof.Machine.execRealign via p v s
  | .signalDetect l => Sys2Proof.Machine.execSignalDetect l s
  | .codewordDecode l t badSyms cwSeq txState inverted => Sys2Proof.Machine.execCodewordDecode l t badSyms cwSeq txState inverted s
  | .codewordPeriodMissed l => Sys2Proof.Machine.execCodewordPeriodMissed l s
  | .dataFrame l t hdr pay => Sys2Proof.Machine.execDataFrame l t hdr pay s
  | .markerFrame l t slot hdr pay => Sys2Proof.Machine.execMarkerFrame l t slot hdr pay s
  | .groupMap l hdr pay => Sys2Proof.Machine.execGroupMap l hdr pay s
  | .descriptor l hdr pay => Sys2Proof.Machine.execDescriptor l hdr pay s
  | .timeEcho l t hdr pay => Sys2Proof.Machine.execTimeEcho l t hdr pay s
  | .quenchReport l hdr pay => Sys2Proof.Machine.execQuenchReport l hdr pay s
  | .ack l hdr pay => Sys2Proof.Machine.execAck l hdr pay s
  | .time l => Sys2Proof.Machine.execTime l s
  | .credit l => Sys2Proof.Machine.execCredit l s
  | .descReqRetry l => Sys2Proof.Machine.execDescReqRetry l s
  | .huntTimeout l => Sys2Proof.Machine.execHuntTimeout l s
  | .framedTimeout l => Sys2Proof.Machine.execFramedTimeout l s
  | .describedTimeout l => Sys2Proof.Machine.execDescribedTimeout l s
  | .faultRetry l => Sys2Proof.Machine.execFaultRetry l s
  | .absentTimeout l => Sys2Proof.Machine.execAbsentTimeout l s
  | .degradedWindow l => Sys2Proof.Machine.execDegradedWindow l s
  | .quenchReportWindowClose b => Sys2Proof.Machine.execQuenchReportWindowClose b s
  | .rowEmit design d stamp => Sys2Proof.Machine.execRowEmit design d stamp s
  | .partMissing l d stamp => Sys2Proof.Machine.execPartMissing l d stamp s
  | .stalled l => Sys2Proof.Machine.execStalled l s
  | .tileGate via tile => Sys2Proof.Machine.execTileGate via tile s
  | .tileGated tile => Sys2Proof.Machine.execTileGated tile s
  | .tileUngate via tile => Sys2Proof.Machine.execTileUngate via tile s
  | .tileOn tile => Sys2Proof.Machine.execTileOn tile s
  | .trigIoPulseEnd n => Sys2Proof.Machine.execTrigIoPulseEnd n s
  | .quenchCmd via b v => Sys2Proof.Machine.execQuenchCmd via b v s
  | .resumeCmd via b v => Sys2Proof.Machine.execResumeCmd via b v s
  | .commit via b => Sys2Proof.Machine.execCommit via b s
  | .commitCancel via b => Sys2Proof.Machine.execCommitCancel via b s
  | .commitBroadcast b => Sys2Proof.Machine.execCommitBroadcast b s
  | .armAt via b v => Sys2Proof.Machine.execArmAt via b v s
  | .disarmAt via b v => Sys2Proof.Machine.execDisarmAt via b v s
  | .scheduledArm b => Sys2Proof.Machine.execScheduledArm b s
  | .scheduledDisarm b => Sys2Proof.Machine.execScheduledDisarm b s
  | .planisherRow b => Sys2Proof.Machine.execPlanisherRow b s
  | .benchFault b cause => Sys2Proof.Machine.execBenchFault b cause s
  | .quiesceDisarmTimeout b => Sys2Proof.Machine.execQuiesceDisarmTimeout b s
  | .goldIngots via b v => Sys2Proof.Machine.execGoldIngots via b v s
  | .goldSeal via a v => Sys2Proof.Machine.execGoldSeal via a v s
  | .goldSealDone a => Sys2Proof.Machine.execGoldSealDone a s
  | .assayCompare a inHand => Sys2Proof.Machine.execAssayCompare a inHand s
  | .arm via b => Sys2Proof.Machine.execArm via b s
  | .disarm via b => Sys2Proof.Machine.execDisarm via b s
  | .clearFault via b => Sys2Proof.Machine.execClearFault via b s
  | .reset via b => Sys2Proof.Machine.execReset via b s
  | .benchResetDone b => Sys2Proof.Machine.execBenchResetDone b s
  | .lockAcquire via k v => Sys2Proof.Machine.execLockAcquire via k v s
  | .lockRelease via k v => Sys2Proof.Machine.execLockRelease via k v s
  | .lockRenew via k v => Sys2Proof.Machine.execLockRenew via k v s
  | .lockBreak via k v => Sys2Proof.Machine.execLockBreak via k v s
  | .lockLeaseExpiry k => Sys2Proof.Machine.execLockLeaseExpiry k s
  | .propSubmit via v => Sys2Proof.Machine.execPropSubmit via v s
  | .propCountersign via v => Sys2Proof.Machine.execPropCountersign via v s
  | .propCancel via v => Sys2Proof.Machine.execPropCancel via v s
  | .proposalApply => Sys2Proof.Machine.execProposalApply s
  | .ingotScrub b ingot => Sys2Proof.Machine.execIngotScrub b ingot s
  | .ownershipRequest core line => Sys2Proof.Machine.execOwnershipRequest core line s
  | .writeBack core line => Sys2Proof.Machine.execWriteBack core line s
  | .qClaim via b v => Sys2Proof.Machine.execQClaim via b v s
  | .qRelease via b v => Sys2Proof.Machine.execQRelease via b v s
  | .qFlush via q v => Sys2Proof.Machine.execQFlush via q v s
  | .qPop via q => Sys2Proof.Machine.execQPop via q s
  | .qReset via q v => Sys2Proof.Machine.execQReset via q v s
  | .queuePointer target => Sys2Proof.Machine.execQueuePointer target s
  | .queueResetSweepDone q => Sys2Proof.Machine.execQueueResetSweepDone q s
  | .freeList => Sys2Proof.Machine.execFreeList s
  | .poolUe bank => Sys2Proof.Machine.execPoolUe bank s
  | .allocRound reqs => Sys2Proof.Machine.execAllocRound reqs s
  | .quiesceDrainTimeout => Sys2Proof.Machine.execQuiesceDrainTimeout s
  | .storeCellAccess chan burstErrs => Sys2Proof.Machine.execStoreCellAccess chan burstErrs s
  | .refresh chan rank bank => Sys2Proof.Machine.execRefresh chan rank bank s
  | .selfRefreshEntry rank => Sys2Proof.Machine.execSelfRefreshEntry rank s
  | .storeSpeed via v => Sys2Proof.Machine.execStoreSpeed via v s
  | .speedChangeDone => Sys2Proof.Machine.execSpeedChangeDone s
  | .delayLoad via v => Sys2Proof.Machine.execDelayLoad via v s
  | .tempBandChange stack milliC => Sys2Proof.Machine.execTempBandChange stack milliC s
  | .rankRetire via v => Sys2Proof.Machine.execRankRetire via v s
  | .migrationChunk targetError => Sys2Proof.Machine.execMigrationChunk targetError s
  | .poisonListClear via v => Sys2Proof.Machine.execPoisonListClear via v s
  | .stagingCellTimeout f => Sys2Proof.Machine.execStagingCellTimeout f s
  | .wStoreWrite f off bytes => Sys2Proof.Machine.execWStoreWrite f off bytes s
  | .wStoreRead f off len => Sys2Proof.Machine.execWStoreRead f off len s
  | .wCtlWrite f off bytes => Sys2Proof.Machine.execWCtlWrite f off bytes s
  | .time96Read via obj e => Sys2Proof.Machine.execTime96Read via obj e s
  | .casExpect f v => Sys2Proof.Machine.execCasExpect f v s
  | .relayData f op => Sys2Proof.Machine.execRelayData f op s
  | .netApply via m v => Sys2Proof.Machine.execNetApply via m v s
  | .ethernetFrame m len frame => Sys2Proof.Machine.execEthernetFrame m len frame s
  | .hello m addr pkt => Sys2Proof.Machine.execHello m addr pkt s
  | .data m pkt => Sys2Proof.Machine.execData m pkt s
  | .read slot reqId ref count => Sys2Proof.Machine.execRead slot reqId ref count s
  | .write slot reqId ref vals => Sys2Proof.Machine.execWrite slot reqId ref vals s
  | .casWrite slot reqId ref expect vals => Sys2Proof.Machine.execCasWrite slot reqId ref expect vals s
  | .subscribe slot reqId ref count interval periodic => Sys2Proof.Machine.execSubscribe slot reqId ref count interval periodic s
  | .unsubscribe slot reqId sub => Sys2Proof.Machine.execUnsubscribe slot reqId sub s
  | .keepalive slot reqId => Sys2Proof.Machine.execKeepalive slot reqId s
  | .close slot reqId => Sys2Proof.Machine.execClose slot reqId s
  | .notify slot sub => Sys2Proof.Machine.execNotify slot sub s
  | .sessionIdleTimeout slot => Sys2Proof.Machine.execSessionIdleTimeout slot s
  | .sessionClose via v => Sys2Proof.Machine.execSessionClose via v s
  | .configurationRequest f reg wr => Sys2Proof.Machine.execConfigurationRequest f reg wr s
  | .functionLevelReset f => Sys2Proof.Machine.execFunctionLevelReset f s
  | .hostPortReset h kind => Sys2Proof.Machine.execHostPortReset h kind s
  | .vfEnableClear h => Sys2Proof.Machine.execVfEnableClear h s
  | .busMasterEnableClear f d3hot => Sys2Proof.Machine.execBusMasterEnableClear f d3hot s
  | .busMasterEnableSet f => Sys2Proof.Machine.execBusMasterEnableSet f s
  | .qHost via q v => Sys2Proof.Machine.execQHost via q v s
  | .dbCons f off bytes => Sys2Proof.Machine.execDbCons f off bytes s
  | .drainTransfer h => Sys2Proof.Machine.execDrainTransfer h s
  | .msixMessage f vec => Sys2Proof.Machine.execMsixMessage f vec s
  | .readoutStart via q => Sys2Proof.Machine.execReadoutStart via q s
  | .readoutStop via q => Sys2Proof.Machine.execReadoutStop via q s
  | .readoutCell q => Sys2Proof.Machine.execReadoutCell q s
  | .fillStart f => Sys2Proof.Machine.execFillStart f s
  | .fillAbort f => Sys2Proof.Machine.execFillAbort f s
  | .fillReadCompletion f ok bytes => Sys2Proof.Machine.execFillReadCompletion f ok bytes s
  | .mbxSubmit f v => Sys2Proof.Machine.execMbxSubmit f v s
  | .timeSet via e v => Sys2Proof.Machine.execTimeSet via e v s
  | .calUtc via v => Sys2Proof.Machine.execCalUtc via v s
  | .refMeasurement r ppb => Sys2Proof.Machine.execRefMeasurement r ppb s
  | .ref10InLoss => Sys2Proof.Machine.execRef10InLoss s
  | .ppsInEdge cycles offNs => Sys2Proof.Machine.execPpsInEdge cycles offNs s
  | .ppsInTimeout => Sys2Proof.Machine.execPpsInTimeout s
  | .announceReceiptTimeout => Sys2Proof.Machine.execAnnounceReceiptTimeout s
  | .selectedReferenceLost => Sys2Proof.Machine.execSelectedReferenceLost s
  | .lockDelayExpiry offset => Sys2Proof.Machine.execLockDelayExpiry offset s
  | .switchComplete offset => Sys2Proof.Machine.execSwitchComplete offset s
  | .lockLoss => Sys2Proof.Machine.execLockLoss s
  | .planSelect via v => Sys2Proof.Machine.execPlanSelect via v s
  | .planHopDone band => Sys2Proof.Machine.execPlanHopDone band s
  | .planAt via v => Sys2Proof.Machine.execPlanAt via v s
  | .scheduledPlanHop => Sys2Proof.Machine.execScheduledPlanHop s
  | .outApply via v => Sys2Proof.Machine.execOutApply via v s
  | .syncInEdge => Sys2Proof.Machine.execSyncInEdge s
  | .ppsOut => Sys2Proof.Machine.execPpsOut s
  | .trigIoCfg via n v => Sys2Proof.Machine.execTrigIoCfg via n v s
  | .trigIoInputEdge n t => Sys2Proof.Machine.execTrigIoInputEdge n t s
  | .edgeAt via n v => Sys2Proof.Machine.execEdgeAt via n v s
  | .scheduledEdge n => Sys2Proof.Machine.execScheduledEdge n s
  | .ptpMessageReceived m msg => Sys2Proof.Machine.execPtpMessageReceived m msg s
  | .ptpMessageSent m kind => Sys2Proof.Machine.execPtpMessageSent m kind s
  | .leapSecond => Sys2Proof.Machine.execLeapSecond s
  | .aux1Push via v => Sys2Proof.Machine.execAux1Push via v s
  | .aux1Flush via v => Sys2Proof.Machine.execAux1Flush via v s
  | .inputInRange milliV => Sys2Proof.Machine.execInputInRange milliV s
  | .powerLoss => Sys2Proof.Machine.execPowerLoss s
  | .fwAuth ok0 ok1 => Sys2Proof.Machine.execFwAuth ok0 ok1 s
  | .bringupComplete => Sys2Proof.Machine.execBringupComplete s
  | .idleEntry => Sys2Proof.Machine.execIdleEntry s
  | .endExclusive via => Sys2Proof.Machine.execEndExclusive via s
  | .exclusive via b => Sys2Proof.Machine.execExclusive via b s
  | .quiesceIdle via => Sys2Proof.Machine.execQuiesceIdle via s
  | .quiesceOff via => Sys2Proof.Machine.execQuiesceOff via s
  | .factory via => Sys2Proof.Machine.execFactory via s
  | .quiesceComplete => Sys2Proof.Machine.execQuiesceComplete s
  | .warmReset via v => Sys2Proof.Machine.execWarmReset via v s
  | .sensorRead milliC milliV milliW => Sys2Proof.Machine.execSensorRead milliC milliV milliW s
  | .inputRange milliV => Sys2Proof.Machine.execInputRange milliV s
  | .railFault rail => Sys2Proof.Machine.execRailFault rail s
  | .errAck via src v => Sys2Proof.Machine.execErrAck via src v s
  | .tileUe tile solder => Sys2Proof.Machine.execTileUe tile solder s
  | .tileReset via tile v => Sys2Proof.Machine.execTileReset via tile v s
  | .tileTestDone tile pass => Sys2Proof.Machine.execTileTestDone tile pass s
  | .serviceWatchdog => Sys2Proof.Machine.execServiceWatchdog s
  | .serviceRestartDone => Sys2Proof.Machine.execServiceRestartDone s
  | .journalEntrySealed => Sys2Proof.Machine.execJournalEntrySealed s
  | .fwBegin via v => Sys2Proof.Machine.execFwBegin via v s
  | .fwPage via v => Sys2Proof.Machine.execFwPage via v s
  | .fwPageProgrammed => Sys2Proof.Machine.execFwPageProgrammed s
  | .fwFinish via v => Sys2Proof.Machine.execFwFinish via v s
  | .testSlot kind unit pass => Sys2Proof.Machine.execTestSlot kind unit pass s
  | .ref10InReturn => Sys2Proof.Machine.execRef10InReturn s
  | .ppsOutWidthEnd => Sys2Proof.Machine.execPpsOutWidthEnd s
  | .aux1Sample => Sys2Proof.Machine.execAux1Sample s
  | .hostLinkUp h flit rate width => Sys2Proof.Machine.execHostLinkUp h flit rate width s
  | .netLinkDown m => Sys2Proof.Machine.execNetLinkDown m s
  | .netLinkUp m => Sys2Proof.Machine.execNetLinkUp m s
  | .holdoverClassChange => Sys2Proof.Machine.execHoldoverClassChange s
  | .flashProgramComplete => Sys2Proof.Machine.execFlashProgramComplete s
  | .fwVerifyDone ok => Sys2Proof.Machine.execFwVerifyDone ok s
  | .serviceCoreAccess core inMap obj e wr => Sys2Proof.Machine.execServiceCoreAccess core inMap obj e wr s
  | .lineMemoryDone line => Sys2Proof.Machine.execLineMemoryDone line s

end Sys2Proof.Machine
end

