-- ==== Sys2Proof/Safety.lean ====
section
/-! DEFINITION. The terms claims are stated in: a safe step, runs, which commands store to trace ingots, which commands are one
write or one read of a dictionary element, and what such an access leaves once its checks pass or one of them refuses it. -/

namespace Sys2Proof.Machine

/-! ## Steps and runs -/

/-- A step that answers a next state: the module never stops, so every step is to be safe. -/
def Completes (s : State) : Prop := ∃ t, step s = .next t

/-- `n` steps; the first fault or refusal ends a run. -/
def run : Nat → State → Host.Outcome State Fault Refusal
  | 0, s => .next s
  | n + 1, s =>
    match step s with
    | .next t => run n t
    | r => r

/-! ## Frames -/

/-- Everything of a state but the dictionary's elements, their change counters, and what has been sent. -/
def State.inner (s : State) : State := { s with elems := [], cc := [], out := [] }

/-- Every element but those listed reads the same in two states. -/
def sameElems (but : List (ObjInfo × Nat)) (s t : State) : Prop :=
  ∀ (o : ObjInfo) (e : Nat), (∀ p ∈ but, o.key e ≠ p.1.key p.2) → t.el o e = s.el o e

/-- The commands whose effect may store to the trace ingots: the pin slot of a pseudo-channel, the copy of a chunk, scrubs of
golden ingots and of freed ingots, the test of an ingot, whatever performs waiting writes (a seal, reads of the store by a host or a readout, an allocator round or
the end of a speed change that serves a held access, the end of `QUIESCE`, a warm reset), power loss, and the writes that reach any object by its
number. -/
def storesToIngots : Instr → Bool
  | .storeCellAccess .. | .migrationChunk .. | .speedChangeDone .. | .goldIngots .. | .testSlot ..
  | .goldSealDone .. | .wStoreRead .. | .allocRound .. | .ingotScrub .. | .readoutCell ..
  | .powerLoss | .quiesceComplete | .warmReset .. | .write .. | .casWrite .. | .mbxSubmit .. | .wCtlWrite .. | .relayData ..
  | .serviceCoreAccess .. => true
  | _ => false

/-! ## Lost functions -/

/-- What is left of a function that is lost (R262, R365, R416): the locks it held are free with `BROKEN`, `ENABLE` of the queues that name
it is clear and no transfer of theirs goes on, its copy of the caller-local objects is at its defaults. -/
def FuncGone (f : Nat) (s u : State) : Prop :=
  (∀ k, k < 256 → s.lockHeld k = true → s.lockOwner k = (0, f) → u.lockHeld k = false ∧ bit (u.el O.LOCK_STATE k) 1 = true) ∧
  (∀ q ∈ s.queuesOfFunc f, qhEnable (u.el O.Q_HOST q) = false ∧ qhFunc (u.el O.Q_HOST q) = f ∧ (u.queue q).inTransfer = false) ∧
  (∀ o ∈ localObjects, ∀ e, e < 1024 → u.el o (copyEl f e) = elemDefault (o.key (copyEl f e)))

/-! ## Dictionary accesses -/

/-- The state in which the rules of a written object apply: the caller's armed compare-and-set is spent (R367). -/
def asked (via : Via) (o : ObjInfo) (s : State) : State := (takeCas via o s).2

/-- Every check of R357 lets a write through, which is performed at once (R399, R401). -/
def Passes (via : Via) (o : ObjInfo) (e : Nat) (v : W64) (s : State) : Prop :=
  viaOpen via s = true ∧ writeCheck via (takeCas via o s).1 o e v (asked via o s) = .ok

/-- After an access with `OK`, the reference of a relay advances (R366). -/
def relayNext (via : Via) (t : State) : State :=
  match via with
  | .relay f => relayAdvance f.val t
  | _ => t

/-- What follows an accepted write, its effect in `t`: the object's change counter advances by 1 (R358), the reference of a relay
advances (R366), and the status `OK` reaches the caller (R361). -/
def accepted (via : Via) (o : ObjInfo) (e : Nat) (t : State) : State :=
  recordWrite via o e .ok (relaySpends via o (relayNext via (t.bump o e)))

/-- What follows a refused write: the status reaches the caller, and nothing but the armed compare-and-set changes. -/
def refusedWith (via : Via) (o : ObjInfo) (e : Nat) (st : Status) (s : State) : State := recordWrite via o e st (relaySpends via o (asked via o s))

/-- Every check of R357 lets a read through, which is performed at once (R399, R401). -/
def Serves (via : Via) (o : ObjInfo) (e : Nat) (s : State) : Prop := viaOpen via s = true ∧ readCheck via o e s = .ok

/-- What follows a read that is answered with a value, its effect in `t`: the reference of a relay advances (R366), and the value
reaches the caller (R363). -/
def answered (via : Via) (o : ObjInfo) (e : Nat) (v : W64) (t : State) : State := recordRead via o e .ok v (relayNext via t)

/-- A request of a session is new: the session is open and holds no answer under its request ID (R378). -/
def newRequest (slot : Nat) (id : BitVec 32) (x : Session) (s : State) : Prop :=
  s.session slot = some x ∧ heldReply id x.replay s.clock = none

/-- The commands that are a write of one named element of the dictionary, with the value they write. -/
def asWrite : Instr → Option (Via × ObjInfo × Nat × W64)
  | .portEnable via p v => some (via, O.PORT_ENABLE, p, v)
  | .clearCounters via p v => some (via, O.CLEAR_COUNTERS, p, v)
  | .sendDescReq via p v => some (via, O.SEND_DESC_REQ, p, v)
  | .realign via p v => some (via, O.REALIGN, p, v)
  | .tileGate via k => some (via, O.TILE_POWER, k, 1#64)
  | .tileUngate via k => some (via, O.TILE_POWER, k, 0#64)
  | .quenchCmd via b v => some (via, O.QUENCH_CMD, b, v)
  | .resumeCmd via b v => some (via, O.RESUME_CMD, b, v)
  | .commit via b => some (via, O.COMMIT, b, 1#64)
  | .commitCancel via b => some (via, O.COMMIT, b, 2#64)
  | .armAt via b v => some (via, O.ARM_AT, b, v)
  | .disarmAt via b v => some (via, O.DISARM_AT, b, v)
  | .goldIngots via b v => some (via, O.GOLD_INGOTS, b, v)
  | .goldSeal via a v => some (via, O.GOLD_SEAL, a, v)
  | .arm via b => some (via, O.BENCH_CMD, b, 1#64)
  | .disarm via b => some (via, O.BENCH_CMD, b, 2#64)
  | .clearFault via b => some (via, O.BENCH_CMD, b, 3#64)
  | .reset via b => some (via, O.BENCH_CMD, b, 4#64)
  | .lockAcquire via k v => some (via, O.LOCK_ACQUIRE, k, v)
  | .lockRelease via k v => some (via, O.LOCK_RELEASE, k, v)
  | .lockRenew via k v => some (via, O.LOCK_RENEW, k, v)
  | .lockBreak via k v => some (via, O.LOCK_BREAK, k, v)
  | .propSubmit via v => some (via, O.PROP_SUBMIT, 0, v)
  | .propCountersign via v => some (via, O.PROP_COUNTERSIGN, 0, v)
  | .propCancel via v => some (via, O.PROP_CANCEL, 0, v)
  | .qClaim via b v => some (via, O.Q_CLAIM, b, v)
  | .qRelease via b v => some (via, O.Q_RELEASE, b, v)
  | .qFlush via q v => some (via, O.Q_FLUSH, q, v)
  | .qReset via q v => some (via, O.Q_RESET, q, v)
  | .storeSpeed via v => some (via, O.STORE_SPEED, 0, v)
  | .delayLoad via v => some (via, O.DELAY_LOAD, 0, v)
  | .rankRetire via v => some (via, O.RANK_RETIRE, 0, v)
  | .poisonListClear via v => some (via, O.POISON_LIST_CLEAR, 0, v)
  | .casExpect f v => some (.wctl f, O.CAS_EXPECT, copyEl f.val 0, v)
  | .netApply via m v => some (via, O.NET_APPLY, m, v)
  | .sessionClose via v => some (via, O.SESSION_CLOSE, 0, v)
  | .qHost via q v => some (via, O.Q_HOST, q, v)
  | .readoutStart via q => some (via, O.READOUT_CMD, q, 1#64)
  | .readoutStop via q => some (via, O.READOUT_CMD, q, 2#64)
  | .fillStart f => some (.wctl f, O.FILL_CMD, copyEl f.val 0, 1#64)
  | .fillAbort f => some (.wctl f, O.FILL_CMD, copyEl f.val 0, 2#64)
  | .mbxSubmit f v => some (.wctl f, O.MBX_SUBMIT, copyEl f.val 0, v)
  | .timeSet via e v => some (via, O.TIME_SET, e, v)
  | .calUtc via v => some (via, O.CAL_UTC, 0, v)
  | .planSelect via v => some (via, O.PLAN_SELECT, 0, v)
  | .planAt via v => some (via, O.PLAN_AT, 0, v)
  | .outApply via v => some (via, O.OUT_APPLY, 0, v)
  | .trigIoCfg via n v => some (via, O.TRIG_IO_CFG, n, v)
  | .edgeAt via n v => some (via, O.EDGE_AT, n, v)
  | .aux1Push via v => some (via, O.AUX1_PUSH, 0, v)
  | .aux1Flush via v => some (via, O.AUX1_FLUSH, 0, v)
  | .endExclusive via => some (via, O.MODE_CMD, 0, 1#64)
  | .exclusive via b => some (via, O.MODE_CMD, 0, put 2 0 ||| put b.val 16)
  | .quiesceIdle via => some (via, O.MODE_CMD, 0, 3#64)
  | .quiesceOff via => some (via, O.MODE_CMD, 0, 4#64)
  | .factory via => some (via, O.MODE_CMD, 0, 5#64)
  | .warmReset via v => some (via, O.WARM_RESET, 0, v)
  | .errAck via k v => some (via, O.ERR_ACK, k, v)
  | .tileReset via k v => some (via, O.TILE_RESET, k, v)
  | .fwBegin via v => some (via, O.FW_BEGIN, 0, v)
  | .fwPage via v => some (via, O.FW_PAGE, 0, v)
  | .fwFinish via v => some (via, O.FW_FINISH, 0, v)
  | _ => none

end Sys2Proof.Machine
end

