-- ==== Sys2Proof/Certificates/Slice0/Obligations.lean ====
section
/-! DEFINITION. The statements for the provers. Each is about every state that meets its hypotheses; the commands it names answer
a next state there. Rules are those of spec/; where a statement rests on a choice of the model, its docstring names the entry of the
assumption log. -/

open Sys2Proof Sys2Proof.Machine

/-! ## The probe link -/

/-- PORT_ENABLE (R39, Table 1.9): set, on a port that no armed bench uses, it takes the port's eight `OFF` lanes to `HUNT`; cleared,
it takes every lane of the port, none of them `UP`, to `OFF` with its descriptor and its map forgotten. Refused with `BUSY` while an
armed bench uses the port (R257). -/
def Obligations.PortEnableMovesLanes : Prop :=
  ∀ (via : Via) (p : Nat) (v : W64) (s : State), p < 32 → Passes via O.PORT_ENABLE p v s →
    (v = 1#64 → (asked via O.PORT_ENABLE s).portArmed p = false →
      (∀ l ∈ portLanes p, (asked via O.PORT_ENABLE s).laneState l = .off) →
      ∃ x, exec (.portEnable via p v) s = .next (accepted via O.PORT_ENABLE p x) ∧ x.el O.PORT_ENABLE p = 1#64 ∧
        (∀ l ∈ portLanes p, x.laneState l = .hunt) ∧
        (∀ l, l < 256 → l ∉ portLanes p → x.laneState l = (asked via O.PORT_ENABLE s).laneState l ∧
          x.lane l = (asked via O.PORT_ENABLE s).lane l) ∧
        x.mem = s.mem ∧ x.out = (asked via O.PORT_ENABLE s).out) ∧
    (v = 0#64 → (asked via O.PORT_ENABLE s).portArmed p = false →
      (∀ l ∈ portLanes p, (asked via O.PORT_ENABLE s).isUp l = false) →
      ∃ x, exec (.portEnable via p v) s = .next (accepted via O.PORT_ENABLE p x) ∧ x.el O.PORT_ENABLE p = 0#64 ∧
        (∀ l ∈ portLanes p, x.laneState l = .off ∧ (x.lane l).desc = none ∧ (x.lane l).map = []) ∧ x.mem = s.mem) ∧
    ((asked via O.PORT_ENABLE s).portArmed p = true →
      exec (.portEnable via p v) s = .next (refusedWith via O.PORT_ENABLE p .busy s))

/-- CLEAR_COUNTERS (R42, R82), SEND_DESC_REQ (R24) and REALIGN (R57) on a port: the lane counters read 0, and nothing but elements,
their counters and the start of a wait for credit has changed; every lane in `UP` of an enabled port has been sent `DESC_REQ` with
`RESTART` 0; every lane in `UP` is back in calibration, where none was `ALIGNED`, and an armed bench on the port refuses that with
`BUSY`. (That the windows of 1 s and 1 ms go on over the clear, and that a wait for credit counts from it, is the model's choice: log
entry 130.) -/
def Obligations.PortRequestsReachEveryLane : Prop :=
  ∀ (via : Via) (p : Nat) (v : W64) (s : State), p < 32 →
    (Passes via O.CLEAR_COUNTERS p v s →
      ∃ x, exec (.clearCounters via p v) s = .next (accepted via O.CLEAR_COUNTERS p x) ∧
        (∀ l ∈ portLanes p, ∀ o ∈ [O.FEC_CORR_SYM, O.FEC_UNCORR_CW, O.FRAME_ERR, O.STAMP_ERR, O.CREDIT_OVERRUN, O.CREDIT_WAIT_NS,
          O.MISSING_PARTS], x.el o l = 0#64) ∧
        { x.inner with lanes := [] } = { (asked via O.CLEAR_COUNTERS s).inner with lanes := [] } ∧
        (∀ l, ({ x.lane l with waitFrom := none } : Lane) = { s.lane l with waitFrom := none }) ∧ x.out = (asked via O.CLEAR_COUNTERS s).out) ∧
    (Passes via O.SEND_DESC_REQ p v s → (asked via O.SEND_DESC_REQ s).elB O.PORT_ENABLE p = true →
      ∃ x, exec (.sendDescReq via p v) s = .next (accepted via O.SEND_DESC_REQ p x) ∧
        x.out = (asked via O.SEND_DESC_REQ s).out ++
          ((portLanes p).filter (fun l => (asked via O.SEND_DESC_REQ s).isUp l)).map (fun l => Out.lane l (.descReq false)) ∧
        x.elems = (asked via O.SEND_DESC_REQ s).elems) ∧
    (Passes via O.REALIGN p v s → (asked via O.REALIGN s).portArmed p = false →
      (∀ l ∈ portLanes p, (asked via O.REALIGN s).isAligned l = false) →
      ∃ x, exec (.realign via p v) s = .next (accepted via O.REALIGN p x) ∧
        (∀ l ∈ portLanes p, (asked via O.REALIGN s).isUp l = true → x.alignState l = .calibrating ∧ (x.lane l).calib = []) ∧
        (∀ l, l < 256 → (asked via O.REALIGN s).isUp l = false → x.alignState l = (asked via O.REALIGN s).alignState l)) ∧
    (Passes via O.REALIGN p v s → (asked via O.REALIGN s).portArmed p = true →
      exec (.realign via p v) s = .next (refusedWith via O.REALIGN p .busy s))

/-- The limits of the lane states (R39, Table 1.9): a lane that stays in `HUNT` for 20 ms after a signal faults with `CW_LOCK`, where
one that has seen no signal stays, one in `FRAMED` for 5 ms and one in `DESCRIBED` for 1 ms with `PROTOCOL`, each with a `LANE_FAULT` warning (Table 13.7); one in `FAULT`
for 10 ms is in `HUNT` again with its held stamps cleared; one with no signal for 100 ms after `HUNT` began is `ABSENT`; a signal on
an `ABSENT` lane takes it to `HUNT`. -/
def Obligations.LaneLimitsChangeTheState : Prop :=
  ∀ (l : Fin 256) (s : State),
    (s.laneState l = .hunt → (s.lane l).signal = false → exec (.huntTimeout l) s = .next s) ∧
    (s.laneState l = .hunt → (s.lane l).signal = true → ∃ b, exec (.huntTimeout l) s = .next (raiseError 0x02 1 0 l b 0#64
      (((advanceTo ((s.lane l).signalAt + 20 * ms) s).setLaneState l .fault).setN O.FAULT_CAUSE l LaneCause.cwLock.num))) ∧
    (s.laneState l = .framed → ∃ b, exec (.framedTimeout l) s = .next (raiseError 0x02 1 0 l b 0#64
      (((advanceTo ((s.lane l).since + 5 * ms) s).setLaneState l .fault).setN O.FAULT_CAUSE l LaneCause.protocol.num))) ∧
    (s.laneState l = .described → ∃ b, exec (.describedTimeout l) s = .next (raiseError 0x02 1 0 l b 0#64
      (((advanceTo ((s.lane l).since + 1 * ms) s).setLaneState l .fault).setN O.FAULT_CAUSE l LaneCause.protocol.num))) ∧
    (s.laneState l = .fault → s.mode.safe = false →
      ∃ t, exec (.faultRetry l) s = .next t ∧ t.laneState l = .hunt ∧ (t.lane l).held = [] ∧
        t.clock = max s.clock ((s.lane l).since + 10 * ms) ∧ sameElems [(O.LANE_STATE, l.val)] s t) ∧
    (s.laneState l = .hunt → (s.lane l).signal = false →
      exec (.absentTimeout l) s = .next ((advanceTo ((s.lane l).since + 100 * ms) s).setLaneState l .absent)) ∧
    (s.laneState l = .absent → s.mode.safe = false →
      ∃ t, exec (.signalDetect l) s = .next t ∧ t.laneState l = .hunt ∧ (t.lane l).signal = true ∧ (t.lane l).held = [] ∧
        sameElems [(O.LANE_STATE, l.val)] s t)

/-- CODEWORD_DECODE and CODEWORD_PERIOD_MISSED (Table 1.9, Table 1.10): the eighth good codeword in a row of a hunting lane gives
codeword lock, and the lane, in `FRAMED`, sends `DESC_REQ` with `RESTART` 1 (R24); a good codeword of a lane in `UP` moves the
watermark to its time; a codeword period with none counts one uncorrectable codeword and, below the limits, leaves the lane `UP`. A
data frame in any state other than `UP` is discarded and counted in `FRAME_ERR` (R41). -/
def Obligations.CodewordsGiveLockAndCount : Prop :=
  (∀ (l : Fin 256) (t badSyms : Nat) (q : BitVec 10) (tx : BitVec 2) (inv : Bool) (s : State),
    s.mode.safe = false →
    (s.laneState l = .hunt → decodes s l badSyms = true → polarityOk s l inv = true →
      (s.lane l).lastSeq.map (fun c => c + 1#10) = some q → (s.lane l).inverted = inv → 7 ≤ (s.lane l).good →
      s.elB O.PORT_ENABLE (l.val / 8) = true →
      ∃ u, exec (.codewordDecode l t badSyms q tx inv) s = .next u ∧ u.laneState l = .framed ∧ (u.lane l).lastSeq = some q ∧
        u.out = s.out ++ [.lane l (.descReq true)] ∧ sameElems [(O.LANE_STATE, l.val)] s u) ∧
    (s.laneState l = .up → s.alignState l ≠ .stalled → badSyms = 0 → (s.lane l).inverted = inv →
      (s.lane l).lastSeq.map (fun c => c + 1#10) = some q →
      ∃ u, exec (.codewordDecode l t badSyms q tx inv) s = .next u ∧ (u.lane l).lastCw = (t : Int) ∧ (u.lane l).lastSeq = some q ∧
        (u.lane l).badRun = 0 ∧ u.elems = s.elems ∧ u.out = s.out)) ∧
  (∀ (l : Fin 256) (s : State), s.mode.safe = false → s.laneState l = .up → (s.lane l).badRun < 3 →
    (recent s.clock (s.lane l).uncorrTimes).length ≤ s.elN O.UNCORR_LIMIT (l.val / 8) →
    ∃ u, exec (.codewordPeriodMissed l) s = .next u ∧ u.el O.FEC_UNCORR_CW l = satAdd (s.el O.FEC_UNCORR_CW l) 1 ∧
      (u.lane l).badRun = (s.lane l).badRun + 1 ∧ u.out = s.out ∧ sameElems [(O.FEC_UNCORR_CW, l.val)] s u) ∧
  (∀ (l : Fin 256) (t : Nat) (hdr : W40) (pay : List W40) (s : State), s.mode.safe = false → s.isUp l = false →
    exec (.dataFrame l t hdr pay) s = .next ((advanceMod t s).inc O.FRAME_ERR l))

/-- DATA_FRAME and MARKER_FRAME (R16, R17, R26, R41, R56): a data frame on a lane that is not `UP` is one frame error;
within the credit of a lane in `UP` that is not yet `ALIGNED` it counts as received and its extended stamp becomes the held stamp
of its clock; beyond the credit it is one overrun and faults the lane. A marker before `UP` sets the held stamps; the first good
marker of an admitted lane takes it to `ALIGNED` from the marker's core time on. (That the credit is judged on the limit as raised, which
may stand above the last one sent, is the model's choice: log entry 162.) -/
def Obligations.DataAndMarkerFramesSetHeldStamps : Prop :=
  (∀ (l : Fin 256) (t : Nat) (hdr : W40) (pay : List W40) (s : State), s.mode.safe = false →
    (s.isUp l = false → exec (.dataFrame l t hdr pay) s = .next ((advanceMod t s).inc O.FRAME_ERR l)) ∧
    (s.laneState l = .up → s.alignState l = .calibrating → hdrKind hdr = 0 → (s.lane l).frames < (s.lane l).creditLimit →
      (s.lane l).pendDesc = none → hdrCount hdr ≠ 0 → (s.lane l).held.any (fun p => decide (p.1 = hdrDclk hdr)) = true →
      (s.lane l).map.hasClock (hdrDclk hdr) = true → hdrOffset hdr < ((s.lane l).map.groupsOf (hdrDclk hdr)).length →
      ∃ u, exec (.dataFrame l t hdr pay) s = .next u ∧ (u.lane l).frames = (s.lane l).frames + 1 ∧
        Tab.get (fun _ => 0#40) (u.lane l).held (hdrDclk hdr) =
          extendStamp (Tab.get (fun _ => 0#40) (s.lane l).held (hdrDclk hdr)) (hdrStampLo hdr) ∧
        (u.lane l).parts = (s.lane l).parts ∧ u.laneState l = .up) ∧
    (s.laneState l = .up → hdrKind hdr = 0 → (s.lane l).creditLimit ≤ (s.lane l).frames →
      exec (.dataFrame l t hdr pay) s = .next (laneFault l .credit
        (((advanceMod t s).modLane l (fun y => { y with frames := (s.lane l).frames + 1 })).inc O.CREDIT_OVERRUN l)))) ∧
  (∀ (l : Fin 256) (t : Nat) (hdr : W40) (pay : List W40) (s : State), s.mode.safe = false → hdrKind hdr = 1 →
    (s.lane l).lastSeq = some 0#10 → (markerEntries pay).length ≤ 14 →
    (s.laneState l = .framed ∨ s.laneState l = .described →
      exec (.markerFrame l t 0 hdr pay) s = .next (setHeld l (markerEntries pay) (advanceMod t s))) ∧
    (s.laneState l = .up → s.alignState l = .calibrating → (s.lane l).admitted = true →
      (markerEntries pay).any (markerBad (s.lane l)) = false → s.steppedAt = none →
      ∃ u, exec (.markerFrame l t 0 hdr pay) s = .next u ∧ u.alignState l = .aligned ∧
        (u.lane l).joinTime = some (coreTime (payWord pay 0) (payWord pay 1)) ∧ (u.lane l).admitted = false))

/-- GROUP_MAP, DESCRIPTOR and TIME_ECHO (R20-R22, R25, R28, Table 1.9): a good map frame joins the map received; a descriptor whose
map is complete waits for the next data frame on a lane in `UP`; one whose map is not complete counts one frame error and is
answered with `DESC_REQ`; one of the wrong kind only counts. An echo of the sixteenth exchange takes a described lane to `UP`, with
an initial credit of 264 frames (R26) and calibration begun (R53); one that answers no `TIME` is ignored. (That a descriptor outside
Table 1.6 is adopted like any other, that the map frames are forgotten with an incomplete map, and that only the last four echo requests
are remembered are the model's choices: log entries 158, 159 and 161.) -/
def Obligations.ControlFramesDescribeTheLane : Prop :=
  ∀ (l : Fin 256) (t : Nat) (hdr : W40) (pay : List W40) (s : State), s.isLocked l = true →
    (hdrKind hdr = 2 → hdrType hdr = 2 → 0 < fld (payWord pay 0) 11 6 → fld (payWord pay 0) 11 6 ≤ 60 →
      fld (payWord pay 0) 31 22 + fld (payWord pay 0) 11 6 ≤ fld (payWord pay 0) 21 12 + 1 →
      ∃ u, exec (.groupMap l hdr pay) s = .next u ∧
        (u.lane l).build = addMap (s.lane l).build (fld (payWord pay 0) 39 32) (fld (payWord pay 0) 21 12)
          (fld (payWord pay 0) 31 22) (fld (payWord pay 0) 11 6) pay ∧
        u.elems = s.elems ∧ u.out = s.out ∧ u.mem = s.mem) ∧
    (s.isUp l = false → hdrKind hdr ≠ 2 →
      exec (.groupMap l hdr pay) s = .next (s.inc O.FRAME_ERR l) ∧ exec (.descriptor l hdr pay) s = .next (s.inc O.FRAME_ERR l)) ∧
    (hdrKind hdr = 2 → hdrType hdr = 1 → fld (payWord pay 0) 39 32 = 1 →
      (mapComplete (s.lane l).build (descrOf pay) = true → s.isUp l = true →
        exec (.descriptor l hdr pay) s = .next ((s.modLane l (fun y => { y with build := [], descReqOut := false })).modLane l
          (fun y => { y with pendDesc := some (descrOf pay, mapOf (s.lane l).build) }))) ∧
      (mapComplete (s.lane l).build (descrOf pay) = false → s.isUp l = false →
        exec (.descriptor l hdr pay) s = .next (sendDescReq l
          ((s.modLane l (fun y => { y with build := [], descReqOut := false })).inc O.FRAME_ERR l)))) ∧
    (hdrKind hdr = 2 → hdrType hdr = 3 →
      ((s.lane l).echoes.find? (fun p => decide (p.1 = hdrReqId hdr)) = none →
        exec (.timeEcho l t hdr pay) s = .next (advanceMod t s)) ∧
      (∀ e, (s.lane l).echoes.find? (fun p => decide (p.1 = hdrReqId hdr)) = some e → s.laneState l = .described →
        15 ≤ (s.lane l).exchanges →
        ∃ u, exec (.timeEcho l t hdr pay) s = .next u ∧ u.laneState l = .up ∧ u.alignState l = .calibrating ∧
          (u.lane l).frames = 0 ∧ (u.lane l).creditLimit = 264 ∧ Out.lane l (.credit 264) ∈ u.out))

/-- TIME, CREDIT, DESC_REQ_RETRY and DEGRADED_WINDOW (R25, R26, R27, R42, Table 1.8): `TIME` leaves at the first frame boundary at or
after the instant it is due that no `QUENCH` has taken, with the next sequence number, the module time at that instant, and the echo bit
on every sixteenth; `CREDIT` carries the limit as it stands after the deskew space freed; an unanswered `DESC_REQ` is sent again 100 µs
after the last; a full 1 s window of corrected symbols leaves `DEGRADED` set exactly where it counted more than `DEGRADE_SYM_PER_S`.
(The formula of the limit, the windows, a negative mean delay or one
of fewer than eight delays, and where the frame boundaries lie, and with them the instant of a `TIME` that a `QUENCH` displaces, are the
model's choices: log entries 22, 24, 135, 160 and 148.) -/
def Obligations.ReturnMessagesFollowTheirTimers : Prop :=
  ∀ (l : Fin 256) (s : State),
    (s.elB O.PORT_ENABLE (l.val / 8) = true →
      ∃ u, exec (.time l) s = .next u ∧ u.clock = max s.clock (s.timeLeaves l) ∧
        u.out = s.out ++ [.lane l (.time (s.lane l).timeSeq (decide ((s.lane l).sinceEcho % 16 = 0)) u.mtime
          ((s.lane l).delayMean.toNat % 2 ^ 40) (s.elN O.TIME_EPOCH 0))] ∧
        (u.lane l).timeSeq = ((s.lane l).timeSeq + 1) % 65536 ∧ (u.lane l).timeAt = (s.lane l).timeAt + us ∧ u.elems = s.elems) ∧
    (s.isUp l = true → ∃ u, exec (.credit l) s = .next u ∧
      u.out = s.out ++ [.lane l (.credit (s.limitNow l % 2 ^ 32))] ∧ (u.lane l).creditLimit = s.limitNow l ∧
      sameElems [(O.CREDIT_WAIT_NS, l.val)] s u) ∧
    ((s.lane l).descReqOut = true → s.elB O.PORT_ENABLE (l.val / 8) = true →
      ∃ u, exec (.descReqRetry l) s = .next u ∧ u.out = s.out ++ [.lane l (.descReq (!s.isUp l))] ∧ (u.lane l).descReqOut = true ∧
        (u.lane l).descReqAt = max s.clock ((s.lane l).descReqAt + 100 * us) ∧ u.elems = s.elems) ∧
    (∃ u, exec (.degradedWindow l) s = .next u ∧
      u.laneFlag l 0 = decide (s.elN O.DEGRADE_SYM_PER_S (l.val / 8) < (s.lane l).corrWindow) ∧ (u.lane l).corrWindow = 0 ∧
      u.clock = max s.clock ((s.lane l).windowStart + sec) ∧ sameElems [(O.LANE_FLAGS, l.val)] s u)

/-! ## Quench and resume -/

/-- QUENCH_CMD and RESUME_CMD (R136-R138, R140): a bench with the quench right and a recorded design, no window of its own open, sends
`QUENCH` with the next request ID, the clock written and the stamp of that clock's latest row on every `UP` lane of the design; a
request in a window sends nothing; a write to `RESUME_CMD` sends `RESUME` with the request ID written, with 0 the bench's latest, on the
same lanes. Without the right both are refused with `DENIED`, without a recorded design with `BUSY`, and a `RESUME` of 0 with no request
yet with `INVALID_VALUE`. (That `RESUME` clears `QUENCH_LAST` [19], and at which instant the lanes are taken, are the model's reading: log
entries 39 and 40.) -/
def Obligations.QuenchAndResumeSendOnTheDesignsLanes : Prop :=
  ∀ (via : Via) (b : Nat) (v : W64) (s : State), b < 1024 →
    (Passes via O.QUENCH_CMD b v s →
      ((asked via O.QUENCH_CMD s).mayQuench b = true → v.toNat < 256 → ((asked via O.QUENCH_CMD s).bench b).design ≠ none →
        (((asked via O.QUENCH_CMD s).bench b).quench = none → (asked via O.QUENCH_CMD s).quenchLanes b ≠ [] →
          ∃ x, exec (.quenchCmd via b v) s = .next (accepted via O.QUENCH_CMD b x) ∧
            x.out = (asked via O.QUENCH_CMD s).out ++ ((asked via O.QUENCH_CMD s).quenchLanes b).map (fun l => Out.lane l
              (.quench s.nextReq v.toNat (((((asked via O.QUENCH_CMD s).bench b).design.bind
                (fun d => (asked via O.QUENCH_CMD s).lastOf d v.toNat)).map Prod.fst).getD 0#40))) ∧
            x.nextReq = nextReqId s.nextReq ∧ (x.bench b).lastReq = some s.nextReq ∧
            x.elems = (asked via O.QUENCH_CMD s).elems ∧ x.mem = s.mem) ∧
        (∀ q, ((asked via O.QUENCH_CMD s).bench b).quench = some q →
          ∃ x, exec (.quenchCmd via b v) s = .next (accepted via O.QUENCH_CMD b x) ∧ x.out = (asked via O.QUENCH_CMD s).out ∧
            x.nextReq = s.nextReq ∧ (x.bench b).quench = some q ∧ x.elems = (asked via O.QUENCH_CMD s).elems)) ∧
      ((asked via O.QUENCH_CMD s).mayQuench b = false →
        exec (.quenchCmd via b v) s = .next (refusedWith via O.QUENCH_CMD b .denied s)) ∧
      ((asked via O.QUENCH_CMD s).mayQuench b = true → v.toNat < 256 → ((asked via O.QUENCH_CMD s).bench b).design = none →
        exec (.quenchCmd via b v) s = .next (refusedWith via O.QUENCH_CMD b .busy s))) ∧
    (Passes via O.RESUME_CMD b v s →
      (∀ req, (asked via O.RESUME_CMD s).mayQuench b = true → ((asked via O.RESUME_CMD s).bench b).design ≠ none →
        ((v = 0#64 ∧ ((asked via O.RESUME_CMD s).bench b).lastReq = some req) ∨ (0 < v.toNat ∧ v.toNat < 65536 ∧ req = v.setWidth 16)) →
        ∃ x, exec (.resumeCmd via b v) s = .next (accepted via O.RESUME_CMD b x) ∧
          x.out = (asked via O.RESUME_CMD s).out ++
            ((asked via O.RESUME_CMD s).quenchLanes b).map (fun l => Out.lane l (.resume req)) ∧
          (x.bench b).ackReq = req ∧ bit (x.el O.QUENCH_LAST b) 19 = false ∧
          sameElems [(O.QUENCH_LAST, b)] (asked via O.RESUME_CMD s) x) ∧
      ((asked via O.RESUME_CMD s).mayQuench b = false →
        exec (.resumeCmd via b v) s = .next (refusedWith via O.RESUME_CMD b .denied s)) ∧
      ((asked via O.RESUME_CMD s).mayQuench b = true → v.toNat < 65536 → ((asked via O.RESUME_CMD s).bench b).design = none →
        exec (.resumeCmd via b v) s = .next (refusedWith via O.RESUME_CMD b .busy s)) ∧
      ((asked via O.RESUME_CMD s).mayQuench b = true → v = 0#64 → ((asked via O.RESUME_CMD s).bench b).design ≠ none →
        ((asked via O.RESUME_CMD s).bench b).lastReq = none →
        exec (.resumeCmd via b v) s = .next (refusedWith via O.RESUME_CMD b .invalid s)))

/-- QUENCH_REPORT, QUENCH_REPORT_WINDOW_CLOSE and ACK (R38, R139, R140): the first report of a lane concerned writes the skid of the
deciding clock to the lane's `QUENCH_SKID`, 0xFFFF_FFFE where the report does not name it; when the window closes a lane with no
report shows 0xFFFF_FFFF, `QUENCH_LAST` [18] is 0 and its skid 0xFFFF_FFFF; the `ACK` with status 0 that leaves none open sets
`QUENCH_LAST` [19]. (When [19] is set, and the window's end by its command, are the model's reading: log entry 39.) -/
def Obligations.QuenchReportsAreRecorded : Prop :=
  (∀ (l : Fin 256) (hdr : W40) (pay : List W40) (b : Nat) (q : Quench) (rest : List (Nat × Quench)) (s : State),
    s.isLocked l = true → hdrKind hdr = 2 → hdrType hdr = 4 →
    s.quenchesOn l (BitVec.ofNat 16 (hdrReqId hdr)) = (b, q) :: rest → (l.val, none) ∈ q.lanes →
    (∃ k, (k, none) ∈ q.lanes ∧ k ≠ l.val) →
    ∃ u, exec (.quenchReport l hdr pay) s = .next u ∧
      u.elN O.QUENCH_SKID l = ((reportSkid q.dclk (reportEntries (min 14 (hdrMid hdr)) pay)).map Prod.fst).getD 0xFFFFFFFE % 2 ^ 64 ∧
      sameElems [(O.QUENCH_SKID, l.val)] s u ∧ u.out = s.out) ∧
  (∀ (b : Fin 1024) (q : Quench) (l : Nat) (s : State), (s.bench b).quench = some q → (l, none) ∈ q.lanes → l < 256 → q.src < 4 →
    ∃ u, exec (.quenchReportWindowClose b) s = .next u ∧ (u.bench b).quench = none ∧ u.elN O.QUENCH_SKID l = 0xFFFFFFFF ∧
      bit (u.el O.QUENCH_LAST b) 18 = false ∧ fld (u.el O.QUENCH_LAST b) 63 32 = 0xFFFFFFFF ∧
      u.clock = max s.clock q.closeAt ∧ u.out = s.out) ∧
  (∀ (l : Fin 256) (hdr : W40) (pay : List W40) (b : Fin 1024) (y : Bench) (s : State),
    s.isLocked l = true → hdrKind hdr = 2 → hdrType hdr = 5 → hdrMid hdr = 4 → hdrStatus hdr = 0 → s.benches = [(b.val, y)] →
    y.ackReq = BitVec.ofNat 16 (hdrReqId hdr) → (∃ p ∈ y.acks, p.1 = l.val) → (∀ p ∈ y.acks, p.1 ≠ l.val → p.2 = some 0) →
    ∃ u, exec (.ack l hdr pay) s = .next u ∧ bit (u.el O.QUENCH_LAST b) 19 = true ∧ sameElems [(O.QUENCH_LAST, b.val)] s u ∧
      u.out = s.out ∧ u.mem = s.mem)

/-! ## Rows and tiles -/

/-- ROW_EMIT, PART_MISSING and STALLED (R62-R66): a row whose parts are all there or missing, which the watermark has reached and no
earlier row waits before, leaves: it is the latest row of its clock, `ROWS_EMITTED` counts it, and it joins the slot of its time; the slot
goes to its subscribers at once unless another row of that time waits. A lane whose part of a waiting row is found missing counts it once in
`MISSING_PARTS`; an `ALIGNED` lane without a codeword for 200 ns is `STALLED`, its buffer empty (here with no lane `REFUSED` to be
admitted in its place, and with no bench subscribed). (When the slot is taken, and the parts of a lane that has left: log entries 54 and 55.) -/
def Obligations.RowsLeaveWholeOrShort : Prop :=
  (∀ (design : W64) (d : Fin 256) (stamp : W40) (t : Int) (s : State),
    s.rowTime design d stamp = some t → s.rowReady design d stamp t = true →
    (∀ r ∈ s.slotOf design, r.time = t) → s.benchesIn design = [] →
    ∃ x, exec (.rowEmit design d stamp) s =
        .next (if (x.waitingRows design).any (fun k => decide (k.2.2 = t)) then x else closeSlot design x) ∧
      x.lastOf design d = some (stamp, t) ∧ x.el O.ROWS_EMITTED d = satAdd (s.el O.ROWS_EMITTED d) 1 ∧
      (∃ r, x.slotOf design = s.slotOf design ++ [r] ∧ r.dclk = d.val ∧ r.stamp = stamp ∧ r.time = t) ∧ x.mem = s.mem) ∧
  (∀ (l d : Fin 256) (stamp : W40) (design : W64) (t : Int) (s : State),
    (s.lane l).leftClocks = [] → s.laneDesign l = some design → s.rowTime design d stamp = some t →
    (s.expectedLanes design d t).contains l.val = true → s.partLost design l d stamp t = true →
    ((d.val, stamp) ∉ (s.lane l).missCounted →
      ∃ u, exec (.partMissing l d stamp) s = .next u ∧ u.el O.MISSING_PARTS l = satAdd (s.el O.MISSING_PARTS l) 1 ∧
        (d.val, stamp) ∈ (u.lane l).missCounted ∧ sameElems [(O.MISSING_PARTS, l.val)] s u ∧ u.out = s.out) ∧
    ((d.val, stamp) ∈ (s.lane l).missCounted → exec (.partMissing l d stamp) s = .next s)) ∧
  (∀ (l : Fin 256) (design : W64) (s : State), s.isAligned l = true → s.laneDesign l = some design →
    (∀ k, k < 256 → s.alignState k ≠ .refused) →
    ∃ u, exec (.stalled l) s = .next u ∧ u.alignState l = .stalled ∧ (u.lane l).parts = [] ∧
      u.clock = max s.clock ((s.lane l).lastCwClock + 200 * ns) ∧
      sameElems [(O.ALIGN_STATE, l.val), (O.CREDIT_WAIT_NS, l.val)] s u)

/-- TILE_GATE, TILE_GATED, TILE_UNGATE and TILE_ON (R76, R80): a tile no armed bench uses is gated from `ON` through `GATING` to
`GATED`; a tile in use refuses with `BUSY`; a gated tile that is not fenced goes through `UNGATING` to `ON`; `ON` written while it
gates turns it to `UNGATING` at the end of the gating; in `SAFE` (R461) it changes no tile's state. (That a fence stands over a write of
`ON` is log entry 30.) -/
def Obligations.TilePowerFollowsItsWrites : Prop :=
  (∀ (via : Via) (k : Nat) (s : State), k < 16 →
    (Passes via O.TILE_POWER k 1#64 s →
      ((asked via O.TILE_POWER s).tileUsed k = false → (asked via O.TILE_POWER s).elN O.TILE_STATE k = 0 →
        ∃ x, exec (.tileGate via k) s = .next (accepted via O.TILE_POWER k x) ∧ x.elN O.TILE_STATE k = 1 ∧
          x.el O.TILE_POWER k = 1#64 ∧ sameElems [(O.TILE_POWER, k), (O.TILE_STATE, k)] (asked via O.TILE_POWER s) x ∧
          x.out = (asked via O.TILE_POWER s).out) ∧
      ((asked via O.TILE_POWER s).tileUsed k = true →
        exec (.tileGate via k) s = .next (refusedWith via O.TILE_POWER k .busy s))) ∧
    (Passes via O.TILE_POWER k 0#64 s → s.mode.safe = true →
      ∃ x, exec (.tileUngate via k) s = .next (accepted via O.TILE_POWER k x) ∧ x.el O.TILE_POWER k = 0#64 ∧
        sameElems [(O.TILE_POWER, k)] (asked via O.TILE_POWER s) x ∧ x.inner = (asked via O.TILE_POWER s).inner) ∧
    (Passes via O.TILE_POWER k 0#64 s → s.mode.safe = false → (asked via O.TILE_POWER s).elB O.TILE_FENCED k = false →
      ((asked via O.TILE_POWER s).elN O.TILE_STATE k = 2 →
        ∃ x, exec (.tileUngate via k) s = .next (accepted via O.TILE_POWER k x) ∧ x.elN O.TILE_STATE k = 3 ∧
          x.el O.TILE_POWER k = 0#64 ∧ sameElems [(O.TILE_POWER, k), (O.TILE_STATE, k)] (asked via O.TILE_POWER s) x) ∧
      ((asked via O.TILE_POWER s).elN O.TILE_STATE k = 1 →
        ∃ x, exec (.tileUngate via k) s = .next (accepted via O.TILE_POWER k x) ∧ k ∈ x.tileTurn ∧ x.elN O.TILE_STATE k = 1))) ∧
  (∀ (k : Fin 16) (s : State),
    (s.elN O.TILE_STATE k = 1 → k.val ∉ s.tileTurn → exec (.tileGated k) s = .next (s.setN O.TILE_STATE k 2)) ∧
    (s.elN O.TILE_STATE k = 1 → k.val ∈ s.tileTurn →
      ∃ u, exec (.tileGated k) s = .next u ∧ u.elN O.TILE_STATE k = 3 ∧ k.val ∉ u.tileTurn ∧ sameElems [(O.TILE_STATE, k.val)] s u) ∧
    (s.elN O.TILE_STATE k = 3 → exec (.tileOn k) s = .next (s.setN O.TILE_STATE k 0)))

/-! ## Benches -/

/-- ARM (R250, R251, R45): on a bench whose checks all pass, the bench is `ARMED` with the design of its reference triple recorded, and
nothing of the trace ingots changes; where a check fails, as on a `FREE` bench, its code is the status, nothing but the lane report is
written, and the report names the lanes. (When it takes effect, and that an ARM of a `FREE` bench is an attempt that writes the report:
the model's choices, log entries 46 and 49.) -/
def Obligations.ArmTakesEffectOrNamesTheLanes : Prop :=
  ∀ (via : Via) (b : Nat) (s : State), b < 1024 → Passes via O.BENCH_CMD b 1#64 s →
    (armCheck b (asked via O.BENCH_CMD s) = .ok →
      ∃ x, exec (.arm via b) s = .next (accepted via O.BENCH_CMD b x) ∧ x.benchState b = .armed ∧
        (x.bench b).triple = (asked via O.BENCH_CMD s).refTriple b ∧
        (x.bench b).design = ((asked via O.BENCH_CMD s).refTriple b).map Prod.fst ∧
        (x.bench b).lanes = (asked via O.BENCH_CMD s).benchLanes b ∧ x.mem = s.mem) ∧
    (armCheck b (asked via O.BENCH_CMD s) ≠ .ok →
      exec (.arm via b) s = .next (recordWrite via O.BENCH_CMD b (armCheck b (asked via O.BENCH_CMD s))
        (writeLaneReport b ((asked via O.BENCH_CMD s).namedLanes b) (asked via O.BENCH_CMD s))))

/-- DISARM, CLEAR_FAULT, RESET and BENCH_RESET_DONE (R250, R252, R254): an armed bench with no fault on its way is `DEFINED` after a
disarm, and a disarm of any other bench is accepted without effect; `CLEAR_FAULT` takes a faulted bench to `DEFINED` and its cause to
0; `RESET` takes any bench but a `FREE` one to `RESETTING` with its counters clear, and one that is `RESETTING` stays so; the end of
the reset takes it to `DEFINED`. Every command to a `FREE` bench is refused with `DENIED`, an ARM with its lane report. (What RESET
clears, and that lane report of a `FREE` bench: the model's choices, log entries 49 and 46.) -/
def Obligations.BenchCommandsMoveItsState : Prop :=
  (∀ (via : Via) (b : Nat) (s : State), b < 1024 →
    (Passes via O.BENCH_CMD b 2#64 s → (asked via O.BENCH_CMD s).benchState b ≠ .free →
      ((asked via O.BENCH_CMD s).isArmed b = true → ((asked via O.BENCH_CMD s).bench b).fault = none →
        ∃ x, exec (.disarm via b) s = .next (accepted via O.BENCH_CMD b x) ∧ x.benchState b = .defined ∧
          (x.bench b).armed = false ∧ (x.bench b).design = ((asked via O.BENCH_CMD s).bench b).design ∧ x.mem = s.mem) ∧
      ((asked via O.BENCH_CMD s).isArmed b = false →
        exec (.disarm via b) s = .next (accepted via O.BENCH_CMD b (asked via O.BENCH_CMD s)))) ∧
    (Passes via O.BENCH_CMD b 3#64 s →
      ((asked via O.BENCH_CMD s).benchState b = .faulted →
        ∃ x, exec (.clearFault via b) s = .next (accepted via O.BENCH_CMD b x) ∧ x.benchState b = .defined ∧
          fld (x.el O.BENCH_STATUS b) 3 0 = 0 ∧ x.mem = s.mem ∧ x.out = (asked via O.BENCH_CMD s).out) ∧
      ((asked via O.BENCH_CMD s).benchState b = .defined →
        exec (.clearFault via b) s = .next (accepted via O.BENCH_CMD b (asked via O.BENCH_CMD s)))) ∧
    (Passes via O.BENCH_CMD b 4#64 s → (asked via O.BENCH_CMD s).benchState b ≠ .free →
      ((asked via O.BENCH_CMD s).benchState b ≠ .resetting →
        ∃ x, exec (.reset via b) s = .next (accepted via O.BENCH_CMD b x) ∧ x.benchState b = .resetting ∧
          (∀ o ∈ benchCounters, x.el o b = 0#64) ∧ x.mem = s.mem) ∧
      ((asked via O.BENCH_CMD s).benchState b = .resetting →
        exec (.reset via b) s = .next (accepted via O.BENCH_CMD b (asked via O.BENCH_CMD s)))) ∧
    ((asked via O.BENCH_CMD s).benchState b = .free →
      (Passes via O.BENCH_CMD b 1#64 s → exec (.arm via b) s = .next (recordWrite via O.BENCH_CMD b .denied
        (writeLaneReport b ((asked via O.BENCH_CMD s).namedLanes b) (asked via O.BENCH_CMD s)))) ∧
      (Passes via O.BENCH_CMD b 2#64 s → exec (.disarm via b) s = .next (refusedWith via O.BENCH_CMD b .denied s)) ∧
      (Passes via O.BENCH_CMD b 3#64 s → exec (.clearFault via b) s = .next (refusedWith via O.BENCH_CMD b .denied s)) ∧
      (Passes via O.BENCH_CMD b 4#64 s → exec (.reset via b) s = .next (refusedWith via O.BENCH_CMD b .denied s)))) ∧
  (∀ (b : Fin 1024) (s : State), s.benchState b = .resetting →
    ∃ u, exec (.benchResetDone b) s = .next u ∧ u.benchState b = .defined ∧
      sameElems [(O.BENCH_STATE, b.val), (O.ARMED_COUNT, 0)] s u ∧ u.mem = s.mem ∧ u.out = s.out)

/-- BENCH_FAULT and QUIESCE_DISARM_TIMEOUT (R206, R253, R254): an armed bench takes its fault, `FAULTED` with the cause in
`BENCH_STATUS`, the first one that was on its way; 1 ms after entry to `QUIESCE` a bench still armed is `DEFINED`. Neither touches the
bytes of a trace. -/
def Obligations.FaultsAndQuiesceEndAnAcquisition : Prop :=
  ∀ (b : Fin 1024) (cause : FaultCause) (s : State), s.isArmed b = true →
    (((s.bench b).fault).getD cause ≠ .none →
      ∃ u, exec (.benchFault b cause) s = .next u ∧ u.benchState b = .faulted ∧
        fld (u.el O.BENCH_STATUS b) 3 0 = FaultCause.num (((s.bench b).fault).getD cause) ∧ (u.bench b).armed = false ∧ u.mem = s.mem) ∧
    (s.mode.base = .quiesce → (s.bench b).fault = none →
      ∃ u, exec (.quiesceDisarmTimeout b) s = .next u ∧ u.benchState b = .defined ∧ (u.bench b).armed = false ∧
        u.clock = max s.clock (s.quiesceSince + 1 * ms) ∧ u.mem = s.mem)

/-- ARM_AT, DISARM_AT, SCHEDULED_ARM and SCHEDULED_DISARM (R154-R157): a time that has not passed makes the schedule `PENDING`, after
the checks of ARM for an arm, whose failure is the status with the lane report; 0 cancels it; an `ARM_AT` of an armed bench is refused
with `BUSY`. A time that has passed is refused with `LATE`: under `REJECT` nothing is armed or disarmed, under `RUN_NOW` the bench is
armed or disarmed at once (R156). At its instant a pending arm arms the bench and shows `DONE`, or shows `FAILED` with the code of the
check that failed; a pending disarm, its rows behind it, disarms the bench and shows `DONE`. (The order of checks, and a disarm that
waits for its rows: log entries 47 and 48; that an `ARM_AT` of an armed bench is an attempt with a lane report, and one of 0 none, is
the model's choice: log entry 46.) -/
def Obligations.SchedulesArmAndDisarm : Prop :=
  (∀ (via : Via) (b : Nat) (v : W64) (s : State), b < 1024 →
    (Passes via O.ARM_AT b v s →
      ((asked via O.ARM_AT s).isArmed b = true →
        (v = 0#64 → exec (.armAt via b v) s = .next (refusedWith via O.ARM_AT b .busy s)) ∧
        (v ≠ 0#64 → exec (.armAt via b v) s = .next (recordWrite via O.ARM_AT b .busy
          (writeLaneReport b ((asked via O.ARM_AT s).namedLanes b) (asked via O.ARM_AT s))))) ∧
      ((asked via O.ARM_AT s).isArmed b = false →
        (v = 0#64 → exec (.armAt via b v) s =
          .next (accepted via O.ARM_AT b (setArmSched b schNone ((asked via O.ARM_AT s).put O.ARM_AT b v)))) ∧
        (v ≠ 0#64 → armCheck b (asked via O.ARM_AT s) = .ok → (asked via O.ARM_AT s).timePassed v.toNat = false →
          exec (.armAt via b v) s = .next (accepted via O.ARM_AT b
            (setArmSched b schPending (writeLaneReport b [] ((asked via O.ARM_AT s).put O.ARM_AT b v))))) ∧
        (v ≠ 0#64 → armCheck b (asked via O.ARM_AT s) ≠ .ok →
          exec (.armAt via b v) s = .next (recordWrite via O.ARM_AT b (armCheck b (asked via O.ARM_AT s))
            (writeLaneReport b ((asked via O.ARM_AT s).namedLanes b) (asked via O.ARM_AT s)))) ∧
        (v ≠ 0#64 → armCheck b (asked via O.ARM_AT s) = .ok → (asked via O.ARM_AT s).timePassed v.toNat = true →
          ((asked via O.ARM_AT s).elN O.ARM_LATE_POLICY b = 0 →
            exec (.armAt via b v) s = .next (recordWrite via O.ARM_AT b .late
              (setArmSched b schRejected (writeLaneReport b [] (asked via O.ARM_AT s))))) ∧
          ((asked via O.ARM_AT s).elN O.ARM_LATE_POLICY b ≠ 0 →
            ∃ x, exec (.armAt via b v) s = .next (recordWrite via O.ARM_AT b .late x) ∧ x.benchState b = .armed ∧
              x.armSched b = schLate ∧ x.mem = s.mem)))) ∧
    (Passes via O.DISARM_AT b v s →
      (v = 0#64 → ∃ x, exec (.disarmAt via b v) s = .next (accepted via O.DISARM_AT b x) ∧ (x.bench b).stopAt = none ∧
        x.el O.DISARM_AT b = 0#64 ∧ sameElems [(O.DISARM_AT, b), (O.SCHED_STATUS, b)] (asked via O.DISARM_AT s) x) ∧
      (v ≠ 0#64 → (asked via O.DISARM_AT s).isArmed b = true → (asked via O.DISARM_AT s).timePassed v.toNat = false →
        ∃ x, exec (.disarmAt via b v) s = .next (accepted via O.DISARM_AT b x) ∧
          (x.bench b).stopAt = some ((v.toNat * ns : Nat) : Int) ∧ x.el O.DISARM_AT b = v ∧
          sameElems [(O.DISARM_AT, b), (O.SCHED_STATUS, b)] (asked via O.DISARM_AT s) x) ∧
      (v ≠ 0#64 → (asked via O.DISARM_AT s).isArmed b = true → ((asked via O.DISARM_AT s).bench b).fault = none →
        (asked via O.DISARM_AT s).timePassed v.toNat = true →
        ((asked via O.DISARM_AT s).elN O.DISARM_LATE_POLICY b = 0 →
          ∃ x, exec (.disarmAt via b v) s = .next (recordWrite via O.DISARM_AT b .late x) ∧ (x.bench b).stopAt = none ∧
            x.disarmSched b = schRejected ∧ sameElems [(O.SCHED_STATUS, b)] (asked via O.DISARM_AT s) x ∧ x.mem = s.mem) ∧
        ((asked via O.DISARM_AT s).elN O.DISARM_LATE_POLICY b ≠ 0 →
          ∃ x, exec (.disarmAt via b v) s = .next (recordWrite via O.DISARM_AT b .late x) ∧ (x.bench b).stopAt = none ∧
            x.disarmSched b = schLate ∧ x.benchState b = .defined ∧ x.mem = s.mem)))) ∧
  (∀ (b : Fin 1024) (s : State),
    (s.armSched b = schPending →
      (armCheck b (advanceMod (s.elN O.ARM_AT b * ns) s) = .ok →
        ∃ u, exec (.scheduledArm b) s = .next u ∧ u.benchState b = .armed ∧ u.armSched b = schDone ∧ u.mem = s.mem) ∧
      (armCheck b (advanceMod (s.elN O.ARM_AT b * ns) s) ≠ .ok →
        ∃ u, exec (.scheduledArm b) s = .next u ∧ u.benchState b = s.benchState b ∧ u.armSched b = schFailed ∧
          fld (u.el O.SCHED_STATUS b) 15 8 = (armCheck b (advanceMod (s.elN O.ARM_AT b * ns) s)).code)) ∧
    (s.disarmSched b = schPending → s.isArmed b = true → (s.bench b).fault = none →
      (∀ x, (s.bench b).triple = some x → s.domainPast x.1 ((s.elN O.DISARM_AT b * ns : Nat) : Int) = true) →
      ∃ u, exec (.scheduledDisarm b) s = .next u ∧ u.benchState b = .defined ∧ u.disarmSched b = schDone ∧
        (u.bench b).stopAt = none ∧ u.mem = s.mem))

/-- COMMIT, COMMIT_CANCEL and COMMIT_BROADCAST (R149-R151): with a clock the bench carries and no commit pending, the commit of a
bench that is not armed is done at once and that of an armed one is pending for its clock and stamp; a second one is refused with
`BUSY`; a cancel ends a pending one as `CANCELLED` and is accepted without effect with none; the broadcast marks the commit seen, and
late where its clock has emitted its row. (The rows of one slot: log entry 57.) -/
def Obligations.CommitsWaitForTheirRow : Prop :=
  (∀ (via : Via) (b : Nat) (s : State), b < 1024 →
    (Passes via O.COMMIT b 1#64 s →
      (asked via O.COMMIT s).benchCarries b ((asked via O.COMMIT s).elN O.COMMIT_CLOCK b) = true →
      ((asked via O.COMMIT s).commitPending b = false → (asked via O.COMMIT s).isArmed b = false →
        exec (.commit via b) s = .next (accepted via O.COMMIT b (setCommitState b 2 (asked via O.COMMIT s)))) ∧
      ((asked via O.COMMIT s).commitPending b = false → (asked via O.COMMIT s).isArmed b = true →
        commitCheck b (asked via O.COMMIT s) = true →
        ∃ x, exec (.commit via b) s = .next (accepted via O.COMMIT b x) ∧
          (x.bench b).commit = some ((asked via O.COMMIT s).elN O.COMMIT_CLOCK b,
            ((asked via O.COMMIT s).el O.COMMIT_STAMP b).setWidth 40) ∧
          (x.bench b).commitSeen = false ∧ fld (x.el O.COMMIT_STATUS b) 2 0 = 1 ∧
          sameElems [(O.COMMIT_STATUS, b)] (asked via O.COMMIT s) x) ∧
      ((asked via O.COMMIT s).commitPending b = true →
        exec (.commit via b) s = .next (refusedWith via O.COMMIT b .busy s))) ∧
    (Passes via O.COMMIT b 2#64 s →
      ((asked via O.COMMIT s).commitPending b = true →
        ∃ x, exec (.commitCancel via b) s = .next (accepted via O.COMMIT b x) ∧ (x.bench b).commit = none ∧
          fld (x.el O.COMMIT_STATUS b) 2 0 = 4 ∧ sameElems [(O.COMMIT_STATUS, b)] (asked via O.COMMIT s) x) ∧
      ((asked via O.COMMIT s).commitPending b = false →
        exec (.commitCancel via b) s = .next (accepted via O.COMMIT b (asked via O.COMMIT s))))) ∧
  (∀ (b : Fin 1024) (d : Nat) (st : W40) (s : State), (s.bench b).commit = some (d, st) →
    ∃ u, exec (.commitBroadcast b) s = .next u ∧ (u.bench b).commitSeen = true ∧
      (u.bench b).commitLate = (match (s.bench b).design.bind (fun x => s.lastOf x d) with
        | none => false
        | some p => atOrAfter p.1 st) ∧
      (u.bench b).commit = some (d, st) ∧ u.elems = s.elems ∧ u.out = s.out)

/-! ## Acquisition and assay -/

/-- PLANISHER_ROW (R163, R168, R184, R185, R187, R198), on a bench with one open stream `k` that has the row's clock and no lane-loss
gap, and a row that opens and closes nothing and brings no event. Of a stored row in its clock's context, whose words are all received,
the one group that changed is written as a CHANGE record, its advance and the new word behind what the cell holds, and nothing is
written where none changed; the words received are the stream's and the row is its clock's latest. A row that is not stored writes
nothing, and a snapshot is due. A stored row whose tile is not `ON` is lost with GAP cause 4. (The snapshot due: log entry 126.) -/
def Obligations.PlanisherRowReachesItsStream : Prop :=
  ∀ (b : Fin 1024) (k : Nat) (pr : PlanRow) (rest : List PlanRow) (s : State),
    (s.bench b).plan = pr :: rest → k ∈ streamsOf b → (∀ j ∈ streamsOf b, j ≠ k → (s.stream j).open_ = false) →
    (s.stream k).open_ = true → (s.stream k).clocks.contains pr.row.dclk = true → (s.stream k).laneGaps = [] → (s.stream k).doneGaps = [] →
    (s.bench b).events = [] → pr.events = [] → pr.opens = false → pr.closes = none → pr.last = none → pr.snap = false →
    (pr.stored = false →
      ∃ u, exec (.planisherRow b) s = .next u ∧ (u.bench b).plan = rest ∧
        (u.stream k).latest = pairSet (s.stream k).latest pr.row.dclk (pr.row.stamp, pr.row.time) ∧
        (u.stream k).recv = (rowWords k pr.row s).foldl keepWord (s.stream k).recv ∧ pr.row.dclk ∈ (u.stream k).snapDue ∧
        (u.stream k).cell = (s.stream k).cell ∧ u.elems = s.elems ∧ u.out = s.out ∧ u.mem = s.mem) ∧
    (pr.stored = true → pr.row.off.contains (k % 16) = true → rowWords k pr.row s ≠ [] →
      ∃ u, exec (.planisherRow b) s = .next u ∧ (u.bench b).plan = rest ∧
        u.el O.STREAM_ROWS_LOST k = satAdd (s.el O.STREAM_ROWS_LOST k) 1 ∧
        (u.stream k).gaps = addGap (s.stream k).gaps pr.row.dclk 4 pr.row.stamp ∧ (u.stream k).cell = (s.stream k).cell ∧
        pr.segment ∈ (u.bench b).gapped ∧
        sameElems [(O.STREAM_ROWS_LOST, k), (O.STREAM_EVENTS_LOST, k)] s u ∧ u.mem = s.mem) ∧
    (∀ (st : W40), pr.stored = true → pr.row.off.contains (k % 16) = false → (∀ w ∈ rowWords k pr.row s, w.2.isSome = true) →
      (s.stream k).gaps = [] → (s.stream k).snapDue.contains pr.row.dclk = false → s.elN O.STORE_MODE b ≠ 1 →
      (s.stream k).resetGap = false → (s.stream k).starts = [] → (s.stream k).cell ≠ [] → (s.stream k).cell.length + 2 < cellWords →
      pairGet (s.stream k).ctxs pr.row.dclk = some st → (s.stream k).cur = some pr.row.dclk → (pr.row.stamp - st).toNat < 2 ^ 20 →
      (s.stream k).syncDue.contains pr.row.dclk = false → (pr.row.stamp - (pairGet (s.stream k).synced pr.row.dclk).getD 0#40).toNat < pr.sync →
      ∃ u, exec (.planisherRow b) s = .next u ∧ (u.bench b).plan = rest ∧
        (u.stream k).recv = (rowWords k pr.row s).foldl keepWord (s.stream k).recv ∧
        (u.stream k).latest = pairSet (s.stream k).latest pr.row.dclk (pr.row.stamp, pr.row.time) ∧
        (changedOf (s.stream k) (rowWords k pr.row s) = [] → (u.stream k).cell = (s.stream k).cell) ∧
        (∀ g v, changedOf (s.stream k) (rowWords k pr.row s) = [(g, v)] →
          (u.stream k).cell = (s.stream k).cell
            ++ [put40 1 36 ||| put40 g 20 ||| put40 (pr.row.stamp - st).toNat 0, v]) ∧
        u.elems = s.elems ∧ u.out = s.out ∧ u.mem = s.mem)

/-- GOLD_INGOTS (R215): on a bench that is not armed, with no engine's trace beyond them, the first v ingots of its directory are
golden and its engines hold no golden trace; with no write of the store before them, they read as zeros and no other byte of memory
changes, while background jobs have stopped (R461) or the store takes no request (R334, R335) their scrub waits. An armed bench refuses
with `BUSY`, more than its quota with `INVALID_VALUE`. (The place of the scrub among the store's requests: log entry 170.) -/
def Obligations.GoldIngotsAreAllocatedAfresh : Prop :=
  ∀ (via : Via) (b : Nat) (v : W64) (s : State), b < 1024 → Passes via O.GOLD_INGOTS b v s →
    ((asked via O.GOLD_INGOTS s).elN O.INGOT_QUOTA b < v.toNat →
      exec (.goldIngots via b v) s = .next (refusedWith via O.GOLD_INGOTS b .invalid s)) ∧
    (v.toNat ≤ (asked via O.GOLD_INGOTS s).elN O.INGOT_QUOTA b →
      (∀ a ∈ (asked via O.GOLD_INGOTS s).enginesOf b, (asked via O.GOLD_INGOTS s).elN O.GOLD_FIRST a * 1024
        + (asked via O.GOLD_INGOTS s).elN O.GOLD_CELLS a ≤ v.toNat * 1024) →
      ((asked via O.GOLD_INGOTS s).isArmed b = true →
        exec (.goldIngots via b v) s = .next (refusedWith via O.GOLD_INGOTS b .busy s)) ∧
      ((asked via O.GOLD_INGOTS s).isArmed b = false →
        ∃ x, exec (.goldIngots via b v) s = .next (accepted via O.GOLD_INGOTS b x) ∧ x.el O.GOLD_INGOTS b = v ∧
          (∀ (p : Nat) (y : DirEntry), p < v.toNat → (x.dir b)[p]? = some y → y.state = 1) ∧
          (s.storeReqs = [] → s.staging = [] →
            (s.storeTakes = true → s.jobsStopped = false → s.frozen = [] →
              (∀ (p : Nat) (y : DirEntry), p < v.toNat → (x.dir b)[p]? = some y →
                ∀ c, c < 2 ^ 20 → x.byteAt (cellAddr y.ingot 0 + c) = 0#8) ∧
              (∀ addr, (∀ (p : Nat) (y : DirEntry), p < v.toNat → (x.dir b)[p]? = some y →
                addr < cellAddr y.ingot 0 ∨ cellAddr (y.ingot + 1) 0 ≤ addr) → x.byteAt addr = s.byteAt addr)) ∧
            (s.storeTakes = false ∨ s.jobsStopped = true → x.mem = s.mem ∧
              ∀ (p : Nat) (y : DirEntry), p < v.toNat → (x.dir b)[p]? = some y → x.scrubDue y.ingot = true)) ∧
          (∀ a ∈ (asked via O.GOLD_INGOTS s).enginesOf b, x.elN O.GOLD_STATE a = goldEmpty ∧ x.elN O.AE_STATE a = 0)))

/-- GOLD_SEAL and GOLD_SEAL_DONE (R219, R222, R335): a write of 1 for an engine whose bench is not armed starts the sealing, any other
value is refused with `INVALID_VALUE`, and an armed bench, or a trace that is `SEALING`, with `BUSY`; once the trace is read it is
`SEALED`, with its header, or `BAD` with the cause and the first failing cell. While background jobs have stopped (R461), the store
takes no request, or a controller that it reads from is frozen, the read waits: that is the model's choice, log entry 156. (A trace
without END, and values other than 1: log entries 29 and 52.) -/
def Obligations.SealingJudgesTheTrace : Prop :=
  (∀ (via : Via) (a : Nat) (v : W64) (s : State), a < 4 → Passes via O.GOLD_SEAL a v s →
    (v ≠ 1#64 → exec (.goldSeal via a v) s = .next (refusedWith via O.GOLD_SEAL a .invalid s)) ∧
    (v = 1#64 → (asked via O.GOLD_SEAL s).aeArmed a = true ∨ (asked via O.GOLD_SEAL s).elN O.GOLD_STATE a = goldSealing →
      exec (.goldSeal via a v) s = .next (refusedWith via O.GOLD_SEAL a .busy s)) ∧
    (v = 1#64 → (asked via O.GOLD_SEAL s).aeArmed a = false → (asked via O.GOLD_SEAL s).elN O.GOLD_STATE a ≠ goldSealing →
      exec (.goldSeal via a v) s =
        .next (accepted via O.GOLD_SEAL a (toService ((asked via O.GOLD_SEAL s).setN O.GOLD_STATE a goldSealing))))) ∧
  (∀ (x : SealRead) (s t : State), s.elN O.GOLD_STATE x.a = goldSealing → t = sealTraced x.a x.errs s →
    (s.sealWaits x.a = true → exec (.goldSealDone x) s = .next s) ∧
    (s.sealWaits x.a = false → t.sealWaits x.a = true → exec (.goldSealDone x) s = .next (refreshStore t)) ∧
    (s.sealWaits x.a = false → t.sealWaits x.a = false →
      (sealCheck x.a t = none →
        ∃ u, exec (.goldSealDone x) s = .next u ∧ u.elN O.GOLD_STATE x.a = goldSealed ∧
          (u.engine x.a).header = goldHeader (t.aeLen x.a) (goldWords x.a 0 6 t) ∧ u.mem = t.mem) ∧
      (∀ (cause cell : Nat), sealCheck x.a t = some (cause, cell) →
        ∃ u, exec (.goldSealDone x) s = .next u ∧ u.elN O.GOLD_STATE x.a = goldBad ∧
          fld (u.el O.AE_STATUS x.a) 3 0 = cause % 16 ∧ fld (u.el O.AE_STATUS x.a) 39 8 = cell % 2 ^ 32 ∧ u.mem = t.mem)))

/-- ASSAY_COMPARE (R223, R228-R233): a live engine that stands on the golden row of the live row it takes, with its words in hand and
in time, compares the words received at its list positions: without a divergent one it is `COMPARING` and both word counters rise; a
divergent row of an engine that stops, and does not quench, counts and fails it; under a SKIP nothing is compared; words that are
not in hand abort it. (The bench has no row undecided, and no golden cell is asked for.) (The operand that says whether the words are
in hand in time, and the rate: log entry 53; that the verdict row of an engine that stops counts in `AE_DIVERGENT_ROWS` is the
model's choice: log entry 51.) -/
def Obligations.AssayComparesLiveWithGoldenWords : Prop :=
  ∀ (a : Fin 4) (b : Nat) (r : Row) (rest : List Row) (z : W40) (ps : List Probe) (s : State),
    s.aeBench a = some b → (s.engine a).rows = r :: rest → s.aeLive a = true → (s.bench b).undecided = [] →
    (s.engine a).s0 = some z → (r.stamp - z).toNat < 2 ^ 39 → (s.engine a).ahead = [] →
    s.storeReqs.all StoreReq.writes = true → s.aeLen a ≤ 1024 → (s.engine a).maskSet < 16 →
    ((r.stamp - z).toNat = (s.engine a).goldRow → (s.engine a).readFree ≤ r.time → (s.engine a).cmpFree ≤ r.time →
      ps = (probes b a r (s.engine a) s).filter (fun p => p.live.isSome) → ps.length * us / s.assayLimit ≤ 400 * ns →
      ((s.engine a).skipLeft = 0 → 2 ≤ (s.engine a).holdLeft →
        ((∀ p ∈ ps, p.divergent = false) → ps ≠ [] →
          ∃ u, exec (.assayCompare a true) s = .next u ∧ u.elN O.AE_STATE a = aeComparing ∧
            u.el O.AE_WORDS_COMPARED a = satAdd (s.el O.AE_WORDS_COMPARED a) ps.length ∧
            u.el O.AE_WORDS_UNCOMPARED a = satAdd (s.el O.AE_WORDS_UNCOMPARED a) (s.aeLen a - ps.length) ∧
            u.el O.AE_ROWS_COMPARED a = satAdd (s.el O.AE_ROWS_COMPARED a) 1 ∧ (u.engine a).rows = rest ∧
            (u.engine a).goldRow = (s.engine a).goldRow + 1 ∧
            sameElems [(O.AE_STATE, a.val), (O.AE_WORDS_COMPARED, a.val), (O.AE_WORDS_UNCOMPARED, a.val), (O.AE_ROWS_COMPARED, a.val)] s u ∧
            u.out = s.out ∧ u.mem = s.mem) ∧
        ((∃ p ∈ ps, p.divergent = true) → aeContinue (s.el O.AE_CONFIG a) = false → aeQuench (s.el O.AE_CONFIG a) = false →
          (s.engine a).verdict = false →
          ∃ u, exec (.assayCompare a true) s = .next u ∧ u.elN O.AE_STATE a = aeFailed ∧
            u.el O.AE_DIVERGENT_ROWS a = satAdd (s.el O.AE_DIVERGENT_ROWS a) 1 ∧ (u.engine a).rows = [] ∧ u.mem = s.mem)) ∧
      (2 ≤ (s.engine a).skipLeft →
        ∃ u, exec (.assayCompare a true) s = .next u ∧ u.elN O.AE_STATE a = aeComparing ∧
          u.el O.AE_WORDS_COMPARED a = satAdd (s.el O.AE_WORDS_COMPARED a) 0 ∧
          u.el O.AE_WORDS_UNCOMPARED a = satAdd (s.el O.AE_WORDS_UNCOMPARED a) (s.aeLen a) ∧
          (u.engine a).skipLeft = (s.engine a).skipLeft - 1)) ∧
    (∃ u, exec (.assayCompare a false) s = .next u ∧ u.elN O.AE_STATE a = aeAborted ∧ fld (u.el O.AE_STATUS a) 3 0 = 3 ∧
      (u.engine a).rows = [] ∧ u.mem = s.mem)


/-! ## Locks, proposals and what changes hands -/

/-- LOCK_ACQUIRE (R259, R262, Table 7.5): a caller who may lock takes a free lock as its owner, with its lease (LK000's is
`PROP_EXPIRY_S`), `GENERATION` one higher and `BROKEN` as it was, and taking LK000 begins a draft; the owner's own acquire starts its
lease again; a lock another owner holds is refused with `BUSY`, a caller who may not lock with `DENIED`, a lease outside 1-600,000 ms
with `INVALID_VALUE`. (That a refusal of LK000 is recorded in `PROP_STATUS`, and that `INVALID_VALUE` stands before `BUSY`, are the
model's choices: log entries 59 and 18.) -/
def Obligations.LocksHaveOneOwner : Prop :=
  ∀ (via : Via) (k : Nat) (v : W64) (s a : State), k < 256 → a = asked via O.LOCK_ACQUIRE s → Passes via O.LOCK_ACQUIRE k v s →
    (mayLock via k a = false →
      (k ≠ 0 → exec (.lockAcquire via k v) s = .next (refusedWith via O.LOCK_ACQUIRE k .denied s)) ∧
      (k = 0 → ∃ x, exec (.lockAcquire via k v) s = .next (recordWrite via O.LOCK_ACQUIRE k .denied x) ∧
        fld (x.el O.PROP_STATUS 0) 15 8 = Status.denied.code ∧ sameElems [(O.PROP_STATUS, 0)] a x ∧ x.inner = a.inner)) ∧
    (mayLock via k a = true → k ≠ 0 → v.toNat = 0 ∨ 600000 < v.toNat →
      exec (.lockAcquire via k v) s = .next (refusedWith via O.LOCK_ACQUIRE k .invalid s)) ∧
    (mayLock via k a = true → k = 0 ∨ (1 ≤ v.toNat ∧ v.toNat ≤ 600000) →
      (a.lockHeld k = false →
        ∃ x, exec (.lockAcquire via k v) s = .next (accepted via O.LOCK_ACQUIRE k x) ∧ x.lockHeld k = true ∧
          x.lockOwner k = ((lockCaller via a).1, (lockCaller via a).2 % 65536) ∧
          fld (x.el O.LOCK_STATE k) 63 54 = (fld (a.el O.LOCK_STATE k) 63 54 + 1) % 1024 ∧
          bit (x.el O.LOCK_STATE k) 1 = bit (a.el O.LOCK_STATE k) 1 ∧
          x.lock k = { leaseEnd := s.clock + a.leaseOf k v.toNat * ms, lease := a.leaseOf k v.toNat } ∧ x.mem = s.mem ∧
          (k ≠ 0 → sameElems [(O.LOCK_STATE, k)] a x ∧ x.out = a.out) ∧
          (k = 0 → a.propState ≠ propApplying → x.propState = propDraft)) ∧
      (a.lockHeld k = true → a.lockOwner k = lockCaller via a →
        exec (.lockAcquire via k v) s = .next (accepted via O.LOCK_ACQUIRE k (renewLease k (a.leaseOf k v.toNat) a))) ∧
      (a.lockHeld k = true → a.lockOwner k ≠ lockCaller via a →
        (k ≠ 0 → exec (.lockAcquire via k v) s = .next (refusedWith via O.LOCK_ACQUIRE k .busy s)) ∧
        (k = 0 → ∃ x, exec (.lockAcquire via k v) s = .next (recordWrite via O.LOCK_ACQUIRE k .busy x) ∧
          fld (x.el O.PROP_STATUS 0) 15 8 = Status.busy.code ∧ sameElems [(O.PROP_STATUS, 0)] a x ∧ x.inner = a.inner)))

/-- LOCK_RELEASE, LOCK_RENEW, LOCK_BREAK and LOCK_LEASE_EXPIRY (R261, R262, R267): only the owner releases a lock, and it is free
without `BROKEN`, also where its lease ran out in the same cycle; only the owner renews one, never LK000; a broken lock and one whose
lease has run out are free with `BROKEN`. A LK000 freed in one of these ways voids a proposal in `DRAFT` or `OPEN`, with its cause.
(`GENERATION` of a lock that is freed, and a `LOCK_BREAK` of a free lock, are the model's choices: log entries 68 and 169.) -/
def Obligations.LocksAreFreedByReleaseBreakOrExpiry : Prop :=
  (∀ (via : Via) (k : Nat) (v : W64) (s a : State), k < 256 →
    (a = asked via O.LOCK_RELEASE s → Passes via O.LOCK_RELEASE k v s →
      (a.holds via k = true →
        ∃ x, exec (.lockRelease via k v) s = .next (accepted via O.LOCK_RELEASE k x) ∧ x.lockHeld k = false ∧
          bit (x.el O.LOCK_STATE k) 1 = false ∧ fld (x.el O.LOCK_STATE k) 63 54 = fld (a.el O.LOCK_STATE k) 63 54 ∧
          (k ≠ 0 → sameElems [(O.LOCK_STATE, k)] a x ∧ x.out = a.out) ∧
          (k = 0 → a.propState = propDraft ∨ a.propState = propOpen →
            x.propState = propVoid ∧ fld (x.el O.PROP_STATUS 0) 7 4 = voidCancelled)) ∧
      (a.holds via k = false → a.justLapsed via k = true →
        ∃ x, exec (.lockRelease via k v) s = .next (accepted via O.LOCK_RELEASE k x) ∧ x.lockHeld k = false ∧
          bit (x.el O.LOCK_STATE k) 1 = false ∧ fld (x.el O.LOCK_STATE k) 63 54 = fld (a.el O.LOCK_STATE k) 63 54 ∧
          (k ≠ 0 → sameElems [(O.LOCK_STATE, k)] a x ∧ x.out = a.out) ∧
          (k = 0 → a.propState = propVoid → fld (a.el O.PROP_STATUS 0) 7 4 = voidExpired →
            x.propState = propVoid ∧ fld (x.el O.PROP_STATUS 0) 7 4 = voidCancelled)) ∧
      (a.holds via k = false → a.justLapsed via k = false →
        exec (.lockRelease via k v) s = .next (refusedWith via O.LOCK_RELEASE k .denied s))) ∧
    (a = asked via O.LOCK_RENEW s → Passes via O.LOCK_RENEW k v s →
      (k ≠ 0 → a.holds via k = true →
        exec (.lockRenew via k v) s = .next (accepted via O.LOCK_RENEW k (renewLease k (a.lock k).lease a))) ∧
      (k = 0 ∨ a.holds via k = false → exec (.lockRenew via k v) s = .next (refusedWith via O.LOCK_RENEW k .denied s))) ∧
    (a = asked via O.LOCK_BREAK s → Passes via O.LOCK_BREAK k v s →
      (a.lockHeld k = true →
        ∃ x, exec (.lockBreak via k v) s = .next (accepted via O.LOCK_BREAK k x) ∧ x.lockHeld k = false ∧
          bit (x.el O.LOCK_STATE k) 1 = true ∧
          (k ≠ 0 → sameElems [(O.LOCK_STATE, k)] a x ∧ x.out = a.out) ∧
          (k = 0 → a.propState = propDraft ∨ a.propState = propOpen →
            x.propState = propVoid ∧ fld (x.el O.PROP_STATUS 0) 7 4 = voidBroken)) ∧
      (a.lockHeld k = false → exec (.lockBreak via k v) s = .next (accepted via O.LOCK_BREAK k a)))) ∧
  (∀ (k : Fin 256) (s : State), s.lockHeld k = true →
    ∃ u, exec (.lockLeaseExpiry k) s = .next u ∧ u.lockHeld k = false ∧ bit (u.el O.LOCK_STATE k) 1 = true ∧
      u.clock = max s.clock (s.lock k).leaseEnd ∧ u.mem = s.mem ∧
      (k.val ≠ 0 → sameElems [(O.LOCK_STATE, k.val)] s u ∧ u.out = s.out) ∧
      (k.val = 0 → s.propState = propDraft ∨ s.propState = propOpen →
        u.propState = propVoid ∧ fld (u.el O.PROP_STATUS 0) 7 4 = voidExpired))

/-- PROP_SUBMIT, PROP_COUNTERSIGN and PROP_CANCEL (R263-R268, Table 7.7): the holder of LK000, a custodian whose signature over the
next number verifies, opens its draft where the set it would leave passes every check; another custodian with another key whose
signature verifies starts its application; a custodian other than the proposer cancels it. The protection set is as before after each
of them. The proposer itself may neither countersign nor cancel, and a refusal is recorded in `PROP_STATUS` (the model's place for it).
(The order of the checks and the number in `PROP_STATUS` are the model's: log entries 59 and 61.) -/
def Obligations.ProposalsNeedTwoCustodians : Prop :=
  ∀ (via : Via) (v : W64) (s a : State),
    (a = asked via O.PROP_SUBMIT s → Passes via O.PROP_SUBMIT 0 v s →
      (a.holds via 0 = true → (viaRights via a).custodian = true → firstCustodians via a = false →
        a.signedBy (viaPrinc via a) O.PROP_SIG (a.propDigest v.toNat) = true → v.toNat = a.elN O.PROP_SEQ 0 + 1 → v.toNat < 2 ^ 32 →
        a.propState = propDraft → a.propEntries ≠ [] → (∀ e ∈ a.propEntries, e.ok = true) →
        protCheck a (a.withEntries a.propEntries) = .ok → v.toNat ≤ a.propReserved →
        ∃ x, exec (.propSubmit via v) s = .next (accepted via O.PROP_SUBMIT 0 x) ∧ x.propState = propOpen ∧
          x.propNumber = v.toNat ∧ x.el O.PROP_SEQ 0 = v ∧ (∀ o ∈ protItems, ∀ e, e < o.count → x.el o e = a.el o e) ∧ x.mem = s.mem) ∧
      (a.holds via 0 = false →
        ∃ x, exec (.propSubmit via v) s = .next (recordWrite via O.PROP_SUBMIT 0 .denied x) ∧ x.propState = a.propState ∧
          fld (x.el O.PROP_STATUS 0) 15 8 = Status.denied.code ∧ sameElems [(O.PROP_STATUS, 0)] a x)) ∧
    (a = asked via O.PROP_COUNTERSIGN s → Passes via O.PROP_COUNTERSIGN 0 v s → (viaRights via a).custodian = true →
      a.propState = propOpen → v.toNat = a.propNumber →
      (otherCustodian (viaPrinc via a) a = true → a.signedBy (viaPrinc via a) O.CSIGN_SIG (a.propDigest a.propNumber) = true →
        ∃ x, exec (.propCountersign via v) s = .next (accepted via O.PROP_COUNTERSIGN 0 x) ∧ x.propState = propApplying ∧
          x.propNumber = v.toNat ∧ (∀ o ∈ protItems, ∀ e, e < o.count → x.el o e = a.el o e) ∧ x.mem = s.mem) ∧
      (viaPrinc via a = some a.proposer →
        ∃ x, exec (.propCountersign via v) s = .next (recordWrite via O.PROP_COUNTERSIGN 0 .denied x) ∧ x.propState = propOpen ∧
          sameElems [(O.PROP_STATUS, 0)] a x)) ∧
    (a = asked via O.PROP_CANCEL s → Passes via O.PROP_CANCEL 0 v s → (viaRights via a).custodian = true →
      (viaPrinc via a ≠ some a.proposer → a.propState = propOpen → v.toNat = a.propNumber →
        ∃ x, exec (.propCancel via v) s = .next (accepted via O.PROP_CANCEL 0 x) ∧ x.propState = propVoid ∧
          fld (x.el O.PROP_STATUS 0) 7 4 = voidVetoed ∧ x.lockHeld 0 = false ∧
          (∀ o ∈ protItems, ∀ e, e < o.count → x.el o e = a.el o e)) ∧
      (viaPrinc via a = some a.proposer →
        ∃ x, exec (.propCancel via v) s = .next (recordWrite via O.PROP_CANCEL 0 .denied x) ∧ x.propState = a.propState))

/-- PROPOSAL_APPLY (R245, R246, R255, R266, Table 7.7 step 5): a proposal in `APPLYING` is checked again against the present set, and
applied whole, every item at its new value, LK000 free; or, where the check fails, void with the code of the refusal and no item
changed. (Where benches are deleted or engines change hands, here with an empty cell pool; then the deleted benches are `FREE`.) -/
def Obligations.ProposalsApplyWholeOrNotAtAll : Prop :=
  ∀ (s t : State), s.propState = propApplying → t = s.withEntries s.propEntries →
    (protCheck s t = .ok → (deletedIn s t = [] ∧ changedIn O.AE_OWNER s t = []) ∨ s.packets = [] →
      ∃ u, exec .proposalApply s = .next u ∧ u.propState = propApplied ∧ u.lockHeld 0 = false ∧
        (∀ o ∈ protItems, ∀ e, e < o.count → u.el o e = t.el o e) ∧
        (∀ b ∈ deletedIn s t, u.benchState b = .free) ∧
        (∀ b ∈ changedIn O.BENCH_DEFINED s t, t.elB O.BENCH_DEFINED b = true → u.benchState b = .defined)) ∧
    (protCheck s t ≠ .ok →
      ∃ u, exec .proposalApply s = .next u ∧ u.propState = propVoid ∧ fld (u.el O.PROP_STATUS 0) 7 4 = voidRefused ∧
        fld (u.el O.PROP_STATUS 0) 15 8 = (protCheck s t).code ∧ u.lockHeld 0 = false ∧
        (∀ o ∈ protItems, ∀ e, e < o.count → u.el o e = s.el o e) ∧ u.mem = s.mem)

/-- INGOT_SCRUB (R273, R274, R318): an ingot that no bench holds and no waiting write names is overwritten with zeros and carries no
poison; it joins the directory of a defined bench that is short of its quota, at the next position, and `BENCH_STATUS` counts it;
else it is free. No other byte changes. While the store takes no request the scrub waits (R334, R335). (Which ingot is scrubbed when, and
that the scrub waits: log entries 69 and 156.) -/
def Obligations.ScrubbedIngotsEnterTheDirectory : Prop :=
  (∀ (b : Fin 1024) (ingot : Nat) (s : State), s.storeTakes = false → exec (.ingotScrub b ingot) s = .next s) ∧
  ∀ (b : Fin 1024) (ingot : Nat) (s : State), ingot < s.elN O.TRACE_INGOTS 0 → ownerFree ≤ s.ingotHolder ingot →
    s.mode.safe = false → s.mode.recovery = none → s.storeTakes = true → (∀ r ∈ s.storeReqs, r.ingot ≠ ingot) →
    (∀ p ∈ s.staging, ∀ x, p.2 = some x → x.ingot ≠ ingot) →
    ∃ u, exec (.ingotScrub b ingot) s = .next u ∧
      (∀ a, cellAddr ingot 0 ≤ a → a < cellAddr (ingot + 1) 0 → u.byteAt a = 0#8) ∧
      (∀ a, a < cellAddr ingot 0 ∨ cellAddr (ingot + 1) 0 ≤ a → u.byteAt a = s.byteAt a) ∧
      (∀ c, c < 1024 → u.poisoned ingot c = false) ∧
      (s.elB O.BENCH_DEFINED b = true → (s.dir b).length < s.elN O.INGOT_QUOTA b →
        u.dir b = s.dir b ++ [{ ingot := ingot, state := if (s.dir b).length < s.elN O.GOLD_INGOTS b then 1 else 0 }] ∧
        u.ingotHolder ingot = b ∧ fld (u.el O.BENCH_STATUS b) 63 32 = ((s.dir b).length + 1) % 2 ^ 32) ∧
      (s.elB O.BENCH_DEFINED b = false ∨ s.elN O.INGOT_QUOTA b ≤ (s.dir b).length →
        u.ingotHolder ingot = ownerFree ∧ u.dir b = s.dir b)

/-- OWNERSHIP_REQUEST, WRITE_BACK and LINE_MEMORY_DONE (R272, Table 7.8): a free line is granted and its memory read begins; a held
one passes to the requester; a request waits behind a write-back or a memory read. What comes in one CTL cycle takes effect from how
the line stood before it, the write-back first and then the requests by ascending core, however they arrive. Only the holder writes a
line back. When the write-back has reached memory the lowest waiting core is granted and the others retry; when the read is done the
line passes along the requests that waited. Nothing but the line changes. (That a request waits behind a memory read in the order it
came is the model's choice: log entry 91.) -/
def Obligations.OwnershipOfALinePassesInOrder : Prop :=
  (∀ (core : Fin 4) (k : Nat) (s : State),
    ∃ u, exec (.ownershipRequest core k) s = .next u ∧ (∀ j, j ≠ k → u.line j = s.line j) ∧ u.elems = s.elems ∧ u.out = s.out ∧
      core.val ∉ (u.line k).retry ∧
      ((s.line k).cycle ≠ s.ctlCycle →
        ((s.line k).wb = none → (s.line k).reading = none → (u.line k).owner = some core.val ∧
          (u.line k).reading = (if (s.line k).owner = none then some core.val else none)) ∧
        ((s.line k).wb ≠ none ∨ (s.line k).reading ≠ none → core.val ∈ (u.line k).waiting ∧ (u.line k).owner = (s.line k).owner)) ∧
      ((s.line k).cycle = s.ctlCycle →
        (u.line k).toHolding =
          ((List.range 4).filter (fun c => decide (c = core.val) || (s.line k).asked.contains c)).foldl requestLine
            (match (s.line k).back with
              | none => (s.line k).before
              | some c => writeBackLine (s.line k).before c))) ∧
  (∀ (core : Fin 4) (k : Nat) (s : State),
    ∃ u, exec (.writeBack core k) s = .next u ∧ (∀ j, j ≠ k → u.line j = s.line j) ∧ u.elems = s.elems ∧ u.out = s.out ∧
      ((s.line k).cycle ≠ s.ctlCycle →
        ((s.line k).heldBy core.val = true → (u.line k).owner = none ∧ (u.line k).wb = some core.val) ∧
        ((s.line k).heldBy core.val = false → u.line k = s.line k)) ∧
      ((s.line k).cycle = s.ctlCycle →
        ((s.line k).before.heldBy core.val = true → (u.line k).toHolding =
          ((List.range 4).filter (fun c => (s.line k).asked.contains c)).foldl requestLine (writeBackLine (s.line k).before core.val)) ∧
        ((s.line k).before.heldBy core.val = false →
          ((s.line k).heldBy core.val = true → (u.line k).toHolding = writeBackLine (s.line k).toHolding core.val) ∧
          ((s.line k).heldBy core.val = false → u.line k = s.line k)))) ∧
  (∀ (k : Nat) (s : State),
    ∃ u, exec (.lineMemoryDone k) s = .next u ∧ (∀ j, j ≠ k → u.line j = s.line j) ∧ u.elems = s.elems ∧ u.out = s.out ∧
      ((s.line k).wb ≠ none → (u.line k).wb = none ∧ (u.line k).waiting = [] ∧
        (∀ c, c ∈ (s.line k).waiting → (∀ d ∈ (s.line k).waiting, c ≤ d) → (u.line k).owner = some c ∧ (u.line k).reading = some c ∧
          ∀ d ∈ (s.line k).waiting, d ≠ c → d ∈ (u.line k).retry)) ∧
      ((s.line k).wb = none → (s.line k).reading ≠ none → (u.line k).reading = none ∧ (u.line k).waiting = [] ∧
        (u.line k).owner = ((s.line k).waiting.getLast?).or (s.line k).owner))

/-! ## Queues and the cell pool -/

/-- Q_CLAIM and Q_RELEASE (R273, R280, R312): a bench below its quota claims a queue that is free, and its counters are 0; a queue of
another bench or of the module is refused with `DENIED`, one more than the quota with `NO_RESOURCE`. Its owner releases a queue that no
armed acquisition uses: it is free, empty and at its defaults; one in use is refused with `BUSY`, another bench's with `DENIED`. -/
def Obligations.QueuesBelongToOneBench : Prop :=
  ∀ (via : Via) (b : Nat) (v : W64) (s a : State), b < 1024 →
    (a = asked via O.Q_CLAIM s → Passes via O.Q_CLAIM b v s →
      (v.toNat < 16128 → a.elN O.Q_OWNER v.toNat = noBench → (a.queuesOf b).length < a.elN O.QUEUE_QUOTA b →
        ∃ x, exec (.qClaim via b v) s = .next (accepted via O.Q_CLAIM b x) ∧ x.elN O.Q_OWNER v.toNat = b ∧
          x.elN O.Q_LOST v.toNat = 0 ∧ x.elN O.Q_DISCARDED v.toNat = 0 ∧ x.inner = a.inner ∧ x.out = a.out ∧
          sameElems [(O.Q_OWNER, v.toNat), (O.Q_LOST, v.toNat), (O.Q_DISCARDED, v.toNat)] a x) ∧
      (16128 ≤ v.toNat ∨ (a.elN O.Q_OWNER v.toNat ≠ noBench ∧ a.elN O.Q_OWNER v.toNat ≠ b) →
        exec (.qClaim via b v) s = .next (refusedWith via O.Q_CLAIM b .denied s)) ∧
      (v.toNat < 16128 → a.elN O.Q_OWNER v.toNat = noBench → a.elN O.QUEUE_QUOTA b ≤ (a.queuesOf b).length →
        exec (.qClaim via b v) s = .next (refusedWith via O.Q_CLAIM b .noResource s))) ∧
    (a = asked via O.Q_RELEASE s → Passes via O.Q_RELEASE b v s →
      (v.toNat < 16384 → a.elN O.Q_OWNER v.toNat = b → a.queueInUse b v.toNat = false →
        ∃ x, exec (.qRelease via b v) s = .next (accepted via O.Q_RELEASE b x) ∧ x.elN O.Q_OWNER v.toNat = noBench ∧
          (x.queue v.toNat).pkts = [] ∧ x.elN O.EVENT_QUEUE b ≠ v.toNat ∧ x.mem = s.mem ∧
          (∀ o ∈ [O.Q_CONFIG, O.Q_HOST, O.RING_BASE, O.RING_WB_ADDR, O.RING_PROD, O.HOST_CONS, O.READOUT_RANGE],
            x.el o v.toNat = elemDefault (o.key v.toNat)) ∧
          (∀ q, q ≠ v.toNat → x.queue q = a.queue q)) ∧
      (v.toNat < 16384 → a.elN O.Q_OWNER v.toNat = b → a.queueInUse b v.toNat = true →
        exec (.qRelease via b v) s = .next (refusedWith via O.Q_RELEASE b .busy s)) ∧
      (16384 ≤ v.toNat ∨ a.elN O.Q_OWNER v.toNat ≠ b →
        exec (.qRelease via b v) s = .next (refusedWith via O.Q_RELEASE b .denied s)))

/-- Q_FLUSH, Q_RESET, Q_POP, QUEUE_POINTER and QUEUE_RESET_SWEEP_DONE (R288, R289, R301-R303): a flush discards and counts what is
complete, and waits for a packet being filled; a reset empties the queue, `Q_CONS` at `Q_PROD`, its generation one higher; a pointer
mismatch forces it and faults an armed owner; the sweep ends it, and a forced one raises its `QUEUE_POINTER` record then. A reset
discards from a cut-through queue the packet that is being filled, too (R287). A pop gives the words of the head packet, each with
VALID, which leaves with its last word; an empty queue gives 0. (The packets are of benches.) (A packet whose words are partly read: log
entry 32; that a value other than 1 is refused, and what a reset does with the packet that a stream is filling and when its record
comes, are the model's choices: log entries 29 and 33.) -/
def Obligations.QueuesAreFlushedResetAndPopped : Prop :=
  (∀ (via : Via) (q : Nat) (v : W64) (s a : State), q < 16384 → (∀ p b, (s.packet p).bench = some b → b < 1024) →
    (a = asked via O.Q_FLUSH s → Passes via O.Q_FLUSH q v s →
      (v = 1#64 → (a.queue q).resetting = false → (a.queue q).flushing = false → (a.queue q).inTransfer = false →
        ∃ x, exec (.qFlush via q v) s = .next (accepted via O.Q_FLUSH q x) ∧ (x.queue q).pkts = [] ∧
          x.elN O.Q_CONS q = (a.elN O.Q_CONS q + (a.queue q).pkts.length) % 2 ^ 32 ∧
          x.el O.Q_DISCARDED q = satAdd (a.el O.Q_DISCARDED q) (a.queue q).pkts.length ∧
          (x.queue q).flushPkt = (if a.qFilling q = none then (a.queue q).flushPkt else a.qFilling q) ∧ x.out = a.out ∧ x.mem = s.mem) ∧
      (v ≠ 1#64 → exec (.qFlush via q v) s = .next (refusedWith via O.Q_FLUSH q .invalid s)) ∧
      (v = 1#64 → (a.queue q).resetting = true → exec (.qFlush via q v) s = .next (refusedWith via O.Q_FLUSH q .busy s))) ∧
    (a = asked via O.Q_RESET s → Passes via O.Q_RESET q v s →
      (v = 1#64 →
        ∃ x, exec (.qReset via q v) s = .next (accepted via O.Q_RESET q x) ∧ (x.queue q).resetting = true ∧
          (x.queue q).forced = false ∧ (x.queue q).pkts = [] ∧ (x.queue q).gen = ((a.queue q).gen + 1) % 65536 ∧
          x.el O.Q_CONS q = a.el O.Q_PROD q ∧ x.el O.Q_DISCARDED q =
            satAdd (a.el O.Q_DISCARDED q) ((a.queue q).pkts.length + (a.linksFilling q).toNat) ∧
          (a.linksFilling q = true → (x.stream (qSource (a.el O.Q_CONFIG q))).noDrain = true) ∧ x.out = a.out ∧ x.mem = s.mem) ∧
      (v ≠ 1#64 → exec (.qReset via q v) s = .next (refusedWith via O.Q_RESET q .invalid s))) ∧
    (Serves via O.Q_POP q s → s.qKind q ≠ 1 →
      ((s.queue q).resetting = true ∨ (s.queue q).pkts = [] →
        exec (.qPop via q) s = .next (answered via O.Q_POP q 0#64 s)) ∧
      (∀ id rest w, (s.queue q).resetting = false → (s.queue q).pkts = id :: rest → (s.packet id).words[(s.queue q).popAt]? = some w →
        (bit w 62 = false →
          exec (.qPop via q) s = .next (answered via O.Q_POP q (setBit w 63 true)
            (s.setQueue q { s.queue q with popAt := (s.queue q).popAt + 1 }))) ∧
        (bit w 62 = true →
          ∃ x, exec (.qPop via q) s = .next (answered via O.Q_POP q (setBit w 63 true) x) ∧ (x.queue q).pkts = rest ∧ (x.queue q).popAt = 0 ∧
            x.elN O.Q_CONS q = (s.elN O.Q_CONS q + 1) % 2 ^ 32 ∧ x.out = s.out)))) ∧
  (∀ (q : Fin 16384) (s : State),
    (∃ u, exec (.queuePointer (.queue q)) s = .next u ∧ (u.queue q).resetting = true ∧ (u.queue q).forced = true ∧
      (u.queue q).record = true ∧ (u.queue q).pkts = [] ∧ u.mem = s.mem) ∧
    (∀ b : Fin 1024, (s.queue q).pkts = [] → s.elN O.Q_OWNER q = b → s.isArmed b = true → (s.bench b).fault = none →
      ∃ u, exec (.queuePointer (.queue q)) s = .next u ∧ (u.bench b).fault = some .queueReset) ∧
    ((s.queue q).resetting = true → ∃ t, (t.queue q).resetting = false ∧ t.clock = max s.clock ((s.queue q).resetAt + sweepTime) ∧
      t.elems = s.elems ∧ t.out = s.out ∧
      ((s.queue q).record = false → exec (.queueResetSweepDone q) s = .next t) ∧
      ((s.queue q).record = true → exec (.queueResetSweepDone q) s = .next (raiseError 0x50 1 5 q (s.elN O.Q_OWNER q) 0#64 t)))) ∧
  (∀ (k : Fin 16384) (s : State),
    ∃ u, exec (.queuePointer (.storeList k)) s = .next u ∧ (∀ r, r ∈ u.storeReqs ↔ r ∈ s.storeReqs ∧ r.writesFor k = false) ∧
      u.mem = s.mem)

/-- ALLOC_ROUND (R276-R278, R296-R298), with no host write held and the pool whole: a bench's request for what a packet of its class
takes, whose cells leave every other bench its unused reserve and keep it within its own limit, is granted all its cells as one packet,
charged to the bench; else nothing is granted, `ALLOC_REFUSED` counts it, and an open stream that asked for a store cell loses its row. Of
two requests of a bench that exceed its limit together the one of the higher class is granted, whatever their order. A request for
another number of cells is none, and what a round grants waits for the command that uses it: the model's choices, log entry 103. -/
def Obligations.AllocatorGrantsPacketsInOrder : Prop :=
  ∀ (r : AllocReq) (b : Fin 1024) (s : State), s.held = [] → s.elN O.POOL_MODE 0 = 0 → r.bench = some b → r.cls ≠ .assay →
    r.service = none →
    (rightCells r = false → exec (.allocRound [r]) s = .next s) ∧
    (rightCells r = true → r.cells + s.othersReserve (some b.val) ≤ s.poolFree →
      s.elN O.BENCH_CELLS b + r.cells ≤ s.elN O.CELL_LIMIT b →
      (∃ u, exec (.allocRound [r]) s = .next u ∧ u.granted = s.granted ++ [(r, s.nextPkt)] ∧ u.nextPkt = s.nextPkt + 1 ∧
        (u.packet s.nextPkt).cells.length = r.cells ∧ (u.packet s.nextPkt).bench = some b.val ∧
        u.elN O.BENCH_CELLS b = s.elN O.BENCH_CELLS b + r.cells ∧ sameElems [(O.BENCH_CELLS, b.val)] s u ∧
        u.out = s.out ∧ u.mem = s.mem) ∧
      (∀ r1 : AllocReq, classNum r.cls < classNum r1.cls → r1.bench = some b →
        s.elN O.CELL_LIMIT b < s.elN O.BENCH_CELLS b + r.cells + r1.cells →
        ∃ u, exec (.allocRound [r1, r]) s = .next u ∧ u.granted = s.granted ++ [(r, s.nextPkt)] ∧ u.nextPkt = s.nextPkt + 1)) ∧
    (rightCells r = true →
      s.poolFree < r.cells + s.othersReserve (some b.val) ∨ s.elN O.CELL_LIMIT b < s.elN O.BENCH_CELLS b + r.cells →
      ∃ u, exec (.allocRound [r]) s = .next u ∧ u.el O.ALLOC_REFUSED b = satAdd (s.el O.ALLOC_REFUSED b) 1 ∧
        sameElems [(O.ALLOC_REFUSED, b.val)] s u ∧ u.granted = s.granted ∧ u.nextPkt = s.nextPkt ∧ u.packets = s.packets ∧
        u.out = s.out ∧ u.mem = s.mem ∧
        (r.cls = .acquisition → r.cells = 4 → (s.stream (16 * b.val + r.tile.val)).open_ = true →
          (s.stream (16 * b.val + r.tile.val)).inHand = none → (u.stream (16 * b.val + r.tile.val)).refused = true))

/-- FREE_LIST, POOL_UE and QUIESCE_DRAIN_TIMEOUT (R302, R307, R308, R310): a free-list mismatch takes the module to `RECOVERY`; an
uncorrectable error of a bank fences it, resets every queue that holds a cell of it and partitions the pool; 100 ms after entry to
`QUIESCE` the drain queues are empty, what they held counted as discarded. (`FREE_LIST` as the mismatch of R302: log entry
120.) -/
def Obligations.PoolErrorsAreContained : Prop :=
  (∀ s : State, ∃ u, exec .freeList s = .next u ∧ u.mode.recovery = some (s.mode.recovery.getD 0x52) ∧
    (s.mode.safe = false → u.elN O.MODULE_MODE 0 = 9) ∧ u.mem = s.mem) ∧
  (∀ (bank : Fin 8) (s : State), ∃ u, exec (.poolUe bank) s = .next u ∧ bank.val ∈ u.fencedBanks ∧ u.elN O.POOL_MODE 0 = 1 ∧
    u.mode.poolBank = true ∧ u.bankFree bank = 0 ∧ u.mem = s.mem ∧
    (∀ q ∈ s.queuesInBank bank, q < 16384 → (u.queue q).resetting = true ∧ (u.queue q).forced = true ∧ (u.queue q).pkts = [])) ∧
  (∀ s : State, s.mode.base = .quiesce →
    ∃ u, exec .quiesceDrainTimeout s = .next u ∧ u.clock = max s.clock (s.quiesceSince + 100 * ms) ∧ u.mem = s.mem ∧
      (∀ q, s.qKind q = 1 → (u.queue q).pkts = []) ∧
      ((∀ p b, (s.packet p).bench = some b → b < 1024) → (∀ p ∈ s.queues, p.1 < 16384) → ∀ q, q < 16384 → s.qKind q = 1 →
        u.el O.Q_DISCARDED q = satAdd (s.el O.Q_DISCARDED q) (s.queue q).pkts.length))

/-! ## Host ports -/

/-- Q_HOST, DB_CONS and MSIX_MESSAGE (R402, R403, R406, R407, R419): a drain queue's owner binds it to a function of the bench, and
setting `ENABLE` zeroes the ring's indices; a binding to another function is refused with `DENIED`, a ring outside 2^4-2^20 slots with
`INVALID_VALUE`, a change of an enabled one's function with `BUSY` (the order of these refusals is the model's choice: log entry 107).
In W-DBL a doorbell of 4 or of 8 bytes, its upper half ignored, within the ring is the new `HOST_CONS`, one beyond it is counted; one
in another function's window, of another size or alignment, or at another offset of the entry is discarded. A write of the MSI-X table
sets its doubleword. A read gives the entry's `HOST_CONS` and `RING_PROD`, zeros for another function, and one of another size or
alignment is an Unsupported Request. A pending vector that nothing blocks sends its message, with its table entry's address and data,
once its gap has passed. (That DB_CONS carries every access of W-DBL: log entry 109.) -/
def Obligations.HostBindingsDoorbellsAndMessages : Prop :=
  (∀ (via : Via) (q : Nat) (v : W64) (s a : State), q < 16384 → a = asked via O.Q_HOST s → Passes via O.Q_HOST q v s →
    (a.mayBind q (qhFunc v) = false ∨ (qhRelaxed v = true ∧ a.privDrain q = false) →
      exec (.qHost via q v) s = .next (refusedWith via O.Q_HOST q .denied s)) ∧
    (a.mayBind q (qhFunc v) = true → (qhRelaxed v = true → a.privDrain q = true) →
      (qhLog2 v < 4 ∨ 20 < qhLog2 v ∨ fld v 63 18 ≠ 0 ∨ (a.qKind q ≠ 1 ∧ (qhEnable v = true ∨ qhRelaxed v = true)) →
        exec (.qHost via q v) s = .next (refusedWith via O.Q_HOST q .invalid s)) ∧
      (4 ≤ qhLog2 v → qhLog2 v ≤ 20 → fld v 63 18 = 0 → a.qKind q = 1 →
        (qhEnable (a.el O.Q_HOST q) = true → qhFunc v ≠ qhFunc (a.el O.Q_HOST q) ∨ qhLog2 v ≠ qhLog2 (a.el O.Q_HOST q) →
          exec (.qHost via q v) s = .next (refusedWith via O.Q_HOST q .busy s)) ∧
        (qhEnable (a.el O.Q_HOST q) = false →
          ∃ x, exec (.qHost via q v) s = .next (accepted via O.Q_HOST q x) ∧ x.el O.Q_HOST q = v ∧
            (qhEnable v = true → x.el O.RING_PROD q = 0#64 ∧ x.el O.HOST_CONS q = 0#64) ∧
            sameElems ([(O.Q_HOST, q)] ++ if qhEnable v then [(O.RING_PROD, q), (O.HOST_CONS, q)] else []) a x ∧
            x.inner = a.inner ∧ x.out = a.out)))) ∧
  (∀ (f : Fin 1024) (q : Fin 16384) (bytes : List Byte) (s : State), s.memOn f = true → s.holdsWrite f = false →
    (bytes.length = 4 ∨ bytes.length = 8 →
      (s.qFunc q ≠ f → exec (.dbCons f (256 * q.val) (.write bytes)) s = .next s) ∧
      (∀ i : Nat, 0 < i → i < 256 → exec (.dbCons f (256 * q.val + i) (.write bytes)) s = .next s) ∧
      (s.qFunc q = f →
        ((natLE (bytes.take 4) + 2 ^ 32 - s.elN O.HOST_CONS q) % 2 ^ 32 ≤ s.ringHeld q →
          exec (.dbCons f (256 * q.val) (.write bytes)) s = .next (s.setN O.HOST_CONS q (natLE (bytes.take 4)))) ∧
        (s.ringHeld q < (natLE (bytes.take 4) + 2 ^ 32 - s.elN O.HOST_CONS q) % 2 ^ 32 →
          exec (.dbCons f (256 * q.val) (.write bytes)) s = .next (s.inc O.DB_REJECTED q)))) ∧
    (∀ off : Nat, aligned48 off bytes.length = false → exec (.dbCons f off (.write bytes)) s = .next s ∧
      exec (.dbCons f off (.read bytes.length)) s = .next (s.send (.unsupported f))) ∧
    exec (.dbCons f (256 * q.val) (.read 4)) s =
      .next (s.send (.storeData f (bytesLE 4 (if s.qFunc q = f then s.elN O.HOST_CONS q else 0)))) ∧
    exec (.dbCons f (256 * q.val + 8) (.read 4)) s =
      .next (s.send (.storeData f (bytesLE 4 (if s.qFunc q = f then s.elN O.RING_PROD q else 0))))) ∧
  (∀ (f : Fin 1024) (vec : Fin 2048) (bytes : List Byte) (s : State), s.memOn f = true → s.holdsWrite f = false → bytes.length = 4 →
    (∃ u, exec (.dbCons f (0x400000 + 16 * vec.val) (.write bytes)) s = .next u ∧ u.elems = s.elems ∧ u.out = s.out ∧
      u.vec f vec = { s.vec f vec with addr := setFld (s.vec f vec).addr 31 0 (natLE bytes) }) ∧
    (∃ u, exec (.dbCons f (0x400000 + 16 * vec.val + 8) (.write bytes)) s = .next u ∧ u.elems = s.elems ∧ u.out = s.out ∧
      u.vec f vec = { s.vec f vec with data := BitVec.ofNat 32 (natLE bytes) }) ∧
    (∃ u, exec (.dbCons f (0x400000 + 16 * vec.val + 12) (.write bytes)) s = .next u ∧ u.elems = s.elems ∧
      (u.vec f vec).masked = decide (natLE bytes % 2 = 1))) ∧
  (∀ (f : Fin 1024) (vec : Fin 2048) (s : State),
    ((s.vec f vec).pending = false → exec (.msixMessage f vec) s = .next s) ∧
    ((s.vec f vec).pending = true → (s.vec f vec).masked = true →
      ∃ u, exec (.msixMessage f vec) s = .next u ∧ u.out = s.out ∧ (u.vec f vec).pending = true) ∧
    ((s.vec f vec).pending = true → (s.vec f vec).masked = false → (s.func f).msixEnable = true → (s.func f).msixMask = false →
      (s.func f).bme = true → (s.func f).d3hot = false →
      ∃ u, exec (.msixMessage f vec) s = .next u ∧ u.out = s.out ++ [.msix f vec (s.vec f vec).addr (s.vec f vec).data] ∧ (u.vec f vec).pending = false ∧
        u.elems = s.elems ∧
        (∀ t, (s.vec f vec).sentAt = some t → u.clock = max s.clock (t + s.elN O.MSIX_MIN_GAP_NS f * ns))))

/-- DRAIN_TRANSFER, READOUT_START, READOUT_STOP and READOUT_CELL (R287, R288, R402, R404, R405, R410, R411): a port's engine writes the
head packet of the queue it picks into its ring slot, then the write-back with the new index and the lost packets, then the notice the
packet carries; the packet leaves. A readout reads the cells of its range in order, one packet each, until the last one or a stop, and
waits while its queue has no room or the store answers no read; a packet that completes while its queue is `FLUSHING` is discarded and
counted; a readout starts only on a `DRAIN` queue whose stream is not open. (One queue, a packet of one write; the packets are of
benches, and no waiting write names a cell.) (Where a readout that is stopped stops: log entry 108.) -/
def Obligations.DrainsAndReadoutsMoveCellsToTheHost : Prop :=
  (∀ (h : Fin 4) (q : Nat) (s : State),
    (drainPick h s = none → exec (.drainTransfer h) s = .next s) ∧
    (drainPick h s = some q → (∀ p b, (s.packet p).bench = some b → b < 1024) →
      (∀ id rest, (s.queue q).pkts = id :: rest → (s.queue q).sent = 0 → 0 < (s.packet id).bytes.length →
        (s.packet id).bytes.length ≤ (s.func (s.qFunc q)).payload → s.elN O.RING_WB_ADDR q ≠ 0 →
        ∃ u more, exec (.drainTransfer h) s = .next u ∧ (u.queue q).pkts = rest ∧ (u.queue q).inTransfer = false ∧
          u.elN O.RING_PROD q = (s.elN O.RING_PROD q + 1) % 2 ^ 32 ∧ u.elN O.Q_CONS q = (s.elN O.Q_CONS q + 1) % 2 ^ 32 ∧
          u.mem = s.mem ∧
          u.out = s.out ++ [.hostWrite (s.qFunc q) (s.elN O.RING_BASE q + 1024 * (s.elN O.RING_PROD q % 2 ^ qhLog2 (s.el O.Q_HOST q)))
              (s.packet id).bytes (s.relaxedNow q),
            .hostWrite (s.qFunc q) (s.elN O.RING_WB_ADDR q)
              (bytesLE 4 ((s.elN O.RING_PROD q + 1) % 2 ^ 32) ++ bytesLE 4 (s.elN O.Q_LOST q % 2 ^ 32)) false] ++ more ∧
          ((s.packet id).notice = none → more = []) ∧
          (∀ v, (s.packet id).notice = some v → s.present (s.qFunc q) = true → s.health.drainThrottle = false →
            vecReady (s.qFunc q) v s = true →
            more = [.msix (s.qFunc q) v (s.vec (s.qFunc q) v).addr (s.vec (s.qFunc q) v).data])) ∧
      ((s.queue q).pkts = [] →
        ∃ u, exec (.drainTransfer h) s = .next u ∧ (u.queue q).inTransfer = true ∧ (u.queue q).sent = (s.bytesSoFar q).length ∧
          (u.queue q).pkts = [] ∧ u.elems = s.elems))) ∧
  (∀ (via : Via) (q : Nat) (s a : State), q < 16384 → a = asked via O.READOUT_CMD s →
    (Passes via O.READOUT_CMD q 1#64 s →
      (a.qKind q = 1 → (a.stream (qSource (a.el O.Q_CONFIG q))).open_ = false → a.readoutState q ≠ readoutRunning →
        (1 ≤ rangeCount (a.el O.READOUT_RANGE q) →
          rangeFirst (a.el O.READOUT_RANGE q) + rangeCount (a.el O.READOUT_RANGE q) ≤ (a.dir (a.elN O.Q_OWNER q)).length →
          ∃ x, exec (.readoutStart via q) s = .next (accepted via O.READOUT_CMD q x) ∧ x.readoutState q = readoutRunning ∧
            (x.queue q).readAt = some (rangeFirst (a.el O.READOUT_RANGE q), 0,
              rangeFirst (a.el O.READOUT_RANGE q) + rangeCount (a.el O.READOUT_RANGE q)) ∧
            sameElems [(O.READOUT_STATUS, q)] a x ∧ x.mem = s.mem) ∧
        ((a.dir (a.elN O.Q_OWNER q)).length < rangeFirst (a.el O.READOUT_RANGE q) + rangeCount (a.el O.READOUT_RANGE q) →
          exec (.readoutStart via q) s = .next (refusedWith via O.READOUT_CMD q .invalid s))) ∧
      (a.qKind q = 1 → (a.stream (qSource (a.el O.Q_CONFIG q))).open_ = true ∨ a.readoutState q = readoutRunning →
        exec (.readoutStart via q) s = .next (refusedWith via O.READOUT_CMD q .busy s)) ∧
      (a.qKind q ≠ 1 → exec (.readoutStart via q) s = .next (refusedWith via O.READOUT_CMD q .invalid s))) ∧
    (Passes via O.READOUT_CMD q 2#64 s →
      (a.readoutState q = readoutRunning →
        ∃ x, exec (.readoutStop via q) s = .next (accepted via O.READOUT_CMD q x) ∧ x.readoutState q = readoutStopped ∧
          (x.queue q).readAt = none ∧ sameElems [(O.READOUT_STATUS, q)] a x) ∧
      (a.readoutState q ≠ readoutRunning → exec (.readoutStop via q) s = .next (accepted via O.READOUT_CMD q a)))) ∧
  (∀ (q : Fin 16384) (b : Fin 1024) (pos cell stop : Nat) (s : State), (s.queue q).readAt = some (pos, cell, stop) →
    s.elN O.Q_OWNER q = b →
    (nextCell b s (stop + 1 - pos) pos cell stop = none →
      ∀ errs : List Nat, ∃ u, exec (.readoutCell { q := q, errs := errs }) s = .next u ∧ u.readoutState q = readoutDone ∧
        (u.queue q).readAt = none ∧ sameElems [(O.READOUT_STATUS, q.val)] s u) ∧
    (∀ p c, nextCell b s (stop + 1 - pos) pos cell stop = some (p, c) →
      s.readoutWaits q = true ∨ s.frozenAt (s.readRank ((s.dir b).getD p { ingot := 0 }).ingot c) = true →
      ∀ errs : List Nat, exec (.readoutCell { q := q, errs := errs }) s = .next s) ∧
    (∀ p c, nextCell b s (stop + 1 - pos) pos cell stop = some (p, c) → s.readoutWaits q = false →
      s.frozenAt (s.readRank ((s.dir b).getD p { ingot := 0 }).ingot c) = false →
      s.grantOf .hostStaging (some b.val) 0 4 = none → mayGrant .hostStaging (some b.val) 0 4 s = true → s.storeReqs = [] →
      s.staging = [] → s.poisoned ((s.dir b).getD p { ingot := 0 }).ingot c = false →
      ∃ u, exec (.readoutCell { q := q }) s = .next u ∧
        fld (u.el O.READOUT_STATUS q) 63 32 = (fld (s.el O.READOUT_STATUS q) 63 32 + 1) % 2 ^ 32 ∧ u.mem = s.mem ∧
        ((s.queue q).flushing = false → (u.queue q).pkts = (s.queue q).pkts ++ [s.nextPkt] ∧
          (u.packet s.nextPkt).bytes = s.cellRaw ((s.dir b).getD p { ingot := 0 }).ingot c ∧ (u.packet s.nextPkt).complete = true) ∧
        ((s.queue q).flushing = true → (u.queue q).pkts = (s.queue q).pkts ∧
          u.el O.Q_DISCARDED q = satAdd (s.el O.Q_DISCARDED q) 1 ∧ u.elN O.Q_CONS q = (s.elN O.Q_CONS q + 1) % 2 ^ 32)))

/-- CONFIGURATION_REQUEST, HOST_LINK_UP, BUS_MASTER_ENABLE_CLEAR and BUS_MASTER_ENABLE_SET (R388, R389, R414, R415, Table 11.1): a
present function of a port that is up shows its identity and takes its Command register; one that is not present is an Unsupported
Request, and a port that is down answers nothing. A link that comes up shows in `HP_LINK`; a port whose PERST_N land is low or open
stays in reset (R498, R502), and a link of another rate than 2.5-64 GT/s or width than 1-16 lanes does not train (R387; the widths: log
entry 153). A function that may no longer issue requests stops its transfers and its fill, whose read that is out counts for nothing
any more (R414), and goes on when it may again, the fill from the bytes it has (R415). (The places of the registers: log entry 20.) -/
def Obligations.ConfigurationSpaceGovernsAFunction : Prop :=
  (∀ (f : Fin 1024) (s : State),
    ((s.port (f.val / 256)).up = true → s.present f = true →
      exec (.configurationRequest f 0 none) s = .next (s.send (.config f (if f.val % 256 = 0 then 0x02081F9B#32 else 0x02091F9B#32))) ∧
      exec (.configurationRequest f 8 none) s = .next (s.send (.config f 0x11800001#32)) ∧
      (∀ v : BitVec 32, ∃ u, exec (.configurationRequest f 4 (some v)) s = .next u ∧ (u.func f).bme = v.getLsbD 2 ∧
        (f.val % 256 = 0 → (u.func f).mse = v.getLsbD 1 ∧ (u.func f).intDisable = v.getLsbD 10) ∧
        (f.val % 256 ≠ 0 → (u.func f).mse = (s.func f).mse) ∧ u.mem = s.mem)) ∧
    ((s.port (f.val / 256)).up = true → s.present f = false → ∀ (reg : Nat) (wr : Option (BitVec 32)),
      exec (.configurationRequest f reg wr) s = .next (s.send (.unsupported f))) ∧
    ((s.port (f.val / 256)).up = false → ∀ (reg : Nat) (wr : Option (BitVec 32)), exec (.configurationRequest f reg wr) s = .next s)) ∧
  (∀ (h : Fin 4) (perst flit : Bool) (rate : Fin 8) (width : Fin 32) (s : State),
    s.mode.base = .cold ∨ perst = false ∨ trains rate width = false →
    exec (.hostLinkUp { h := h, perst := perst } flit rate width) s = .next s) ∧
  (∀ (h : Fin 4) (flit : Bool) (rate : Fin 8) (width : Fin 32) (s : State), s.mode.base ≠ .cold → trains rate width = true →
    ∃ u, exec (.hostLinkUp { h := h } flit rate width) s = .next u ∧ (u.port h).up = true ∧ (u.port h).rate = rate ∧
      (u.port h).width = width ∧
      bit (u.el O.HP_LINK h) 0 = true ∧ fld (u.el O.HP_LINK h) 4 2 = rate ∧ fld (u.el O.HP_LINK h) 9 5 = width ∧ u.mem = s.mem) ∧
  (∀ (f : Fin 1024) (s : State), s.present f = true →
    (s.mayMaster f = true → ∀ d3 : Bool,
      ∃ u, exec (.busMasterEnableClear f d3) s = .next u ∧ u.mayMaster f = false ∧
        (∀ q ∈ s.queuesOfFunc f, (u.queue q).inTransfer = false) ∧
        (∀ x, (s.func f).fill = some x → (u.func f).fill = some { x with masterOff := true, asked := false } ∧
          (u.func f).stale = (s.func f).stale + x.asked.toNat) ∧
        u.out = s.out ∧ u.mem = s.mem) ∧
    (s.mayMaster f = false → (s.func f).d3hot = false →
      ∃ u, exec (.busMasterEnableSet f) s = .next u ∧ u.mayMaster f = true ∧ bit (u.el O.FUNC_STATE f) 1 = true ∧
        (u.func f).stale = (s.func f).stale ∧
        (∀ x, (s.func f).fill = some x → ∃ y, (u.func f).fill = some y ∧ (x.masterOff = true → y.masterOff = false) ∧ y.done = x.done ∧
          y.buf = x.buf ∧ (x.masterOff = true → s.fillHeld f = false → y.asked = true)) ∧
        u.mem = s.mem))

/-- FUNCTION_LEVEL_RESET, VF_ENABLE_CLEAR and HOST_PORT_RESET (R256, R262, R365, R391, R416): of every function that is lost the
configuration space is at its defaults, the locks it held are broken, its queues' `ENABLE` is clear and its copy of the caller-local
objects is at its defaults. A reset loses the function, with a physical one its virtual ones; a function that is not there is not reset;
clearing `VF Enable` loses every virtual function of the port, a port reset every function of it, with the link down and PERST_N, where
it is the cause, low. The completions of reads that are out count for nothing any more, but after a port reset. (The defaults of
configuration space, `NumVFs` at a reset, and what the copy shows of a fill that ended so: log entries 20, 110 and 172.) -/
def Obligations.LostFunctionsLeaveNothingRunning : Prop :=
  (∀ (f : Fin 1024) (s : State), s.present f = false → exec (.functionLevelReset f) s = .next s) ∧
  (∀ (f : Fin 1024) (s : State), s.present f = true →
    ∃ u, exec (.functionLevelReset f) s = .next u ∧ (f.val % 256 = 0 → (u.port (f.val / 256)).vfEnable = false) ∧ u.mem = s.mem ∧
      ∀ v, v = f.val ∨ (f.val % 256 = 0 ∧ v ∈ s.presentVfs (f.val / 256)) →
        u.func v = { stale := (s.func v).dropFill.stale } ∧ FuncGone v s u) ∧
  (∀ (h : Fin 4) (s : State),
    ∃ u, exec (.vfEnableClear h) s = .next u ∧ (u.port h).vfEnable = false ∧ bit (u.el O.HP_LINK h) 18 = false ∧ u.mem = s.mem ∧
      ∀ v ∈ s.presentVfs h, u.present v = false ∧ u.func v = { stale := (s.func v).dropFill.stale } ∧ FuncGone v s u) ∧
  (∀ (h : Fin 4) (kind : PortReset) (s : State),
    ∃ u, exec (.hostPortReset h kind) s = .next u ∧ (u.port h).up = false ∧ (u.port h).vfEnable = false ∧
      (kind = .perst → (u.port h).perst = false) ∧ bit (u.el O.HP_LINK h) 0 = false ∧ u.mem = s.mem ∧
      ∀ f ∈ portFuncs h, s.present f = true → u.func f = {} ∧ FuncGone f s u)

/-- W_STORE_WRITE, W_STORE_READ and STAGING_CELL_TIMEOUT (R218, R305, R322, R331, R394, R397, R398): a write outside the golden ingots
and one to an armed bench are discarded, each with its counter; the bytes of another one wait in the function's staging cell, over
those before them, and are committed as one store request 1 µs after the last. A read returns the bytes stored, with any byte
enables; beyond the positions held, and before the delays are loaded, it is an Unsupported Request; during a speed change it is held. A
function that takes no memory request has its write discarded and its read refused. (An access within one cell; no write waits.)
(A write partly outside, held writes, a read before the delays are loaded, and the bytes not enabled: log entries 100, 101, 102 and
171.) -/
def Obligations.HostWritesAreStaged : Prop :=
  (∀ (f : Fin 1024) (off : StoreOffset) (len : Nat) (bytes : List Byte) (s : State), s.memOn f = false →
    exec (.wStoreWrite f off.off bytes) s = .next s ∧
    ((s.port (f.val / 256)).up = true → exec (.wStoreRead f off len) s = .next (s.send (.unsupported f)))) ∧
  (∀ (f b : Fin 1024) (off : Nat) (bytes : List Byte) (s : State), s.memOn f = true → s.holdsWrite f = false →
    s.binding f = some b.val →
    (min (s.elN O.GOLD_INGOTS b) (s.dir b).length * 2 ^ 20 < s.storeAddr f off + bytes.length →
      exec (.wStoreWrite f off bytes) s = .next (s.inc O.STORE_WRITE_DROPPED b)) ∧
    (s.storeAddr f off + bytes.length ≤ min (s.elN O.GOLD_INGOTS b) (s.dir b).length * 2 ^ 20 →
      (s.isArmed b = true → exec (.wStoreWrite f off bytes) s = .next (s.inc O.GOLD_WRITE_DROPPED b)) ∧
      (∀ (ingot cell : Nat) (new : List (Nat × Byte)), s.isArmed b = false → bytes ≠ [] →
        s.storeAddr f off % 1024 + bytes.length < 1024 → s.held = [] →
        s.spaceCell b (s.storeAddr f off / 1024 * 1024) = some (ingot, cell) →
        new = bytes.mapIdx (fun i x => (s.storeAddr f off % 1024 + i, x)) →
        (s.stage f = none → s.grantOf .hostStaging (some b.val) 0 4 = none → mayGrant .hostStaging (some b.val) 0 4 s = true →
          ∃ u, exec (.wStoreWrite f off bytes) s = .next u ∧
            u.stage f = some { ingot := ingot, cell := cell, bench := b, pkt := s.nextPkt, bytes := new, since := s.clock } ∧
            u.elN O.BENCH_CELLS b = s.elN O.BENCH_CELLS b + 4 ∧ u.out = s.out ∧ u.mem = s.mem) ∧
        (∀ x, s.stage f = some x → x.ingot = ingot → x.cell = cell → (packBytes new x.bytes).length < 1024 →
          ∃ u, exec (.wStoreWrite f off bytes) s = .next u ∧
            u.stage f = some { x with bytes := packBytes new x.bytes, since := s.clock } ∧ u.out = s.out ∧ u.mem = s.mem)))) ∧
  (∀ (f b : Fin 1024) (off len : Nat) (s : State), s.memOn f = true → s.binding f = some b.val → s.holdsFor f = false →
    (∀ errs : List (List Nat),
      ((0 < len ∧ (s.dir b).length * 2 ^ 20 < s.storeAddr f off + len) ∨ s.calibrated = false →
        exec (.wStoreRead f { off := off, errs := errs } len) s = .next (s.send (.unsupported f))) ∧
      (s.storeAddr f off + len ≤ (s.dir b).length * 2 ^ 20 → s.calibrated = true → s.speedChange = true →
        exec (.wStoreRead f { off := off, errs := errs } len) s =
          .next { s with held := s.held ++ [{ func := f, bench := b, op := .read (s.storeAddr f off) len errs [] }] })) ∧
    (∀ (ingot cell : Nat) (enables : List Bool), s.storeAddr f off + len ≤ (s.dir b).length * 2 ^ 20 → s.storeTakes = true → s.frozen = [] → 0 < len →
      s.storeAddr f off % 1024 + len ≤ 1024 → s.elB O.RAW_COMPAT f = false → s.storeReqs = [] → s.staging = [] →
      s.spaceCell b (s.storeAddr f off / 1024 * 1024) = some (ingot, cell) → s.poisoned ingot cell = false →
      ∃ u before bs, exec (.wStoreRead f { off := off, enables := enables } len) s = .next u ∧ u.mem = s.mem ∧
        u.out = before ++ [.storeData f bs] ∧ bs.length = len ∧
        ∀ i, i < len → enables.getD i true = true →
          bs[i]? = some (s.byteAt (cellAddr ingot cell + s.storeAddr f off % 1024 + i)))) ∧
  (∀ (f : Fin 1024) (x : Staging) (s : State), s.stage f = some x →
    ∃ u, exec (.stagingCellTimeout f) s = .next u ∧ u.stage f = none ∧ u.clock = max s.clock (x.since + us) ∧ u.mem = s.mem ∧
      u.storeReqs = s.storeReqs ++ [{ cls := 4, bench := x.bench, func := some f.val, ingot := x.ingot, cell := x.cell,
                                      op := .hostWrite x.pkt x.bytes (decide (1024 ≤ x.bytes.length)) }])

/-- FILL_START, FILL_ABORT and FILL_READ_COMPLETION (R412, R413, R414): a fill of cells that lie in the golden ingots of an unarmed bench
starts with its first read, or as `MASTER_OFF`; while the bench is armed or a fill runs it is refused with `BUSY`, with an address that
is not 64-byte aligned, no cell, or a target past the golden ingots with `INVALID_VALUE`. An abort ends it after the cell in hand, at
once where there is none. A completion that brings part of a cell asks for what is missing; the last bytes of a cell make one whole
write of it, the fill counts it and goes on with the next cell, or ends with its last one or where it is to be aborted; an unsuccessful
completion ends the fill; one of a read sent before the function lost its right to issue requests counts for nothing. (One read out at a
time, and completions in the order of the reads: the model's choices, log entries 106 and 174.) -/
def Obligations.FillsRunCellByCell : Prop :=
  (∀ (f b : Fin 1024) (addr target n : Nat) (s a : State), a = asked (.wctl f) O.FILL_CMD s → a.binding f = some b.val →
    addr = a.elN O.FILL_HOST_ADDR (copyEl f 0) → target = a.elN O.FILL_TARGET (copyEl f 0) → n = a.elN O.FILL_CELLS (copyEl f 0) →
    (Passes (.wctl f) O.FILL_CMD (copyEl f 0) 1#64 s →
      (a.isArmed b = false → (a.func f).fill = none → addr % 64 = 0 → n ≠ 0 →
        target + n ≤ 1024 * min (a.elN O.GOLD_INGOTS b) (a.dir b).length →
        ∃ x, exec (.fillStart f) s = .next (accepted (.wctl f) O.FILL_CMD (copyEl f 0) x) ∧
          fld (x.el O.FILL_STATUS (copyEl f 0)) 2 0 = (if a.mayMaster f then fillRunning else fillMasterOff) ∧
          x.out = a.out ++ (if a.mayMaster f then [.hostRead f addr (min (a.func f).readSize 1024)] else []) ∧
          (x.func f).fill = some { addr := addr, target := target, total := n, done := 0, masterOff := !a.mayMaster f, aborting := false,
                                   buf := [], asked := a.mayMaster f } ∧
          sameElems [(O.FILL_STATUS, copyEl f 0)] a x ∧ x.mem = s.mem) ∧
      (a.isArmed b = true ∨ (a.func f).fill.isSome = true →
        exec (.fillStart f) s = .next (refusedWith (.wctl f) O.FILL_CMD (copyEl f 0) .busy s)) ∧
      (a.isArmed b = false → (a.func f).fill = none →
        addr % 64 ≠ 0 ∨ n = 0 ∨ 1024 * min (a.elN O.GOLD_INGOTS b) (a.dir b).length < target + n →
        exec (.fillStart f) s = .next (refusedWith (.wctl f) O.FILL_CMD (copyEl f 0) .invalid s))) ∧
    (Passes (.wctl f) O.FILL_CMD (copyEl f 0) 2#64 s →
      ((a.func f).fill = none → exec (.fillAbort f) s = .next (accepted (.wctl f) O.FILL_CMD (copyEl f 0) a)) ∧
      (∀ y, (a.func f).fill = some y →
        (y.masterOff = false ∨ a.fillHeld f = true →
          ∃ x, exec (.fillAbort f) s = .next (accepted (.wctl f) O.FILL_CMD (copyEl f 0) x) ∧
            (x.func f).fill = some { y with aborting := true } ∧ x.elems = a.elems) ∧
        (y.masterOff = true → a.fillHeld f = false →
          ∃ x, exec (.fillAbort f) s = .next (accepted (.wctl f) O.FILL_CMD (copyEl f 0) x) ∧ (x.func f).fill = none ∧
            fld (x.el O.FILL_STATUS (copyEl f 0)) 2 0 = fillAborted ∧ sameElems [(O.FILL_STATUS, copyEl f 0)] a x)))) ∧
  (∀ (f : Fin 1024) (ok : Bool) (bytes : List Byte) (s : State),
    (0 < (s.func f).stale →
      ∃ u, exec (.fillReadCompletion f ok bytes) s = .next u ∧ (u.func f).stale = (s.func f).stale - 1 ∧
        (u.func f).fill = (s.func f).fill ∧ u.elems = s.elems ∧ u.out = s.out ∧ u.mem = s.mem) ∧
    ((s.func f).stale = 0 → (∀ x, (s.func f).fill = some x → x.asked = false) → exec (.fillReadCompletion f ok bytes) s = .next s)) ∧
  (∀ (f b : Fin 1024) (bytes : List Byte) (x : Fill) (s : State), (s.func f).stale = 0 → (s.func f).fill = some x → x.asked = true →
    x.masterOff = false →
    (∃ u, exec (.fillReadCompletion f false bytes) s = .next u ∧ (u.func f).fill = none ∧
      fld (u.el O.FILL_STATUS (copyEl f 0)) 2 0 = fillHostError ∧ sameElems [(O.FILL_STATUS, copyEl f 0)] s u) ∧
    (x.buf.length + bytes.length < 1024 →
      ∃ u, exec (.fillReadCompletion f true bytes) s = .next u ∧ (u.func f).fill = some { x with buf := x.buf ++ bytes } ∧
        u.out = s.out ++ [.hostRead f (x.addr + 1024 * x.done + (x.buf.length + bytes.length))
          (min (s.func f).readSize (1024 - (x.buf.length + bytes.length)))] ∧ u.elems = s.elems) ∧
    (∀ ingot cell, x.buf.length + bytes.length = 1024 → s.binding f = some b.val → s.held = [] → s.stage f = none →
      s.spaceCell b ((x.target + x.done) * 1024) = some (ingot, cell) → s.grantOf .hostStaging (some b.val) 0 4 = none →
      mayGrant .hostStaging (some b.val) 0 4 s = true →
      ∃ u, exec (.fillReadCompletion f true bytes) s = .next u ∧ u.stage f = none ∧ u.mem = s.mem ∧
        fld (u.el O.FILL_STATUS (copyEl f 0)) 63 32 = (x.done + 1) % 2 ^ 32 ∧
        u.storeReqs = s.storeReqs ++ [({
          cls := 4, bench := b, func := some f.val, ingot := ingot, cell := cell
          op := .hostWrite s.nextPkt ((x.buf ++ bytes).mapIdx (fun j y => (j, y))) true } : StoreReq)] ∧
        (x.aborting = true → (u.func f).fill = none ∧ fld (u.el O.FILL_STATUS (copyEl f 0)) 2 0 = fillAborted) ∧
        (x.aborting = false → x.total ≤ x.done + 1 →
          (u.func f).fill = none ∧ fld (u.el O.FILL_STATUS (copyEl f 0)) 2 0 = fillDone) ∧
        (x.aborting = false → x.done + 1 < x.total →
          (u.func f).fill = some { x with done := x.done + 1, buf := [] } ∧
          u.out = s.out ++ [.hostRead f (x.addr + 1024 * (x.done + 1)) (min (s.func f).readSize 1024)])))

/-! ## The capture store -/

/-- STORE_CELL_ACCESS (R190, R323, R324, R334, R335, R337, R338, R340): in its pin slot a pseudo-channel performs the request it picks: a
write puts the packet's 1,024 bytes at the cell's address and clears its poison; a golden read puts the cell's bytes in the engine's
packet; an uncorrectable burst, outside the modes that freeze, poisons the cell. No other byte changes, and the request is gone. With
nothing to pick only time passes; while the store takes no request, or its controller is frozen, nothing happens. An uncorrectable
burst of the metadata reserve takes the module to `RECOVERY`. (The bytes of a burst in error are free values: log entry 96; that an access
reaches the reserve: log entry 97.) -/
def Obligations.StoreRequestsMoveWholeCells : Prop :=
  ∀ (c : Fin 256) (errs : List Nat) (t s : State), t = advanceTo (s.chan c).slotAt s →
    (s.storeTakes = false ∨ s.frozen.contains (c.val / 32) = true →
      ∀ x : CellAccess, exec (.storeCellAccess c x) s = .next s) ∧
    (s.storeTakes = true → s.frozen.contains (c.val / 32) = false →
      (pickReq c t = none → exec (.storeCellAccess c { bursts := errs }) s = .next t) ∧
      (∀ k : Fin 4, s.rankState (4 * (c.val / 32) + k.val) < rankRetired →
        ∃ u, exec (.storeCellAccess c { bursts := [2], reserve := some k }) s = .next u ∧
          u.mode.recovery = some (s.mode.recovery.getD 0x62) ∧ u.mem = s.mem ∧
          u.el O.RANK_UE (4 * (c.val / 32) + k.val) = satAdd (s.el O.RANK_UE (4 * (c.val / 32) + k.val)) 1) ∧
      (∀ i r, pickReq c t = some i → s.storeReqs[i]? = some r → s.canServe r = true →
        (∀ pkt k, r.op = .write pkt k → (s.packet pkt).bytes.length = 1024 →
          ∃ u, exec (.storeCellAccess c { bursts := errs }) s = .next u ∧ u.storeReqs = s.storeReqs.eraseIdx i ∧
            u.cellRaw r.ingot r.cell = (s.packet pkt).bytes ∧ u.poisoned r.ingot r.cell = false ∧
            (∀ a, a < cellAddr r.ingot r.cell ∨ cellAddr r.ingot r.cell + 1024 ≤ a → u.byteAt a = s.byteAt a) ∧ u.out = s.out) ∧
        (∀ pkt bs, r.op = .hostWrite pkt bs true →
          ∃ u, exec (.storeCellAccess c { bursts := errs }) s = .next u ∧ u.storeReqs = s.storeReqs.eraseIdx i ∧
            u.cellRaw r.ingot r.cell = wholeBytes bs ∧ u.poisoned r.ingot r.cell = false ∧
            (∀ a, a < cellAddr r.ingot r.cell ∨ cellAddr r.ingot r.cell + 1024 ≤ a → u.byteAt a = s.byteAt a) ∧ u.out = s.out) ∧
        (∀ e pkt, r.op = .goldRead e pkt → errs = [] → s.poisoned r.ingot r.cell = false →
          (s.engine e).rows ≠ [] ∨ (e < 4 ∧ s.elN O.AE_STATE e ≠ aeComparing) →
          ∃ u, exec (.storeCellAccess c { bursts := errs }) s = .next u ∧ u.storeReqs = s.storeReqs.eraseIdx i ∧
            (u.packet pkt).bytes = s.cellRaw r.ingot r.cell ∧ (u.packet pkt).complete = true ∧
            (u.engine e).ahead.map Prod.snd = (s.engine e).ahead.map Prod.snd ++ [pkt] ∧ u.out = s.out ∧ u.mem = s.mem) ∧
        (∀ e pkt, r.op = .goldRead e pkt → errs = [2] → s.freezes = false →
          ∃ u, exec (.storeCellAccess c { bursts := errs }) s = .next u ∧ u.poisoned r.ingot r.cell = true ∧
            ∀ a, a < cellAddr r.ingot r.cell ∨ cellAddr r.ingot r.cell + 1024 ≤ a → u.byteAt a = s.byteAt a)))

/-- REFRESH, SELF_REFRESH_ENTRY, STORE_SPEED, SPEED_CHANGE_DONE, DELAY_LOAD, TEMP_BAND_CHANGE and POISON_LIST_CLEAR (R327, R328,
R332-R336, R340, R508): a refresh keeps its bank's activate table within a window and starts an empty one in a new window, and applies
a temperature band that is due; a rank with no request and no background job enters self-refresh; a speed change, refused with `BUSY` under an armed bench or
a migration, puts every powered rank in self-refresh until it is done; loading the delays makes the store usable in the band of each
stack; a band of 5 °C is due from its change on, the end bands beyond 0 °C to 100 °C; clearing the poison list empties it and no mark
(that the marks and `POISON_COUNT` stay is the model's choice: log entry 129). -/
def Obligations.StoreUpkeepFollowsItsRules : Prop :=
  (∀ (c : Fin 256) (rank : Fin 4) (bank : Fin 32) (k : Nat) (s : State), k = bankNo c (32 * rank.val + bank.val) →
    ∃ u, exec (.refresh c rank bank) s = .next u ∧ (u.chan c).band = ((s.chan c).bandDue).getD (s.chan c).band ∧
      (u.chan c).bandDue = none ∧ (u.chan c).busy = (s.chan c).busy ∧
      (Tab.get (fun _ => 0) s.rowWindow k = s.window → u.rowTab k = Tab.get (fun _ => []) s.rowTabs k) ∧
      (Tab.get (fun _ => 0) s.rowWindow k ≠ s.window → u.rowTab k = []) ∧ u.elems = s.elems ∧ u.out = s.out ∧ u.mem = s.mem) ∧
  (∀ (r : Fin 32) (s : State), (s.rank r).selfRef = false → s.rankState r < rankRetired →
    (∀ q ∈ s.storeReqs, r.val ∉ s.reqRanks q) → s.jobOn r = false →
    ∃ u, exec (.selfRefreshEntry r) s = .next u ∧ (u.rank r).selfRef = true ∧
      u.clock = max s.clock ((s.rank r).lastReq + s.elN O.RANK_IDLE_NS 0 * ns) ∧ (∀ j, j ≠ r.val → u.rank j = s.rank j) ∧
      sameElems [(O.STORE_STATE, 0)] s u ∧ u.out = s.out ∧ u.mem = s.mem) ∧
  (∀ (via : Via) (v : W64) (s a : State),
    (a = asked via O.STORE_SPEED s → Passes via O.STORE_SPEED 0 v s →
      (a.armedBenches = [] → a.migrates = false →
        ∃ x, exec (.storeSpeed via v) s = .next (accepted via O.STORE_SPEED 0 x) ∧ x.el O.STORE_SPEED 0 = v ∧ x.speedChange = true ∧
          (∀ r ∈ a.poweredRanks, (x.rank r).selfRef = true) ∧
          (a.calibrated = true → a.frozen = [] → x.elN O.STORE_STATE 0 = 3) ∧
          sameElems [(O.STORE_SPEED, 0), (O.STORE_STATE, 0)] a x ∧ x.mem = s.mem) ∧
      (a.armedBenches ≠ [] ∨ a.migrates = true →
        exec (.storeSpeed via v) s = .next (refusedWith via O.STORE_SPEED 0 .busy s))) ∧
    (a = asked via O.DELAY_LOAD s → Passes via O.DELAY_LOAD 0 v s →
      ∃ x, exec (.delayLoad via v) s = .next (accepted via O.DELAY_LOAD 0 x) ∧ x.calibrated = true ∧
        (∀ c, c < 256 → (x.chan c).band = bandOf (w64Int (a.el O.TEMP_MC (1 + c / 32))) ∧ (x.chan c).bandDue = none) ∧
        x.elN O.STORE_STATE 0 ≠ 0 ∧ sameElems [(O.DELAY_TABLE_ID, 0), (O.STORE_STATE, 0)] a x ∧ x.mem = s.mem) ∧
    (a = asked via O.POISON_LIST_CLEAR s → Passes via O.POISON_LIST_CLEAR 0 v s → a.poisonUsed ≤ 4096 →
      ∃ x, exec (.poisonListClear via v) s = .next (accepted via O.POISON_LIST_CLEAR 0 x) ∧ x.poisonUsed = 0 ∧ x.poison = s.poison ∧
        (∀ i, i < a.poisonUsed → x.el O.POISON_LIST i = 0#64) ∧ x.el O.POISON_COUNT 0 = a.el O.POISON_COUNT 0 ∧ x.mem = s.mem)) ∧
  (∀ s : State, s.speedChange = true → s.held = [] →
    ∃ u, exec .speedChangeDone s = .next u ∧ u.speedChange = false ∧
      (s.mode.base ≠ .idle → ∀ r ∈ s.poweredRanks, (u.rank r).selfRef = false) ∧ (s.mode.base = .idle → u.ranks = s.ranks) ∧
      sameElems [(O.STORE_STATE, 0)] s u ∧ u.out = s.out) ∧
  (∀ (st : Fin 8) (milliC : Int) (s : State), s.calibrated = true →
    ∃ u, exec (.tempBandChange st milliC) s = .next u ∧
      (∀ i, i < 32 → (u.chan (32 * st.val + i)).bandDue =
        some (if milliC < 5000 then 0 else if 95000 ≤ milliC then 19 else (milliC / 5000).toNat)) ∧
      (∀ c, c / 32 ≠ st.val → u.chan c = s.chan c) ∧ u.elems = s.elems ∧ u.out = s.out)

/-- RANK_RETIRE and MIGRATION_CHUNK (R314, R341-R344, R347, R350): a rank in service with a spare in hand starts to migrate onto the
first spare of the candidate order; a second migration is refused with `BUSY`, one without a spare with `NO_RESOURCE`, a rank not in
service with `INVALID_VALUE`. Each chunk advances the map by one; the last one puts the target in the source's place and retires the
source, with `DEGRADED` set; a cell of the source that cannot be corrected is poisoned and copied; the loss of the target starts the copy
again onto the next spare; while the store takes no request, or a controller of the copy is frozen, it waits. (No other retirement
waits, and no write of the store before the chunk.) (`INVALID_VALUE` of a rank not in service, and the order of retirements: log entry
98; that the loss of the target while background jobs have stopped puts the source back in service, its retirement to follow, and that a chunk waits,
are the model's choices: log entries 170 and 156.) -/
def Obligations.RanksRetireByMigration : Prop :=
  (∀ (via : Via) (v : W64) (s a : State), a = asked via O.RANK_RETIRE s → Passes via O.RANK_RETIRE 0 v s →
    (32 ≤ v.toNat ∨ a.rankState v.toNat ≠ rankInService →
      exec (.rankRetire via v) s = .next (refusedWith via O.RANK_RETIRE 0 .invalid s)) ∧
    (v.toNat < 32 → a.rankState v.toNat = rankInService →
      (a.migrates = true → exec (.rankRetire via v) s = .next (refusedWith via O.RANK_RETIRE 0 .busy s)) ∧
      (a.migrates = false → a.firstSpare = none →
        exec (.rankRetire via v) s = .next (refusedWith via O.RANK_RETIRE 0 .noResource s)) ∧
      (∀ t, a.migrates = false → a.firstSpare = some t → (∀ r, (a.rank r).retireDue = false) → a.jobsStopped = false →
        (∀ m, a.mig = some m → m.done = true) →
        ∃ x, exec (.rankRetire via v) s = .next (accepted via O.RANK_RETIRE 0 x) ∧ x.rankState v.toNat = rankRetiring ∧
          x.rankState t = rankFilling ∧ (∀ r, r < 32 → r ≠ v.toNat → r ≠ t → x.rankState r = a.rankState r) ∧
          x.mode.migrating = true ∧ x.mem = s.mem ∧
          x.mig = some { src := v.toNat, tgt := t, chunks := 0, sealedChunks := 0, held := false, done := false, resumed := false }))) ∧
  (∀ (m : Mig) (s : State), s.mig = some m →
    (s.copyWaits m = true → ∀ x : ChunkCopy, exec (.migrationChunk x) s = .next s) ∧
    (s.copyWaits m = false →
      (m.chunks + 1 < 192 → s.storeReqs = [] → s.staging = [] →
        ∃ u, exec (.migrationChunk {}) s = .next u ∧ u.mig = some { m with chunks := m.chunks + 1 } ∧
          fld (u.el O.MIG_STATUS 0) 17 10 = m.chunks + 1 ∧ u.mode.migrating = !m.held ∧
          (∃ n, JEntry.checkpoint m.src m.tgt n ∈ u.journal.pending) ∧ (∀ r, r < 32 → u.rankState r = s.rankState r) ∧ u.mem = s.mem) ∧
      (m.src < 32 → m.tgt < 32 → m.src ≠ m.tgt → (∀ r, (s.rank r).retireDue = false) →
        (191 ≤ m.chunks → s.storeReqs = [] → s.staging = [] →
          ∃ u, exec (.migrationChunk {}) s = .next u ∧ u.rankState m.tgt = rankInService ∧ u.rankState m.src = rankRetired ∧
            u.mode.migrating = false ∧ u.mode.rankRetired = true ∧ u.mig = some { m with chunks := m.chunks + 1, done := true } ∧
            (∀ st, st < 8 → u.homeRanks st = (s.homeRanks st).map (fun r => if r = m.src then m.tgt else r)) ∧ u.mem = s.mem) ∧
        (∀ ingot cell, ingot < s.elN O.TRACE_INGOTS 0 → s.rankOf ingot cell = m.src → chunkOf ingot cell = m.chunks →
          s.freezes = false → s.storeReqs = [] → s.staging = [] →
          ∃ u, exec (.migrationChunk { source := [(ingot, cell, [2])] }) s = .next u ∧ u.poisoned ingot cell = true ∧
            (u.mig.map (fun x => x.chunks)) = some (m.chunks + 1)) ∧
        (s.freezes = false → s.jobsStopped = true →
          ∃ u, exec (.migrationChunk { target := true }) s = .next u ∧ u.rankState m.tgt = rankRetired ∧
            u.rankState m.src = rankInService ∧ (u.rank m.src).retireDue = true ∧ u.mig = none ∧ u.mode.migrating = false ∧ u.mem = s.mem) ∧
        (∀ t, s.rankState m.tgt = rankFilling → s.firstSpare = some t → t ≠ m.src → s.freezes = false → s.jobsStopped = false →
          ∃ u, exec (.migrationChunk { target := true }) s = .next u ∧ u.rankState m.tgt = rankRetired ∧
            u.rankState m.src = rankRetiring ∧ u.rankState t = rankFilling ∧
            (u.mig.map (fun x => (x.src, x.tgt, x.chunks))) = some (m.src, t, 0) ∧ u.mode.migrating = true ∧
            u.el O.RANK_UE m.tgt = satAdd (s.el O.RANK_UE m.tgt) 1 ∧ u.mem = s.mem))))

/-! ## The dictionary by place, requests and sessions -/

/-- W_CTL_WRITE, TIME96_READ, CAS_EXPECT, RELAY_DATA and SERVICE_CORE_ACCESS (R5, R270, R354, R357, R360, R361, R366, R367, R399, R401):
eight aligned bytes in W-CTL are a write of the element at that place, as the command for it is; any other write there is discarded, with
`INVALID_VALUE` in `WIN_STATUS` where the right is held, and a read of another form than 4 or 8 aligned bytes is an Unsupported Request.
A function that takes no memory request has its writes discarded and its reads refused, and behind a held write of the function an
access waits. An even TIME96 element latches the odd one for its caller. `CAS_EXPECT` takes a value with zero reserved bits. The relay accesses the element that `RELAY_REF` names and moves on by `RELAY_STEP`; it names neither area 0 nor area E.
A service core's access outside its map is only recorded. (A written object has no rule of its own; a read one is plain.)
(The order of
checks in a doubly wrong access, and what waits behind a held write: log entries 18 and 101.) -/
def Obligations.AccessesReachTheElementNamed : Prop :=
  (∀ (f : Fin 1024) (off obj : Nat) (bytes : List Byte) (p : ElemPart) (s : State),
    (s.memOn f = false → exec (.wCtlWrite f off bytes) s = .next s ∧
      ((s.port (f.val / 256)).up = true → exec (.time96Read (.wctl f) obj p) s = .next (s.send (.unsupported f)))) ∧
    (s.memOn f = true → s.holdsWrite f = true →
      exec (.wCtlWrite f off bytes) s = .next (holdOp f (s.elN O.FUNC_BINDING f) (.access (.ctlWrite off bytes)) s) ∧
      exec (.time96Read (.wctl f) obj p) s = .next (holdOp f (s.elN O.FUNC_BINDING f) (.access (.ctlRead (.wctl f) obj p)) s))) ∧
  (∀ (f : Fin 1024) (off : Nat) (bytes : List Byte) (v : W64) (s : State), v = BitVec.ofNat 64 (natLE bytes) → viaOpen (.wctl f) s = true →
    (bytes.length ≠ 8 ∨ off % 8 ≠ 0 →
      ∃ u st, exec (.wCtlWrite f off bytes) s = .next u ∧ fld (u.el O.WIN_STATUS (copyEl f 0)) 7 0 = st.code ∧ st ≠ .ok ∧
        (∀ o i, resolveFor (.wctl f) (off / 2048) (off / 8 % 256) s = some (o, i) →
          st = (if writeRight (.wctl f) o i s = .ok then Status.invalid else writeRight (.wctl f) o i s)) ∧
        sameElems [(O.WIN_STATUS, copyEl f 0), (O.CAS_EXPECT, copyEl f 0)] s u ∧ u.inner = s.inner ∧ u.out = s.out) ∧
    (bytes.length = 8 → ∀ k, k < 256 → off = 0x4301 * 2048 + 8 * k →
      exec (.wCtlWrite f off bytes) s = exec (.lockAcquire (.wctl f) k v) s) ∧
    (bytes.length = 8 → off % 8 = 0 → ∀ (o : ObjInfo) (i : Nat), resolveFor (.wctl f) (off / 2048) (off / 8 % 256) s = some (o, i) →
      writePlace (.wctl f) o i v = setAct o i v → Passes (.wctl f) o i v s →
      exec (.wCtlWrite f off bytes) s = .next (accepted (.wctl f) o i ((asked (.wctl f) o s).put o i v)))) ∧
  (∀ (via : Via) (s : State),
    (Serves via O.MODULE_TIME 0 s →
      exec (.time96Read via O.MODULE_TIME.base { elem := 0 }) s = .next (answered via O.MODULE_TIME 0 (time96Lo s.mtime)
        { s with latched := setHalf (viaCaller via) (O.MODULE_TIME.key 1) (some (time96Hi s.mtime)) s.latched })) ∧
    (∀ v, Serves via O.MODULE_TIME 1 s → halfOf (viaCaller via) (O.MODULE_TIME.key 1) s.latched = some v →
      exec (.time96Read via O.MODULE_TIME.base { elem := 1 }) s = .next (answered via O.MODULE_TIME 1 v
        { s with latched := setHalf (viaCaller via) (O.MODULE_TIME.key 1) none s.latched }))) ∧
  (∀ (f : Fin 1024) (obj : Nat) (p : ElemPart) (s : State), viaOpen (.wctl f) s = true → ¬ (p.len = 8 ∧ p.first = 0) → ¬ (p.len = 4 ∧ (p.first = 0 ∨ p.first = 4)) →
    exec (.time96Read (.wctl f) obj p) s = .next (s.send (.unsupported f))) ∧
  (∀ (f : Fin 1024) (v : W64) (s : State),
    (Passes (.wctl f) O.CAS_EXPECT (copyEl f 0) v s →
      (fld v 62 32 = 0 → exec (.casExpect f v) s = .next (accepted (.wctl f) O.CAS_EXPECT (copyEl f 0)
        (s.put O.CAS_EXPECT (copyEl f 0) v))) ∧
      (fld v 62 32 ≠ 0 → exec (.casExpect f v) s = .next (refusedWith (.wctl f) O.CAS_EXPECT (copyEl f 0) .invalid s))) ∧
    (∀ (r : W64), r = s.el O.RELAY_REF (copyEl f 0) →
      (Passes (.wctl f) O.RELAY_DATA (copyEl f 0) v s →
        (relayable r = false → exec (.relayData f (.write v)) s = .next (refusedWith (.wctl f) O.RELAY_DATA (copyEl f 0) .invalid s)) ∧
        (∀ o i, relayable r = true → resolveRef (fld r 63 48) (fld r 27 0) = some (o, i) → ruleOf (.relay f) o i v = setAct o i v →
          Passes (.relay f) o i v s →
          ∃ x, exec (.relayData f (.write v)) s = .next (accepted (.wctl f) O.RELAY_DATA (copyEl f 0) x) ∧ x.el o i = v ∧
            fld (x.el O.RELAY_REF (copyEl f 0)) 27 0 = (fld r 27 0 + s.elN O.RELAY_STEP (copyEl f 0)) % 2 ^ 28 ∧
            sameElems [(o, i), (O.RELAY_REF, copyEl f 0), (O.CAS_EXPECT, copyEl f 0)] s x ∧ x.out = s.out)) ∧
      (∀ o i w, Serves (.wctl f) O.RELAY_DATA (copyEl f 0) s → relayable r = true →
        resolveRef (fld r 63 48) (fld r 27 0) = some (o, i) → Serves (.relay f) o i s → readAct (.relay f) o i s = (s, .ok, w) →
        exec (.relayData f .read) s = .next (answered (.wctl f) O.RELAY_DATA (copyEl f 0) w (relayAdvance f s))))) ∧
  (∀ (core : Fin 4) (obj e : Nat) (v : W64) (wr : Option W64) (s : State),
    (bit (s.el O.ERR_FIRST 40) 63 = false →
      ∃ u, exec (.serviceCoreAccess core false obj e wr) s = .next u ∧ fld (u.el O.ERR_FIRST 40) 7 0 = 0xA0 ∧ u.mem = s.mem) ∧
    (∀ o i, resolveFor (.service core) obj e s = some (o, i) → writePlace (.service core) o i v = setAct o i v →
      Passes (.service core) o i v s →
      exec (.serviceCoreAccess core true obj e (some v)) s = .next (accepted (.service core) o i ((asked (.service core) o s).put o i v))))

/-- READ, WRITE, CAS_WRITE, KEEPALIVE, CLOSE and MBX_SUBMIT (R271, R367, R378-R380, R417, R418), each of one element: a session hands
over only the oldest request that its packets have brought (a request where none waits stands for its packet too, the model's choice:
log entry 83); a new request is executed and answered with its status, the object's change counter and the values read, and is held against its request ID; a repeated
one is answered `DUPLICATE` with what was held and changes no element. A `CAS_WRITE` whose expected counter is not the object's writes
nothing (where no owner check or field rule of the object stands before that in R357's order). A new `CLOSE` ends its session once it is answered. A mailbox answers in `MBX_RESP` by the same rules. -/
def Obligations.RequestsAreExecutedOnce : Prop :=
  (∀ (slot : Fin 64) (id : BitVec 32) (ref v : W64) (o : ObjInfo) (i : Nat) (x : Session) (s t : State),
    t = s.setSession slot (some { x with inbox := x.inbox.tail }) → addrLayout ref = true → id ≠ 0#32 →
    resolveFor (.vdp slot) (fld ref 63 48) (fld ref 27 0) t = some (o, i) →
    (s.session slot = some x →
      (x.hands id { op := opRead, ref := ref, count := some 1 } = false → exec (.read slot id ref 1) s = .next s) ∧
      (x.hands id { op := opWrite, ref := ref, count := some 1, vals := [v] } = false → exec (.write slot id ref [v]) s = .next s) ∧
      (x.hands id { op := opClose } = false → exec (.close slot id) s = .next s)) ∧
    (newRequest slot id x s →
      (x.hands id { op := opRead, ref := ref, count := some 1 } = true →
        Serves (.vdp slot) o i t → readElem (.vdp slot) o i t = (t, .ok, v) →
        ∃ u y h pkt, exec (.read slot id ref 1) s = .next u ∧
          u.out = s.out ++ [.response slot id .ok .ok (s.counter o i) 0 [v] pkt] ∧ u.elems = s.elems ∧
          u.session slot = some y ∧ heldReply id y.replay u.clock = some h ∧ h.orig = .ok ∧ h.vals = [v]) ∧
      (∀ st, x.hands id { op := opRead, ref := ref, count := some 1 } = true → readCheck (.vdp slot) o i t = st → st ≠ .ok →
        ∃ u pkt, exec (.read slot id ref 1) s = .next u ∧
          u.out = s.out ++ [.response slot id st st (s.counter o i) 0 [] pkt] ∧ u.elems = s.elems) ∧
      (x.hands id { op := opWrite, ref := ref, count := some 1, vals := [v] } = true →
        Passes (.vdp slot) o i v t → writeElem (.vdp slot) o i v = setAct o i v →
        ∃ u pkt, exec (.write slot id ref [v]) s = .next u ∧ u.el o i = v ∧
          u.out = s.out ++ [.response slot id .ok .ok (s.counter o i + 1#32) 0 [] pkt] ∧
          sameElems [(o, i)] (asked (.vdp slot) o s) u) ∧
      (∀ c : BitVec 32, x.hands id { op := opCasWrite, ref := ref, expect := some c.toNat, count := some 1, vals := [v] } = true →
        writeCheck (.vdp slot) (some c) o i v (asked (.vdp slot) o t) = .ok →
        writeElem (.vdp slot) o i v = setAct o i v →
        ∃ u pkt, exec (.casWrite slot id ref c [v]) s = .next u ∧ u.el o i = v ∧ c = s.counter o i ∧
          u.out = s.out ++ [.response slot id .ok .ok (c + 1#32) 0 [] pkt]) ∧
      (∀ c : BitVec 32, x.hands id { op := opCasWrite, ref := ref, expect := some c.toNat, count := some 1, vals := [v] } = true →
        c ≠ s.counter o i → proposalStep o i = false →
        (∀ st, ownFirst (.vdp slot) o i st (writeElem (.vdp slot) o i v (asked (.vdp slot) o t)).2 (asked (.vdp slot) o t) = false) →
        ∃ u st pkt, exec (.casWrite slot id ref c [v]) s = .next u ∧ st ≠ .ok ∧ u.elems = (asked (.vdp slot) o s).elems ∧
          u.out = s.out ++ [.response slot id st st (s.counter o i) 0 [] pkt]) ∧
      (x.hands id { op := opKeepalive } = true →
        ∃ u y h pkt, exec (.keepalive slot id) s = .next u ∧ u.out = s.out ++ [.response slot id .ok .ok 0#32 0 [] pkt] ∧
        u.elems = s.elems ∧ u.session slot = some y ∧ heldReply id y.replay u.clock = some h) ∧
      (x.hands id { op := opClose } = true → ∃ u pkt, exec (.close slot id) s = .next u ∧ u.session slot = none ∧ u.el O.SESSION_INFO slot = 0#64 ∧
        Out.response slot id .ok .ok 0#32 0 [] pkt ∈ u.out)) ∧
    (∀ h, s.session slot = some x → heldReply id x.replay s.clock = some h →
      ∀ p ∈ [(Instr.read slot id ref 1, ({ op := opRead, ref := ref, count := some 1 } : Asked)),
        (.write slot id ref [v], { op := opWrite, ref := ref, count := some 1, vals := [v] }),
        (.casWrite slot id ref 0#32 [v], { op := opCasWrite, ref := ref, expect := some 0, count := some 1, vals := [v] }),
        (.keepalive slot id, { op := opKeepalive }),
        (.subscribe slot id ref 1 0 true, { op := opSubscribe, flags := 1, ref := ref, expect := some 0, count := some 1 }),
        (.unsubscribe slot id 0, { op := opUnsubscribe }), (.close slot id, { op := opClose })],
        x.hands id p.2 = true → ∃ u pkt, exec p.1 s = .next u ∧ u.elems = s.elems ∧
          u.out = s.out ++ [.response slot id .duplicate h.orig h.counter h.sub h.vals pkt])) ∧
  (∀ (f : Fin 1024) (v : W64) (r : State × Answer) (s : State), Passes (.wctl f) O.MBX_SUBMIT (copyEl f 0) v s → r = mbxRequest f s →
    (v ≠ (mbxSeq s f).setWidth 64 → exec (.mbxSubmit f v) s = .next (refusedWith (.wctl f) O.MBX_SUBMIT (copyEl f 0) .invalid s)) ∧
    (v = (mbxSeq s f).setWidth 64 → mbxOp s f = opRead ∨ mbxOp s f = opWrite ∨ mbxOp s f = opCasWrite → mbxCount s f ≤ 128 →
      relayable (mbxRef s f) = true →
      (heldReply (mbxSeq s f) (s.func f).replay s.clock = none →
        ∃ x, exec (.mbxSubmit f v) s = .next (accepted (.wctl f) O.MBX_SUBMIT (copyEl f 0) x) ∧
          fld (x.el O.MBX_RESP (copyEl f 0)) 31 0 = (mbxSeq s f).toNat ∧ fld (x.el O.MBX_RESP (copyEl f 0)) 39 32 = r.2.st.code ∧
          bit (x.el O.MBX_RESP (copyEl f 0)) 63 = true ∧ x.el O.MBX_RESP (copyEl f 1) = r.2.counter.setWidth 64 ∧
          (∀ j, j < 128 → x.el O.MBX_RESP (copyEl f (4 + j)) = (r.2.vals[j]?).getD 0#64) ∧ x.mem = r.1.mem) ∧
      (∀ h, heldReply (mbxSeq s f) (s.func f).replay s.clock = some h →
        ∃ x, exec (.mbxSubmit f v) s = .next (accepted (.wctl f) O.MBX_SUBMIT (copyEl f 0) x) ∧
          fld (x.el O.MBX_RESP (copyEl f 0)) 39 32 = Status.duplicate.code ∧
          fld (x.el O.MBX_RESP (copyEl f 0)) 47 40 = h.orig.code ∧
          (∀ (o : ObjInfo) (e : Nat), (∀ j, j < 256 → o.key e ≠ O.MBX_RESP.key (copyEl f j)) → x.el o e = s.el o e) ∧
          x.inner = s.inner ∧ x.out = s.out)))

/-- SUBSCRIBE, UNSUBSCRIBE and NOTIFY (R381, R382), of one element: a session subscribes to what it may read, at most every 60,000 ms,
and on a change never to an object that is marked `SAMPLED`; it is told the subscription's number, and ends it by that number. A notice
brings the value with the next sequence number where the counter has advanced or the subscription is periodic, nothing otherwise;
where the right to read is lost it is the last one. (That a request where no packet waits stands for its packet too is the model's
choice: log entry 83.) -/
def Obligations.SubscriptionsNotify : Prop :=
  ∀ (slot : Fin 64) (id : BitVec 32) (ref v : W64) (o : ObjInfo) (i interval : Nat) (periodic : Bool) (x : Session) (s t : State),
    (t = s.setSession slot (some { x with inbox := x.inbox.tail }) → newRequest slot id x s →
      (x.hands id { op := opSubscribe, flags := periodic.toNat, ref := ref, expect := some interval, count := some 1 } = true →
        addrLayout ref = true → resolveFor (.vdp slot) (fld ref 63 48) (fld ref 27 0) t = some (o, i) → Serves (.vdp slot) o i t →
        (interval ≤ 60000 → (periodic = false → isSampled o i = false) → x.subs.length < 256 → s.subCount < 4096 →
          ∃ u y w pkt, exec (.subscribe slot id ref 1 interval periodic) s = .next u ∧ u.session slot = some y ∧
            y.subs = x.subs ++ [w] ∧ (∀ z ∈ x.subs, z.id ≠ w.id) ∧ w.count = 1 ∧ w.interval = max 1 interval ∧ w.periodic = periodic ∧
            u.out = s.out ++ [.response slot id .ok .ok (s.counter o i) w.id [] pkt] ∧ u.elems = s.elems) ∧
        (60000 < interval ∨ (periodic = false ∧ isSampled o i = true) →
          ∃ u y pkt, exec (.subscribe slot id ref 1 interval periodic) s = .next u ∧ u.session slot = some y ∧ y.subs = x.subs ∧
            u.out = s.out ++ [.response slot id .invalid .invalid (s.counter o i) 0 [] pkt])) ∧
      (∀ z ∈ x.subs, x.hands id { op := opUnsubscribe, ref := BitVec.ofNat 64 z.id } = true →
        ∃ u y pkt, exec (.unsubscribe slot id z.id) s = .next u ∧ u.session slot = some y ∧
          y.subs = x.subs.filter (fun w => decide (w.id ≠ z.id)) ∧
          u.out = s.out ++ [.response slot id .ok .ok 0#32 0 [] pkt] ∧ u.elems = s.elems)) ∧
    (∀ w, s.session slot = some x → x.subs.find? (fun z => decide (z.id = w.id)) = some w → t = advanceTo w.dueAt s →
      requestEls (.vdp slot) (refWord w.ref.1 w.ref.2) w.count t = some (o, [i]) →
      (readCheck (.vdp slot) o i t = .denied →
        ∃ u y pkt, exec (.notify slot w.id) s = .next u ∧ u.session slot = some y ∧ (∀ z ∈ y.subs, z.id ≠ w.id) ∧
          u.out = s.out ++ [.notify slot (x.notice + 1) w.id true (t.counter o i) [] pkt] ∧ u.elems = s.elems) ∧
      (Serves (.vdp slot) o i t → w.periodic = false → t.counter o i = w.counter → exec (.notify slot w.id) s = .next t) ∧
      (Serves (.vdp slot) o i t → readElem (.vdp slot) o i t = (t, .ok, v) → w.periodic = true ∨ t.counter o i ≠ w.counter →
        ∃ u y pkt, exec (.notify slot w.id) s = .next u ∧ u.session slot = some y ∧ y.notice = x.notice + 1 ∧
          (∀ z ∈ y.subs, z.id = w.id → z.counter = t.counter o i ∧ z.dueAt = t.clock + z.interval * ms) ∧
          u.out = s.out ++ [.notify slot (x.notice + 1) w.id false (t.counter o i) [v] pkt] ∧ u.elems = s.elems))

/-- HELLO, DATA, NET_APPLY, ETHERNET_FRAME, SESSION_IDLE_TIMEOUT, SESSION_CLOSE, NET_LINK_DOWN and NET_LINK_UP (R371-R378): a signed
`HELLO` opens a session of its principal in a free slot, with an ID no open session has; a `DATA` packet that opens under the session's
key is taken once; anything else is counted. Applying the settings closes the sessions on addresses a port no longer holds. A frame
that is too long, tagged or not for the module is dropped and counted, and a neighbour solicitation is answered. A session ends when it
is idle or closed, and its locks break. A link follows its events. (The slot and the free session number: log entry 84.) -/
def Obligations.SessionsOpenAndClose : Prop :=
  (∀ (m : Fin 2) (addr k : Nat) (p : List Byte) (s : State), s.vdpOn m = true → headerOk p = true →
    (((s.netCfg m).addrs m).contains addr = true → fieldBE 3 1 p = pktHello →
      (helloOk p s = true → s.freeSlot = some k → s.openIds.length ≤ 64 →
        ∃ u y, exec (.hello m addr p) s = .next u ∧ u.session k = some y ∧ y.princ = helloPrinc p ∧ y.port = m ∧ y.addr = addr ∧
          y.id ∉ s.openIds ∧ 1 ≤ y.id ∧ y.id ≤ 65535 ∧ y.replay = [] ∧ y.subs = [] ∧ y.lastAt = s.clock ∧
          (∀ j, j ≠ k → u.session j = s.session j) ∧ u.out = s.out ++ [.packet m (helloReply s.sessionCount y.id p)]) ∧
      (helloOk p s = true → s.freeSlot = none → exec (.hello m addr p) s = .next (s.send (.packet m rejectPacket))) ∧
      (helloOk p s = false → exec (.hello m addr p) s = .next (s.inc O.VDP_HELLO_DROPPED 0))) ∧
    (∀ x msg, fieldBE 3 1 p = pktData → s.sessionSlot (fieldBE 4 2 p) = some k → s.session k = some x →
      (numOk x (fieldBE 8 8 p) = true → openPacket x p = some msg →
        ∃ u y, exec (.data m p) s = .next u ∧ u.session k = some y ∧ y.inbox = x.inbox ++ [msg] ∧ y.lastAt = s.clock ∧
          numOk y (fieldBE 8 8 p) = false ∧ u.elems = s.elems ∧ u.out = s.out) ∧
      (numOk x (fieldBE 8 8 p) = false ∨ openPacket x p = none →
        exec (.data m p) s = .next (s.inc O.VDP_PKT_DROPPED 0)))) ∧
  (∀ (via : Via) (m : Nat) (v : W64) (s a : State), m < 2 → a = asked via O.NET_APPLY s → Passes via O.NET_APPLY m v s →
    (v = 1#64 →
      ∃ x, exec (.netApply via m v) s = .next (accepted via O.NET_APPLY m x) ∧ x.netCfg m = a.stagedNet m ∧
        (∀ j, j ≠ m → x.netCfg j = a.netCfg j) ∧
        (∀ k y, k < 64 → a.session k = some y → y.port = m → ((a.stagedNet m).addrs m).contains y.addr = false → x.session k = none) ∧
        (∀ k y, a.session k = some y → y.port ≠ m ∨ ((a.stagedNet m).addrs m).contains y.addr = true → x.session k = some y)) ∧
    (v ≠ 1#64 → exec (.netApply via m v) s = .next (refusedWith via O.NET_APPLY m .invalid s))) ∧
  (∀ (m : Fin 2) (len : Nat) (frame : EthFrame) (s : State), s.netOn = true → s.elN O.NET_LINK_STATE m = netUp →
    (1518 < len ∨ frame = .tagged ∨ frame = .fragment ∨ frame = .other →
      exec (.ethernetFrame m len frame) s = .next (s.inc O.NET_DROPPED m)) ∧
    (len ≤ 1518 →
      exec (.ethernetFrame m len .neighbour) s = .next (s.send (.netAnswer m .neighbour)) ∧
      exec (.ethernetFrame m len .ptp) s = .next s)) ∧
  (∀ (slot : Fin 64) (x : Session) (s : State), s.session slot = some x →
    ∃ u, exec (.sessionIdleTimeout slot) s = .next u ∧ u.session slot = none ∧ u.el O.SESSION_INFO slot = 0#64 ∧
      u.clock = max s.clock (x.lastAt + s.elN O.VDP_IDLE_S 0 * sec) ∧
      (∀ k, k < 256 → s.lockHeld k = true → s.lockOwner k = (2, x.id) → u.lockHeld k = false ∧ bit (u.el O.LOCK_STATE k) 1 = true)) ∧
  (∀ (via : Via) (v : W64) (s a : State), a = asked via O.SESSION_CLOSE s → Passes via O.SESSION_CLOSE 0 v s →
    (∀ k, a.sessionSlot v.toNat = some k →
      ∃ x, exec (.sessionClose via v) s = .next (accepted via O.SESSION_CLOSE 0 x) ∧ x.session k = none ∧
        (∀ j, j ≠ k → x.session j = a.session j) ∧
        (∀ y l, a.session k = some y → l < 256 → a.lockHeld l = true → a.lockOwner l = (2, y.id) →
          x.lockHeld l = false ∧ bit (x.el O.LOCK_STATE l) 1 = true)) ∧
    (a.sessionSlot v.toNat = none → exec (.sessionClose via v) s = .next (refusedWith via O.SESSION_CLOSE 0 .invalid s))) ∧
  (∀ (m : Fin 2) (s : State),
    (s.elN O.NET_LINK_STATE m = netUp →
      ∃ u, exec (.netLinkDown m) s = .next u ∧ u.elN O.NET_LINK_STATE m = netDown ∧ u.mem = s.mem) ∧
    (s.elN O.NET_LINK_MODE m ≠ 0 → s.mode.base ≠ .cold →
      ∃ u, exec (.netLinkUp m) s = .next u ∧ u.elN O.NET_LINK_STATE m = netUp ∧
        sameElems [(O.NET_LINK_STATE, m.val), (O.PTP_PORT_STATE, m.val)] s u ∧ u.out = s.out))

/-! ## Timing -/

/-- TIME_SET, CAL_UTC and LEAP_SECOND (R425, R426, R446, R450-R452): both writes are refused with `BUSY` while a bench is armed, the
selector switches or REFB is selected; element 1 of `TIME_SET` applies the caller's two halves (whole seconds only while REFA is selected
and `LOCKED`), `CAL_UTC` makes the UTC second the one written and keeps the nanoseconds, and a value that names no date is refused with
`INVALID_VALUE`. A step advances `TIME_EPOCH`, ends a slew, and treats the pending edges that it passes as late. (No arm, disarm or plan
change is pending. That a second half without a first is refused is the model's choice: log entries 66 and 67.) The end
of a leap second moves `UTC_OFFSET` and clears `LEAP_PENDING`. -/
def Obligations.TimeIsSteppedByItsWrites : Prop :=
  (∀ (via : Via) (v : W64) (s a : State), a = asked via O.TIME_SET s →
    (Passes via O.TIME_SET 0 v s →
      (a.timeBusy = true → exec (.timeSet via 0 v) s = .next (refusedWith via O.TIME_SET 0 .busy s)) ∧
      (a.timeBusy = false →
        ∃ x, exec (.timeSet via 0 v) s = .next (accepted via O.TIME_SET 0 x) ∧
          halfOf (viaCaller via) (O.TIME_SET.key 0) x.heldHalf = some v ∧ x.elems = a.elems ∧ x.mtime = a.mtime ∧ x.mem = s.mem)) ∧
    (Passes via O.TIME_SET 1 v s →
      (halfOf (viaCaller via) (O.TIME_SET.key 0) a.heldHalf = none →
        exec (.timeSet via 1 v) s = .next (refusedWith via O.TIME_SET 1 .invalid s)) ∧
      (∀ lo, halfOf (viaCaller via) (O.TIME_SET.key 0) a.heldHalf = some lo →
        (a.timeBusy = true → exec (.timeSet via 1 v) s = .next (refusedWith via O.TIME_SET 1 .busy s)) ∧
        (a.timeBusy = false → (∀ b, b < 1024 → a.armSched b ≠ schPending ∧ a.disarmSched b ≠ schPending) → a.planSched ≠ schPending →
          ∃ x, exec (.timeSet via 1 v) s = .next (accepted via O.TIME_SET 1 x) ∧
            x.mtime = (if a.selState = selLocked ∧ a.timing.target = 0 then fld lo 47 0 * sec + a.mtime % sec
              else fld lo 47 0 * sec + fld v 31 0 * ns + fld v 47 32) ∧
            x.elN O.TIME_EPOCH 0 = (a.elN O.TIME_EPOCH 0 + 1) % 2 ^ 32 ∧ x.slew = 0 ∧
            (∀ n, n < 4 → a.edgeSched n = schPending →
              (x.madePass a.mtime (a.elN O.EDGE_AT n) = false → x.edgeSched n = schPending) ∧
              (x.madePass a.mtime (a.elN O.EDGE_AT n) = true →
                x.edgeSched n = (if a.elN O.EDGE_LATE_POLICY n = 0 then schRejected else schLate))) ∧
            sameElems [(O.TIME_EPOCH, 0), (O.EDGE_SCHED_STATUS, 0), (O.EDGE_SCHED_STATUS, 1), (O.EDGE_SCHED_STATUS, 2),
              (O.EDGE_SCHED_STATUS, 3)] a x ∧ x.mem = s.mem)))) ∧
  (∀ (via : Via) (v : W64) (s a : State) (ok : Prop), a = asked via O.CAL_UTC s → Passes via O.CAL_UTC 0 v s →
    (ok ↔ fld v 33 26 ≤ 199 ∧ 1 ≤ fld v 25 22 ∧ fld v 25 22 ≤ 12 ∧ 1 ≤ fld v 21 17 ∧
      fld v 21 17 ≤ monthDays (2000 + fld v 33 26) (fld v 25 22) ∧ fld v 16 12 ≤ 23 ∧ fld v 11 6 ≤ 59 ∧ fld v 5 0 ≤ 59 ∧
      fld v 63 35 = 0) →
    (¬ ok → exec (.calUtc via v) s = .next (refusedWith via O.CAL_UTC 0 .invalid s)) ∧
    (ok → a.timeBusy = true → exec (.calUtc via v) s = .next (refusedWith via O.CAL_UTC 0 .busy s)) ∧
    (ok → a.timeBusy = false → (∀ b, b < 1024 → a.armSched b ≠ schPending ∧ a.disarmSched b ≠ schPending) → a.planSched ≠ schPending →
      ∃ x, exec (.calUtc via v) s = .next (accepted via O.CAL_UTC 0 x) ∧ x.mtime % sec = a.mtime % sec ∧
        (a.elN O.LEAP_PENDING 0 = 0 → 0 ≤ w64Int (a.el O.UTC_OFFSET 0) → x.calNow = setFld v 34 34 1) ∧
        x.elN O.TIME_EPOCH 0 = (a.elN O.TIME_EPOCH 0 + 1) % 2 ^ 32 ∧ x.slew = 0 ∧
        sameElems [(O.TIME_EPOCH, 0), (O.EDGE_SCHED_STATUS, 0), (O.EDGE_SCHED_STATUS, 1), (O.EDGE_SCHED_STATUS, 2),
          (O.EDGE_SCHED_STATUS, 3)] a x ∧ x.mem = s.mem)) ∧
  (∀ (s : State) (off : Int), off = w64Int (s.el O.UTC_OFFSET 0) →
    (s.elN O.LEAP_PENDING 0 = 0 → exec .leapSecond s = .next s) ∧
    (s.elN O.LEAP_PENDING 0 = 1 →
      ∃ u, exec .leapSecond s = .next u ∧ u.el O.UTC_OFFSET 0 = intW64 (off + 1) ∧ u.elN O.LEAP_PENDING 0 = 0 ∧
        (s.tmbOn = true → s.slew = 0 → u.mtime = max s.mtime ((s.timing.leapAt + 1).toNat * sec)) ∧
        sameElems [(O.UTC_OFFSET, 0), (O.LEAP_PENDING, 0)] s u ∧ u.out = s.out ∧ u.mem = s.mem) ∧
    (s.elN O.LEAP_PENDING 0 = 2 →
      ∃ u, exec .leapSecond s = .next u ∧ u.el O.UTC_OFFSET 0 = intW64 (off - 1) ∧ u.elN O.LEAP_PENDING 0 = 0 ∧
        (s.tmbOn = true → s.slew = 0 → u.mtime = max s.mtime ((s.timing.leapAt - 1).toNat * sec)) ∧
        sameElems [(O.UTC_OFFSET, 0), (O.LEAP_PENDING, 0)] s u ∧ u.out = s.out ∧ u.mem = s.mem))

/-- REF_MEASUREMENT, REF10_IN_LOSS, REF10_IN_RETURN, PPS_IN_EDGE, PPS_IN_TIMEOUT and ANNOUNCE_RECEIPT_TIMEOUT (R428, R429): a good
100 ms measurement counts towards `QUAL_TIME_MS`, after which a `QUALIFYING` reference is `QUALIFIED`; a failed one, a PPS_IN edge
more than 100 ns off, or none within 1.1 s, returns the reference to `QUALIFYING` and restarts the count; a missing signal makes it
`ABSENT`, its return `QUALIFYING`. (The first edge, and measurements before the time base runs: log entries 70 and 71.) -/
def Obligations.ReferencesQualifyAndFail : Prop :=
  (∀ (r : Fin 2) (ppb : Int) (s : State) (good : Prop),
    (good ↔ ppb.natAbs ≤ 2000 ∧ (r.val = 1 → s.elN O.PTP_PORT_STATE 1 = portSlave ∧ s.timing.ptp.offset.natAbs ≤ 1000)) →
    (s.tmbOn = false ∨ s.elN O.REF_STATE r = refAbsent → exec (.refMeasurement r ppb) s = .next s) ∧
    (s.tmbOn = true → s.elN O.REF_STATE r ≠ refAbsent →
      (¬ good →
        ∃ u, exec (.refMeasurement r ppb) s = .next u ∧ u.elN O.REF_STATE r = refQualifying ∧ (u.ref r).good = 0 ∧
          u.el O.REF_FREQ_PPB r = intW64 ppb ∧ u.clock = max s.clock ((s.ref r).since + 100 * ms) ∧
          sameElems [(O.REF_STATE, r.val), (O.REF_FREQ_PPB, r.val)] s u ∧ u.out = s.out ∧ u.mem = s.mem) ∧
      (good →
        ∃ u, exec (.refMeasurement r ppb) s = .next u ∧ u.el O.REF_FREQ_PPB r = intW64 ppb ∧ (u.ref r).good = (s.ref r).good + 1 ∧
          u.clock = max s.clock ((s.ref r).since + 100 * ms) ∧
          u.elN O.REF_STATE r = (if s.elN O.REF_STATE r = refQualifying ∧ s.elN O.QUAL_TIME_MS 0 ≤ 100 * ((s.ref r).good + 1)
            then refQualified else s.elN O.REF_STATE r) ∧
          (s.elN O.REF_STATE r ≠ refQualifying ∨ 100 * ((s.ref r).good + 1) < s.elN O.QUAL_TIME_MS 0 →
            u.selState = s.selState ∧ sameElems [(O.REF_FREQ_PPB, r.val)] s u) ∧ u.mem = s.mem))) ∧
  (∀ s : State,
    (s.elN O.REF_STATE 0 = refAbsent → exec .ref10InLoss s = .next s) ∧
    (s.elN O.REF_STATE 0 ≠ refAbsent →
      ∃ u, exec .ref10InLoss s = .next u ∧ u.elN O.REF_STATE 0 = refAbsent ∧ (u.ref 0).ppsAt = none ∧ u.ref 1 = s.ref 1 ∧
        sameElems [(O.REF_STATE, 0)] s u ∧ u.out = s.out ∧ u.mem = s.mem) ∧
    (s.tmbOn = false ∨ s.elN O.REF_STATE 0 ≠ refAbsent → exec .ref10InReturn s = .next s) ∧
    (s.tmbOn = true → s.elN O.REF_STATE 0 = refAbsent →
      ∃ u, exec .ref10InReturn s = .next u ∧ u.elN O.REF_STATE 0 = refQualifying ∧ (u.ref 0).good = 0 ∧ u.ref 1 = s.ref 1 ∧
        sameElems [(O.REF_STATE, 0)] s u ∧ u.out = s.out ∧ u.mem = s.mem)) ∧
  (∀ (cycles : Nat) (off : Int) (s : State),
    (s.elN O.REF_STATE 0 = refAbsent → exec (.ppsInEdge cycles off) s = .next s) ∧
    (s.elN O.REF_STATE 0 ≠ refAbsent →
      ∃ u, exec (.ppsInEdge cycles off) s = .next u ∧ (u.ref 0).ppsAt = some s.clock ∧
        (∀ t, (s.ref 0).ppsAt = some t → 100 < (((cycles : Int) - 10000000) * 100 + off).natAbs →
          u.elN O.REF_STATE 0 = refQualifying ∧ (u.ref 0).good = 0) ∧
        ((s.ref 0).ppsAt = none ∨ (((cycles : Int) - 10000000) * 100 + off).natAbs ≤ 100 →
          u.elems = s.elems ∧ (u.ref 0).good = (s.ref 0).good) ∧
        sameElems [(O.REF_STATE, 0)] s u ∧ u.out = s.out ∧ u.mem = s.mem)) ∧
  (∀ s : State,
    ∃ u, exec .ppsInTimeout s = .next u ∧ (∀ t, (s.ref 0).ppsAt = some t → u.clock = max s.clock (t + 1100 * ms)) ∧
      (s.elN O.REF_STATE 0 ≠ refAbsent → u.elN O.REF_STATE 0 = refQualifying ∧ (u.ref 0).good = 0) ∧
      (s.elN O.REF_STATE 0 = refAbsent → u.elems = s.elems) ∧
      sameElems [(O.REF_STATE, 0)] s u ∧ u.out = s.out ∧ u.mem = s.mem) ∧
  (∀ s : State,
    ∃ u, exec .announceReceiptTimeout s = .next u ∧ u.elN O.REF_STATE 1 = refAbsent ∧ u.timing.ptp.haveAnnounce = false ∧
      u.elN O.PTP_PORT_STATE 1 = (if s.elN O.PTP_PORT_STATE 1 = portSlave ∨ s.elN O.PTP_PORT_STATE 1 = portUncalibrated then portListening
        else s.elN O.PTP_PORT_STATE 1) ∧
      (s.timing.ptp.haveAnnounce = true → u.clock = max s.clock s.masterDue) ∧
      sameElems [(O.REF_STATE, 1), (O.PTP_PORT_STATE, 1)] s u ∧ u.out = s.out ∧ u.mem = s.mem)

/-- SELECTED_REFERENCE_LOST, LOCK_LOSS, LOCK_DELAY_EXPIRY, SWITCH_COMPLETE, HOLDOVER_CLASS_CHANGE and the measurement that
qualifies a reference (R425, R430-R435, R449): the selector follows Table 12.3. `ACQUIRING` lasts `LOCK_DELAY_MS`, and an offset
above 1 µs is then stepped away while no bench is armed; every other offset is slewed and module time goes on; a loss freezes the control
value, where it is not frozen already; a better reference is taken at once with `REVERTIVE`. (At the end of `ACQUIRING` no arm, disarm or plan change is pending.)
(When the selector looks for a better reference, and the control values: log entries 74, 76 and 82.) -/
def Obligations.SelectorFollowsItsTable : Prop :=
  (∀ s : State,
    (s.timing.target = 255 ∨ s.elN O.REF_STATE s.timing.target = refQualified → exec .selectedReferenceLost s = .next s) ∧
    (s.timing.target ≠ 255 → s.elN O.REF_STATE s.timing.target ≠ refQualified →
      ∃ u, exec .selectedReferenceLost s = .next u ∧ u.mtime = s.mtime ∧ u.el O.TIME_EPOCH 0 = s.el O.TIME_EPOCH 0 ∧ u.mem = s.mem ∧
        u.ranks = s.ranks ∧ u.benches = s.benches ∧
        (∀ p, s.preferred = some p →
          (s.selState = selAcquiring → u.selState = selAcquiring ∧ u.timing.target = p ∧ u.timing.since = s.clock) ∧
          (s.selState = selLocked ∨ s.selState = selSwitching → u.selState = selSwitching ∧ u.timing.target = p)) ∧
        (s.preferred = none →
          (s.selState = selAcquiring → u.selState = selFreerun ∧ u.timing.target = 255) ∧
          (s.selState = selLocked ∨ s.selState = selSwitching → u.selState = selHoldover ∧ u.timing.target = 255 ∧
            u.timing.holdAt = s.clock)) ∧
        u.timing.frozen = (if s.selState = selAcquiring then s.timing.frozen
          else some (s.timing.frozen.getD (Config.controlMean s.timing.freezes))))) ∧
  (∀ s : State,
    (s.selState ≠ selLocked → exec .lockLoss s = .next s) ∧
    (s.selState = selLocked →
      ∃ u, exec .lockLoss s = .next u ∧ u.mtime = s.mtime ∧
        u.timing.frozen = some (s.timing.frozen.getD (Config.controlMean s.timing.freezes)) ∧
        (∀ p, s.preferred = some p → u.selState = selSwitching ∧ u.timing.target = p) ∧
        (s.preferred = none → u.selState = selHoldover ∧ u.timing.target = 255) ∧ u.el O.TIME_EPOCH 0 = s.el O.TIME_EPOCH 0 ∧
        u.mem = s.mem)) ∧
  (∀ (offset : Int) (s t : State), t = advanceTo (s.timing.since + s.elN O.LOCK_DELAY_MS 0 * ms) s →
    (s.selState ≠ selAcquiring → exec (.lockDelayExpiry offset) s = .next s) ∧
    (s.selState = selAcquiring → (∀ b, b < 1024 → s.armSched b ≠ schPending ∧ s.disarmSched b ≠ schPending) → s.planSched ≠ schPending →
      ∃ u, exec (.lockDelayExpiry offset) s = .next u ∧ u.clock = t.clock ∧ u.mem = s.mem ∧
        ((∀ p, s.preferred = some p → p = s.timing.target ∨ s.elB O.REVERTIVE 0 = false) →
          u.selState = selLocked ∧ u.timing.target = s.timing.target) ∧
        (us < offset.natAbs → s.armedBenches = [] →
          u.mtime = ((t.mtime : Int) - offset).toNat ∧ u.elN O.TIME_EPOCH 0 = (s.elN O.TIME_EPOCH 0 + 1) % 2 ^ 32 ∧ u.slew = 0) ∧
        (offset.natAbs ≤ us ∨ s.armedBenches ≠ [] →
          u.mtime = t.mtime ∧ u.el O.TIME_EPOCH 0 = s.el O.TIME_EPOCH 0 ∧ u.slew = -offset))) ∧
  (∀ (offset : Int) (s : State),
    (s.selState ≠ selSwitching → exec (.switchComplete offset) s = .next s) ∧
    (s.selState = selSwitching →
      ∃ u, exec (.switchComplete offset) s = .next u ∧ u.mtime = s.mtime ∧ u.slew = -offset ∧ u.timing.frozen = none ∧
        u.el O.TIME_EPOCH 0 = s.el O.TIME_EPOCH 0 ∧ u.out = s.out ∧ u.mem = s.mem ∧
        ((∀ p, s.preferred = some p → p = s.timing.target ∨ s.elB O.REVERTIVE 0 = false) →
          u.selState = selLocked ∧ u.timing.target = s.timing.target) ∧
        (∀ p, s.preferred = some p → p ≠ s.timing.target → s.elB O.REVERTIVE 0 = true →
          s.elN O.REF_STATE s.timing.target = refQualified → u.selState = selSwitching ∧ u.timing.target = p))) ∧
  (∀ s : State,
    (s.selState ≠ selHoldover ∨ s.timing.holdLate = true → exec .holdoverClassChange s = .next s) ∧
    (s.selState = selHoldover → s.timing.holdLate = false →
      ∃ u, exec .holdoverClassChange s = .next u ∧ u.clock = max s.clock (s.timing.holdAt + 14400 * sec) ∧ u.timing.holdLate = true ∧
        u.elN O.PTP_CLOCK_CLASS 0 = 52 ∧ sameElems [(O.PTP_CLOCK_CLASS, 0)] s u ∧ u.out = s.out ∧ u.mem = s.mem)) ∧
  (∀ (r : Fin 2) (ppb : Int) (s u : State), exec (.refMeasurement r ppb) s = .next u → s.elN O.REF_STATE r = refQualifying →
    u.elN O.REF_STATE r = refQualified → ∀ p, u.preferred = some p →
      (s.selState = selFreerun → u.selState = selAcquiring ∧ u.timing.target = p) ∧
      (s.selState = selHoldover → u.selState = selSwitching ∧ u.timing.target = p))

/-- PTP_MESSAGE_RECEIVED and PTP_MESSAGE_SENT (R428, R429, R447-R450): M1 is slave-only while REFB is ranked; it keeps the upstream dataset of
an Announce of the master it follows or of a better one, and the offset of a Sync is the servo's, which makes REFB present and beyond 1 µs
fails it; delay requests are answered by a master, and by either with P2P. A message leaves at the end of its port's interval, with the
module's clock identity and port number. A master announces the upstream dataset one step on while REFB is selected in `LOCKED` or the target
of a switch, and otherwise the quality of Table 12.7. A port that is disabled, or without link, is deaf and dumb. (The port states
`LISTENING` and `UNCALIBRATED`, and the order of masters, are those of IEEE 1588: log entries 73 and 175.) -/
def Obligations.PtpFollowsAndAnnounces : Prop :=
  (∀ (m : Fin 2) (msg : PtpMsg) (kind : PtpKind) (s : State), s.tmbOn = false ∨ bit (s.el O.PTP_PORT_CFG m) 0 = false ∨
      s.elN O.NET_LINK_STATE m ≠ 1 →
    exec (.ptpMessageReceived m msg) s = .next s ∧ exec (.ptpMessageSent m kind) s = .next s) ∧
  (∀ (m : Fin 2) (s : State), s.tmbOn = true → s.ptpUp m = true →
    (∀ (x : Announce) (off : Int), m.val = 0 ∨ s.elN O.REF_PRIORITY 1 = 255 →
      exec (.ptpMessageReceived m (.announce x)) s = .next s ∧
      exec (.ptpMessageReceived m (.sync off)) s = .next s) ∧
    (m.val = 1 → s.elN O.REF_PRIORITY 1 ≠ 255 →
      (∀ x a : Announce, a = cutAnnounce x →
        (s.timing.ptp.haveAnnounce = true → a.source ≠ s.timing.ptp.up.source → betterMaster a s.timing.ptp.up = false →
          exec (.ptpMessageReceived m (.announce x)) s = .next s) ∧
        (s.timing.ptp.haveAnnounce = false ∨ a.source = s.timing.ptp.up.source ∨ betterMaster a s.timing.ptp.up = true →
          ∃ u, exec (.ptpMessageReceived m (.announce x)) s = .next u ∧ u.timing.ptp.haveAnnounce = true ∧ u.timing.ptp.up = a ∧
            u.timing.ptp.announceAt = s.clock ∧
            u.elN O.PTP_PORT_STATE 1 = (if s.elN O.PTP_PORT_STATE 1 = portListening then portUncalibrated else s.elN O.PTP_PORT_STATE 1) ∧
            (s.timing.target = 1 → u.el O.UTC_OFFSET 0 = intW64 a.utcOffset ∧ u.elN O.LEAP_PENDING 0 = a.leap) ∧
            (s.timing.target ≠ 1 → u.el O.UTC_OFFSET 0 = s.el O.UTC_OFFSET 0) ∧ u.mtime = s.mtime ∧
            sameElems [(O.PTP_PORT_STATE, 1), (O.UTC_OFFSET, 0), (O.LEAP_PENDING, 0), (O.PTP_CLOCK_CLASS, 0)] s u ∧ u.out = s.out ∧
            u.mem = s.mem)) ∧
      (∀ off, s.timing.ptp.haveAnnounce = true →
        ∃ u, exec (.ptpMessageReceived m (.sync off)) s = .next u ∧ u.el O.REFB_OFFSET_NS 0 = intW64 off ∧ u.timing.ptp.offset = off ∧
          u.timing.ptp.syncAt = some s.clock ∧ u.elN O.PTP_PORT_STATE 1 = portSlave ∧
          u.elN O.REF_STATE 1 = (if s.elN O.REF_STATE 1 = refAbsent ∨ 1000 < off.natAbs then refQualifying else s.elN O.REF_STATE 1) ∧
          sameElems [(O.REFB_OFFSET_NS, 0), (O.PTP_PORT_STATE, 1), (O.REF_STATE, 1)] s u ∧ u.out = s.out ∧ u.mem = s.mem)) ∧
    exec (.ptpMessageReceived m .delayReq) s =
      .next (if bit (s.el O.PTP_PORT_CFG m) 1 = true ∨ s.elN O.PTP_PORT_STATE m = portMaster
        then s.send (.ptp m .delay (s.twoStep m) (s.elN O.PTP_DOMAIN 0) (s.transport m) (clockIdentity, m.val + 1)) else s) ∧
    exec (.ptpMessageReceived m .delayResp) s = .next s ∧
    (s.elN O.PTP_PORT_STATE m = portMaster →
      (∃ u, exec (.ptpMessageSent m .sync) s = .next u ∧ u.elems = s.elems ∧ u.mem = s.mem ∧
        u.out = s.out ++ [.ptp m .sync (s.twoStep m) (s.elN O.PTP_DOMAIN 0) (s.transport m) (clockIdentity, m.val + 1)] ∧
        ∀ t, (s.timing.ptp.sentAt.find? (fun p => decide (p.1 = 3 * m.val + 1))).map Prod.snd = some t →
          u.clock = max s.clock (t + s.syncInterval m)) ∧
      (∃ u d, exec (.ptpMessageSent m .announce) s = .next u ∧ u.elems = s.elems ∧ u.mem = s.mem ∧
        u.out = s.out ++ [.announce m (s.elN O.PTP_DOMAIN 0) (s.transport m) d] ∧ d.source = (clockIdentity, m.val + 1) ∧
        d.utcOffset = w64Int (s.el O.UTC_OFFSET 0) ∧ d.leap = s.elN O.LEAP_PENDING 0 ∧ d.ptpTimescale = true ∧
        (∀ t, (s.timing.ptp.sentAt.find? (fun p => decide (p.1 = 3 * m.val))).map Prod.snd = some t →
          u.clock = max s.clock (t + s.announceInterval m)) ∧
        (s.timing.target = 1 → s.selState = selLocked ∨ s.selState = selSwitching →
          d = { s.timing.ptp.up with source := d.source, steps := s.timing.ptp.up.steps + 1, utcOffset := d.utcOffset, leap := d.leap,
                                     ptpTimescale := true }) ∧
        (∀ cls acc src,
          s.timing.target ≠ 1 ∧ (s.selState = selLocked ∨ s.selState = selSwitching) ∧ (cls, acc, src) = (6, 0x21, 0x90) ∨
            s.selState = selHoldover ∧ (cls, acc, src) = ((if s.timing.holdLate = true then 52 else 7), 0xFE, 0xA0) ∨
            (s.selState = selFreerun ∨ s.selState = selAcquiring) ∧ (cls, acc, src) = (248, 0xFE, 0xA0) →
          d.gm = clockIdentity ∧ d.prio1 = s.elN O.PTP_PRIORITY1 0 ∧ d.prio2 = s.elN O.PTP_PRIORITY2 0 ∧ d.clockClass = cls ∧
            d.accuracy = acc ∧ d.timeSource = src ∧ d.steps = 0))) ∧
    (s.elN O.PTP_PORT_STATE m ≠ portMaster →
      exec (.ptpMessageSent m .sync) s = .next s ∧ exec (.ptpMessageSent m .announce) s = .next s) ∧
    (s.elN O.PTP_PORT_STATE m = portSlave ∨ s.elN O.PTP_PORT_STATE m = portUncalibrated ∨ bit (s.el O.PTP_PORT_CFG m) 1 = true →
      ∃ u, exec (.ptpMessageSent m .delay) s = .next u ∧ u.elems = s.elems ∧ u.mem = s.mem ∧
        u.out = s.out ++ [.ptp m .delay (s.twoStep m) (s.elN O.PTP_DOMAIN 0) (s.transport m) (clockIdentity, m.val + 1)]) ∧
    (s.elN O.PTP_PORT_STATE m ≠ portSlave → s.elN O.PTP_PORT_STATE m ≠ portUncalibrated → bit (s.el O.PTP_PORT_CFG m) 1 = false →
      exec (.ptpMessageSent m .delay) s = .next s))

/-- PLAN_SELECT, PLAN_HOP_DONE, PLAN_AT, SCHEDULED_PLAN_HOP, OUT_APPLY and SYNC_IN_EDGE (R437, R439, R440, R444, R445): a hop starts by
command or schedule, one that comes due in another waits behind it, and its end stores a band that was searched and restarts the
outputs; the outputs are low while it runs; an application makes the eight staged configurations active and restarts the outputs, each
enabled one with its first rising edge 40 ns and its `DELAY` later, and the AUX0 phase; it, or a SYNC_IN edge, is held during a hop and
performed once at its end; both in one TMB cycle restart once. A scheduled hop starts when module time reaches its time, under a slew at
most 1/65,536 ns past it. (`PLAN_ACTIVE` shows the slot from the hop's start: log entry 72.) -/
def Obligations.PlansHopAndOutputsRestart : Prop :=
  (∀ (via : Via) (v : W64) (s a : State), a = asked via O.PLAN_SELECT s → Passes via O.PLAN_SELECT 0 v s →
    (8 ≤ v.toNat → exec (.planSelect via v) s = .next (refusedWith via O.PLAN_SELECT 0 .invalid s)) ∧
    (v.toNat < 8 → a.timing.hop ≠ none → exec (.planSelect via v) s = .next (refusedWith via O.PLAN_SELECT 0 .busy s)) ∧
    (v.toNat < 8 → a.timing.hop = none →
      ∃ x, exec (.planSelect via v) s = .next (accepted via O.PLAN_SELECT 0 x) ∧ x.timing.hop = some v.toNat ∧ x.el O.PLAN_ACTIVE 0 = v ∧
        (∀ n, x.outLevel n = false) ∧
        sameElems [(O.PLAN_ACTIVE, 0)] a x ∧ x.out = a.out ∧ x.mem = s.mem)) ∧
  (∀ (band : Fin 64) (k : Nat) (s : State),
    (s.timing.hop = none → exec (.planHopDone band) s = .next s) ∧
    (s.timing.hop = some k → k < 8 →
      ∃ u, exec (.planHopDone band) s = .next u ∧
        u.el O.PLAN_STATE k = (if s.elB O.PLAN_STATE k = true then s.el O.PLAN_STATE k else put 1 0 ||| put band.val 1) ∧
        u.timing.hop = s.timing.hopDue ∧ u.timing.hopDue = none ∧ u.timing.heldApply = false ∧ u.timing.heldSync = false ∧
        u.out = s.out ++ [.outputsRestart s.clock (((List.range 8).filter u.outEnable).map (fun n =>
          (n, s.clock + 40 * ns + u.outDelay n * sec / (64 * s.vcoHz))))] ∧ u.timing.restartAt = s.clock ∧
        (∀ n, n < 8 → u.el O.OUT_ACTIVE n =
          (if s.timing.heldApply = true ∨ s.timing.heldSync = true ∧ s.elN O.APPLY_SOURCE 0 = 1 then s.el O.OUT_CFG n
            else s.el O.OUT_ACTIVE n)) ∧
        (s.timing.heldApply = true ∨ s.timing.heldSync = true → u.aux0PhaseNow = 0) ∧
        (s.timing.heldApply = false → s.timing.heldSync = false → u.aux0PhaseNow = s.aux0PhaseNow) ∧
        (∀ j, s.timing.hopDue = some j → u.elN O.PLAN_ACTIVE 0 = j % 2 ^ 64 ∧
          u.planSched = (if s.planSched = schPending then schDone else s.planSched)) ∧
        (s.timing.hopDue = none → u.el O.PLAN_ACTIVE 0 = s.el O.PLAN_ACTIVE 0 ∧ u.planSched = s.planSched) ∧ u.mem = s.mem)) ∧
  (∀ (via : Via) (v : W64) (s a : State), a = asked via O.PLAN_AT s → Passes via O.PLAN_AT 0 v s →
    (v = 0#64 → ∃ x, exec (.planAt via v) s = .next (accepted via O.PLAN_AT 0 x) ∧ x.planSched = schNone ∧ x.timing.hopDue = none ∧
      x.el O.PLAN_AT 0 = v ∧ sameElems [(O.PLAN_AT, 0), (O.PLAN_SCHED_STATUS, 0)] a x ∧ x.out = a.out ∧ x.mem = s.mem) ∧
    (v ≠ 0#64 → a.timePassed v.toNat = false →
      ∃ x, exec (.planAt via v) s = .next (accepted via O.PLAN_AT 0 x) ∧ x.planSched = schPending ∧ x.timing.hopDue = none ∧
        x.el O.PLAN_AT 0 = v ∧ sameElems [(O.PLAN_AT, 0), (O.PLAN_SCHED_STATUS, 0)] a x ∧ x.out = a.out ∧ x.mem = s.mem) ∧
    (v ≠ 0#64 → a.timePassed v.toNat = true →
      ∃ x, exec (.planAt via v) s = .next (recordWrite via O.PLAN_AT 0 .late x) ∧
        (a.elN O.PLAN_LATE_POLICY 0 = 0 → x.planSched = schRejected ∧ x.timing.hop = a.timing.hop) ∧
        (a.elN O.PLAN_LATE_POLICY 0 ≠ 0 → x.planSched = schLate ∧
          (a.timing.hop = none → x.timing.hop = some (a.elN O.PLAN_AT_SLOT 0)) ∧
          (a.timing.hop ≠ none → x.timing.hop = a.timing.hop ∧ x.timing.hopDue = some (a.elN O.PLAN_AT_SLOT 0))) ∧
        sameElems [(O.PLAN_SCHED_STATUS, 0), (O.PLAN_ACTIVE, 0)] a x ∧ x.mem = s.mem)) ∧
  (∀ s : State,
    (s.planSched ≠ schPending ∨ s.timing.hopDue ≠ none → exec .scheduledPlanHop s = .next s) ∧
    (s.planSched = schPending → s.timing.hopDue = none →
      ∃ u, exec .scheduledPlanHop s = .next u ∧ u.mtime = (advanceMod (s.elN O.PLAN_AT 0 * ns) s).mtime ∧
        (s.tmbOn = true → s.slewFrac < 1000000 → max s.mtime (s.elN O.PLAN_AT 0 * ns) ≤ u.mtime ∧
          u.mtime ≤ max s.mtime (s.elN O.PLAN_AT 0 * ns) + 1) ∧
        (s.timing.hop = none → u.timing.hop = some (s.elN O.PLAN_AT_SLOT 0) ∧ u.el O.PLAN_ACTIVE 0 = s.el O.PLAN_AT_SLOT 0 ∧
          u.planSched = schDone) ∧
        (s.timing.hop ≠ none → u.timing.hop = s.timing.hop ∧ u.timing.hopDue = some (s.elN O.PLAN_AT_SLOT 0) ∧ u.elems = s.elems) ∧
        sameElems [(O.PLAN_ACTIVE, 0), (O.PLAN_SCHED_STATUS, 0)] s u ∧ u.out = s.out ∧ u.mem = s.mem)) ∧
  (∀ (via : Via) (v : W64) (s a : State), a = asked via O.OUT_APPLY s → Passes via O.OUT_APPLY 0 v s →
    (v ≠ 1#64 ∨ a.elN O.APPLY_SOURCE 0 = 1 → exec (.outApply via v) s = .next (refusedWith via O.OUT_APPLY 0 .invalid s)) ∧
    (v = 1#64 → a.elN O.APPLY_SOURCE 0 ≠ 1 →
      ∃ x, exec (.outApply via v) s = .next (accepted via O.OUT_APPLY 0 x) ∧ x.mem = s.mem ∧
        (a.timing.hop ≠ none → x.timing.heldApply = true ∧ x.elems = a.elems ∧ x.out = a.out) ∧
        (a.timing.hop = none → (∀ n, n < 8 → x.el O.OUT_ACTIVE n = a.el O.OUT_CFG n) ∧
          (a.restarted .sync = false → x.out = a.out ++ [.outputsRestart a.clock (((List.range 8).filter x.outEnable).map (fun n =>
            (n, a.clock + 40 * ns + x.outDelay n * sec / (64 * a.vcoHz))))] ∧ x.restarted .apply = true ∧ x.aux0PhaseNow = 0) ∧
          (a.restarted .sync = true → x.out = a.out)))) ∧
  (∀ s : State,
    ∃ u, exec .syncInEdge s = .next u ∧ u.el O.SYNC_IN_COUNT 0 = satAdd (s.el O.SYNC_IN_COUNT 0) 1 ∧ u.mem = s.mem ∧
      (s.timing.hop ≠ none → u.timing.heldSync = true ∧ sameElems [(O.SYNC_IN_COUNT, 0)] s u ∧ u.out = s.out) ∧
      (s.timing.hop = none →
        (∀ n, n < 8 → u.el O.OUT_ACTIVE n = (if s.elN O.APPLY_SOURCE 0 = 1 then s.el O.OUT_CFG n else s.el O.OUT_ACTIVE n)) ∧
        (s.restarted .apply = false → u.out = s.out ++ [.outputsRestart s.clock (((List.range 8).filter u.outEnable).map (fun n =>
          (n, s.clock + 40 * ns + u.outDelay n * sec / (64 * s.vcoHz))))] ∧ u.restarted .sync = true ∧ u.aux0PhaseNow = 0) ∧
        (s.restarted .apply = true → u.out = s.out)))

/-- PPS_OUT, PPS_OUT_WIDTH_END, TRIG_IO_CFG, TRIG_IO_INPUT_EDGE, TRIG_IO_PULSE_END, EDGE_AT, SCHEDULED_EDGE, AUX1_PUSH, AUX1_FLUSH and
AUX1_SAMPLE (R135, R441-R443, R445, R454): PPS_OUT rises at the whole second and falls after its width, with the pins under `PPS`; a pin
takes its function, what the old one drove is over, and `INVERT` applies to every output function; an `INPUT` pin records and counts
its rising edges, falling ones under `INVERT`; an edge is performed at its time, under a slew at most 1/65,536 ns past it as PPS_OUT is, and
a late one follows its policy; AUX1_OUT gives the level of its sequencer, the codes of its queue or 0. (A change between output
functions, and the edges of a pin under `CLOCK`: log entries 81 and 176.) -/
def Obligations.PinsPulsesAndSamples : Prop :=
  (∀ s : State,
    (s.tmbOn = false → exec .ppsOut s = .next s) ∧
    (s.tmbOn = true → s.timing.ppsHigh = false →
      ∃ u, exec .ppsOut s = .next u ∧ u.mtime = (advanceMod ((s.mtime / sec + 1) * sec) s).mtime ∧ u.elems = s.elems ∧ u.mem = s.mem ∧
        (s.slew = 0 → u.mtime = (s.mtime / sec + 1) * sec) ∧
        (s.slewFrac < 1000000 → (s.mtime / sec + 1) * sec ≤ u.mtime ∧ u.mtime ≤ (s.mtime / sec + 1) * sec + 1) ∧
        (s.elB O.PPS_OUT_ENABLE 0 = false → u.timing.ppsHigh = false ∧ u.out = s.out) ∧
        (s.elB O.PPS_OUT_ENABLE 0 = true → u.timing.ppsHigh = true ∧ u.timing.ppsAt = u.clock ∧ (∃ l, u.out = s.out ++ .pps true :: l) ∧
          ∀ n, n < 4 → (s.pinFunction n = 3 → (u.pin n).level = !bit (s.el O.TRIG_IO_CFG n) 6) ∧
            (s.pinFunction n ≠ 3 → u.pin n = s.pin n))) ∧
    (s.timing.ppsHigh = false → exec .ppsOutWidthEnd s = .next s) ∧
    (s.timing.ppsHigh = true →
      ∃ u, exec .ppsOutWidthEnd s = .next u ∧ u.timing.ppsHigh = false ∧ u.elems = s.elems ∧ u.mem = s.mem ∧
        u.clock = max s.clock (s.timing.ppsAt + s.elN O.PPS_OUT_WIDTH_US 0 * us) ∧ (∃ l, u.out = s.out ++ .pps false :: l) ∧
        ∀ n, n < 4 → (s.pinFunction n = 3 → (u.pin n).level = bit (s.el O.TRIG_IO_CFG n) 6) ∧
          (s.pinFunction n ≠ 3 → u.pin n = s.pin n))) ∧
  (∀ (via : Via) (n : Nat) (v : W64) (s a : State), a = asked via O.TRIG_IO_CFG s → Passes via O.TRIG_IO_CFG n v s → n < 4 →
    (5 ≤ fld v 2 0 ∨ fld v 63 7 ≠ 0 → exec (.trigIoCfg via n v) s = .next (refusedWith via O.TRIG_IO_CFG n .invalid s)) ∧
    (fld v 2 0 < 5 → fld v 63 7 = 0 →
      (∀ b, ownerOf (a.elN O.TRIG_PIN_OWNER n) = some b → a.isArmed b = true →
        exec (.trigIoCfg via n v) s = .next (refusedWith via O.TRIG_IO_CFG n .busy s)) ∧
      ((∀ b, ownerOf (a.elN O.TRIG_PIN_OWNER n) = some b → a.isArmed b = false) →
        ∃ x, exec (.trigIoCfg via n v) s = .next (accepted via O.TRIG_IO_CFG n x) ∧ x.el O.TRIG_IO_CFG n = v ∧
          (fld v 2 0 = 0 → (x.pin n).level = false) ∧
          (fld v 2 0 ≠ a.pinFunction n → (x.pin n).setState = false ∧ (x.pin n).pulseEnd = none ∧
            (fld v 2 0 = 1 ∨ fld v 2 0 = 4 → (x.pin n).level = bit v 6) ∧
            (fld v 2 0 = 2 → (x.pin n).level = Bool.xor (a.outLevel (fld v 5 3)) (bit v 6)) ∧
            (fld v 2 0 = 3 → (x.pin n).level = Bool.xor a.timing.ppsHigh (bit v 6)) ∧
            (a.pinFunction n = 4 → a.edgeSched n = schPending → x.edgeSched n = schFailed)) ∧
          (fld v 2 0 = a.pinFunction n → (x.pin n).setState = (a.pin n).setState ∧ (x.pin n).pulseEnd = (a.pin n).pulseEnd) ∧
          (∀ j, j ≠ n → x.pin j = a.pin j) ∧ sameElems [(O.TRIG_IO_CFG, n), (O.EDGE_SCHED_STATUS, n)] a x ∧ x.mem = s.mem))) ∧
  (∀ (n : Fin 4) (t : Nat) (rising : Bool) (s : State),
    (s.pinFunction n ≠ 0 ∨ rising = bit (s.el O.TRIG_IO_CFG n) 6 → exec (.trigIoInputEdge n { t := t, rising := rising }) s = .next s) ∧
    (s.pinFunction n = 0 → rising ≠ bit (s.el O.TRIG_IO_CFG n) 6 → t < 2 ^ 48 * sec →
      ∃ u, exec (.trigIoInputEdge n { t := t, rising := rising }) s = .next u ∧
        fld (u.el O.TRIG_IN_TIME (2 * n)) 47 0 * sec + fld (u.el O.TRIG_IN_TIME (2 * n + 1)) 31 0 * ns
          + fld (u.el O.TRIG_IN_TIME (2 * n + 1)) 47 32 = t ∧
        u.el O.TRIG_IN_COUNT n = satAdd (s.el O.TRIG_IN_COUNT n) 1 ∧
        sameElems [(O.TRIG_IN_TIME, 2 * n), (O.TRIG_IN_TIME, 2 * n + 1), (O.TRIG_IN_COUNT, n)] s u ∧ u.out = s.out ∧ u.mem = s.mem)) ∧
  (∀ (n : Fin 4) (s : State),
    ((s.pin n).pulseEnd = none → exec (.trigIoPulseEnd n) s = .next s) ∧
    (∀ e, (s.pin n).pulseEnd = some e →
      ∃ u, exec (.trigIoPulseEnd n) s = .next u ∧ u.clock = max s.clock e ∧ (u.pin n).pulseEnd = none ∧
        (u.pin n).setState = (s.pin n).setState ∧
        (s.pinFunction n = 1 ∨ s.pinFunction n = 4 → (u.pin n).level = Bool.xor (s.pin n).setState (bit (s.el O.TRIG_IO_CFG n) 6)) ∧
        (∀ j, j ≠ n.val → u.pin j = s.pin j) ∧ u.elems = s.elems ∧ u.mem = s.mem)) ∧
  (∀ (via : Via) (n : Nat) (v : W64) (s a : State), a = asked via O.EDGE_AT s → Passes via O.EDGE_AT n v s → n < 4 →
    (a.pinFunction n ≠ 4 → exec (.edgeAt via n v) s = .next (refusedWith via O.EDGE_AT n .invalid s)) ∧
    (a.pinFunction n = 4 →
      (v = 0#64 ∨ a.timePassed v.toNat = false →
        ∃ x, exec (.edgeAt via n v) s = .next (accepted via O.EDGE_AT n x) ∧ x.el O.EDGE_AT n = v ∧
          x.edgeSched n = (if v = 0#64 then schNone else schPending) ∧
          sameElems [(O.EDGE_AT, n), (O.EDGE_SCHED_STATUS, n)] a x ∧ x.out = a.out ∧ x.mem = s.mem) ∧
      (v ≠ 0#64 → a.timePassed v.toNat = true →
        ∃ x, exec (.edgeAt via n v) s = .next (recordWrite via O.EDGE_AT n .late x) ∧
          (a.elN O.EDGE_LATE_POLICY n = 0 → x.edgeSched n = schRejected ∧ x.pin n = a.pin n) ∧
          (a.elN O.EDGE_LATE_POLICY n ≠ 0 → x.edgeSched n = schLate ∧
            (a.elN O.EDGE_OP n = 0 → (x.pin n).setState = true) ∧ (a.elN O.EDGE_OP n = 1 → (x.pin n).setState = false) ∧
            (a.elN O.EDGE_OP n = 2 → (x.pin n).pulseEnd =
              some (max (a.clock + a.elN O.TRIG_PULSE_NS n * ns) ((a.pin n).pulseEnd.getD 0)))) ∧
          (∀ j, j ≠ n → x.pin j = a.pin j) ∧ sameElems [(O.EDGE_SCHED_STATUS, n)] a x ∧ x.mem = s.mem))) ∧
  (∀ (n : Fin 4) (s t : State), t = advanceMod (s.elN O.EDGE_AT n * ns) s →
    (s.edgeSched n ≠ schPending → exec (.scheduledEdge n) s = .next s) ∧
    (s.edgeSched n = schPending →
      ∃ u, exec (.scheduledEdge n) s = .next u ∧ u.edgeSched n = schDone ∧ u.clock = t.clock ∧ u.mtime = t.mtime ∧
        (s.tmbOn = true → s.slewFrac < 1000000 → max s.mtime (s.elN O.EDGE_AT n * ns) ≤ u.mtime ∧
          u.mtime ≤ max s.mtime (s.elN O.EDGE_AT n * ns) + 1) ∧
        (s.elN O.EDGE_OP n = 0 → (u.pin n).setState = true) ∧ (s.elN O.EDGE_OP n = 1 → (u.pin n).setState = false) ∧
        (s.elN O.EDGE_OP n = 2 → (u.pin n).pulseEnd =
          some (max (t.clock + s.elN O.TRIG_PULSE_NS n * ns) ((s.pin n).pulseEnd.getD 0))) ∧
        (s.pinFunction n = 4 → (u.pin n).level =
          Bool.xor ((u.pin n).setState || (u.pin n).pulseEnd.isSome) (bit (s.el O.TRIG_IO_CFG n) 6)) ∧
        (∀ j, j ≠ n.val → u.pin j = s.pin j) ∧ sameElems [(O.EDGE_SCHED_STATUS, n.val)] s u ∧ u.mem = s.mem)) ∧
  (∀ (via : Via) (v : W64) (s a : State), a = asked via O.AUX1_PUSH s → Passes via O.AUX1_PUSH 0 v s →
    (65532 < a.timing.aux1Queue.length → exec (.aux1Push via v) s = .next (refusedWith via O.AUX1_PUSH 0 .noResource s)) ∧
    (a.timing.aux1Queue.length ≤ 65532 →
      ∃ x, exec (.aux1Push via v) s = .next (accepted via O.AUX1_PUSH 0 x) ∧
        x.timing.aux1Queue = a.timing.aux1Queue ++ [fld v 15 0, fld v 31 16, fld v 47 32, fld v 63 48] ∧
        x.elN O.AUX1_FILL 0 = a.timing.aux1Queue.length + 4 ∧ sameElems [(O.AUX1_FILL, 0)] a x ∧ x.out = a.out ∧ x.mem = s.mem)) ∧
  (∀ (via : Via) (v : W64) (s a : State), a = asked via O.AUX1_FLUSH s → Passes via O.AUX1_FLUSH 0 v s →
    ∃ x, exec (.aux1Flush via v) s = .next (accepted via O.AUX1_FLUSH 0 x) ∧ x.timing.aux1Queue = [] ∧ x.elN O.AUX1_FILL 0 = 0 ∧
      sameElems [(O.AUX1_FILL, 0)] a x ∧ x.out = a.out ∧ x.mem = s.mem) ∧
  (∀ s : State,
    (s.tmbOn = false → exec .aux1Sample s = .next s) ∧
    (s.tmbOn = true →
      ∃ u code, exec .aux1Sample s = .next u ∧ u.out = s.out ++ [.aux1 code] ∧ u.timing.aux1Code = code ∧ u.timing.aux1At = u.clock ∧
        u.clock = max s.clock (s.timing.aux1At + s.elN O.AUX1_DIV 0 * 51200) ∧ u.mem = s.mem ∧
        (s.elN O.AUX1_SOURCE 0 = 0 → code = 4096 * fld (s.el O.SQ_STATUS (s.elN O.AUX1_SQ 0)) 3 0 ∧ u.elems = s.elems) ∧
        (∀ c q, s.elN O.AUX1_SOURCE 0 = 1 → s.timing.aux1Queue = c :: q →
          code = c ∧ u.timing.aux1Queue = q ∧ u.elN O.AUX1_FILL 0 = q.length % 2 ^ 64 ∧ sameElems [(O.AUX1_FILL, 0)] s u) ∧
        (s.elN O.AUX1_SOURCE 0 = 1 → s.timing.aux1Queue = [] →
          code = s.timing.aux1Code ∧ u.el O.AUX1_UNDERRUN 0 = satAdd (s.el O.AUX1_UNDERRUN 0) 1 ∧ sameElems [(O.AUX1_UNDERRUN, 0)] s u) ∧
        (s.elN O.AUX1_SOURCE 0 = 2 → code = 0 ∧ u.elems = s.elems)))

/-! ## Modes, power, errors and health -/

/-- INPUT_IN_RANGE, POWER_LOSS, FW_AUTH, BRINGUP_COMPLETE and IDLE_ENTRY (R333, R349, R458, R462-R464, R478, R479, R483): the input in its
range for 20 ms takes `COLD` to `BOOT` with what the journal's sealed entries give; power loss leaves nothing but them (the entry
whose content is complete is sealed still); an authentic slot starts the service firmware, the other one where the active one fails, and with
neither `RECOVERY` is set in `BOOT`; `BRINGUP` and an idle `SERVICE` go to `IDLE`, with every rank in self-refresh. (No rank waits to be
retired.) (What outlives power, and the operands of FW_AUTH: log entries 111 and 178.) -/
def Obligations.PowerAndBootFollowTheirTables : Prop :=
  (∀ (milliV : Nat) (s : State),
    (s.mode.base ≠ .cold ∨ s.mode.offReady = true ∨ milliV < 40000 ∨ 60000 < milliV → exec (.inputInRange milliV) s = .next s) ∧
    (s.mode.base = .cold → s.mode.offReady = false → 40000 ≤ milliV → milliV ≤ 60000 → (∀ p ∈ s.flash.prot, protKey p.1 = true) →
      s.flash.subsys.length = 4 → s.flash.fatal.length ≤ 4 →
      ∃ u, exec (.inputInRange milliV) s = .next u ∧ u.mode = { s.mode with base := .boot } ∧ u.clock = s.clock + 20 * ms ∧
        u.elN O.VIN_MV 0 = milliV ∧ u.el O.PROP_SEQ 0 = BitVec.ofNat 64 s.flash.propReserved ∧
        u.el O.SPARE_COUNT 0 = BitVec.ofNat 64 s.flash.spare ∧ u.el O.FW_ACTIVE 0 = BitVec.ofNat 64 s.flash.active ∧
        (∀ r, r < 32 → (s.rankState r = rankRetired → u.rankState r = rankRetired) ∧
          (s.rankState r = rankFilling → u.rankState r = rankInService)) ∧ u.flash = s.flash ∧ u.mem = s.mem)) ∧
  (∀ s : State,
    ∃ u, exec .powerLoss s = .next u ∧ u.mode.base = .cold ∧ u.mem = [] ∧ u.clock = 0 ∧ u.mtime = 0 ∧ u.tmbOn = false ∧
      (s.journal.pending = [] ∨ s.journal.stopped = true → u.flash = s.flash) ∧
      (∀ e l, s.journal.pending = e :: l → s.journal.stopped = false →
        (s.journal.content = true → u.flash = sealedFlash e s.flash) ∧ (u.flash = s.flash ∨ u.flash = sealedFlash e s.flash)) ∧
      u.fw.page = none ∧ (s.fw.page = none → u.fw.image0 = s.fw.image0 ∧ u.fw.image1 = s.fw.image1) ∧
      (∀ k ws, s.fw.page = some (k, ws) →
        (s.flash.active = 0 → u.fw.image1 = (k, ws) :: s.fw.image1.filter (fun p => decide (p.1 ≠ k))) ∧
        (s.flash.active = 1 → u.fw.image0 = (k, ws) :: s.fw.image0.filter (fun p => decide (p.1 ≠ k)))) ∧
      ∀ r, r < 32 → s.rankState r = rankRetired → u.rankState r = rankRetired) ∧
  (∀ (ok0 ok1 okA okB : Bool) (s : State),
    (s.mode.base ≠ .boot ∨ s.mode.recovery = some 0xB0 → exec (.fwAuth ok0 ok1) s = .next s) ∧
    (s.mode.base = .boot → s.mode.recovery ≠ some 0xB0 → s.flash.active < 2 →
      okA = ((if s.flash.active = 0 then ok0 && s.fw.valid0 else ok1 && s.fw.valid1) && authentic (s.fw.image s.flash.active)) →
      okB = ((if s.flash.active = 0 then ok1 && s.fw.valid1 else ok0 && s.fw.valid0) && authentic (s.fw.image (1 - s.flash.active))) →
      ∃ u, exec (.fwAuth ok0 ok1) s = .next u ∧ bit (u.el O.FW_SLOT s.flash.active) 48 = okA ∧
        bit (u.el O.FW_SLOT (1 - s.flash.active)) 48 = okB ∧ u.mem = s.mem ∧
        (okA = true → u.mode.base = .bringup ∧ u.tmbOn = true ∧ u.journal = s.journal) ∧
        (okA = false → okB = true → u.mode.base = .bringup ∧ u.tmbOn = true ∧ 1 ≤ u.elN O.ERR_NOTIFIED 11 ∧
          u.journal.pending = s.journal.pending ++ [.activeSlot (1 - s.flash.active)]) ∧
        (okA = false → okB = false → u.mode.base = .boot ∧ u.mode.recovery = some (s.mode.recovery.getD 0xB0) ∧
          3 ≤ u.elN O.ERR_NOTIFIED 11))) ∧
  (∀ s : State,
    (s.mode.base ≠ .bringup ∨ s.calibrated = false ∨ s.mode.safe = true ∨ s.mode.recovery ≠ none → exec .bringupComplete s = .next s) ∧
    (s.mode.base = .bringup → s.calibrated = true → s.mode.safe = false → s.mode.recovery = none →
      (∀ r, (s.rank r).retireDue = false) →
      ∃ u, exec .bringupComplete s = .next u ∧ u.mode = { s.mode with base := (if s.jobDue = true then .service else .idle) } ∧
        u.everIdle = true ∧ u.warmPass = false ∧ (∀ r ∈ s.poweredRanks, (u.rank r).selfRef = true) ∧ u.mem = s.mem)) ∧
  (∀ s : State,
    (s.mode.base ≠ .service ∨ s.armedBenches ≠ [] ∨ s.storeReqs ≠ [] ∨ s.jobDue = true → exec .idleEntry s = .next s) ∧
    (s.mode.base = .service → s.armedBenches = [] → s.storeReqs = [] → s.jobDue = false →
      ∃ u, exec .idleEntry s = .next u ∧ u.mode = { s.mode with base := .idle } ∧
        u.clock = max s.clock (s.idleSince + s.elN O.IDLE_ENTRY_MS 0 * ms) ∧ (∀ r ∈ s.poweredRanks, (u.rank r).selfRef = true) ∧
        u.mem = s.mem))

/-- END_EXCLUSIVE, EXCLUSIVE, QUIESCE_IDLE, QUIESCE_OFF, FACTORY, QUIESCE_COMPLETE and WARM_RESET (R204, R206, R309, R459-R461, R463,
R465-R467, R476): each command of `MODE_CMD` is refused as R459 says, and else takes the module to its mode; quiesce complete goes to
`IDLE`, with what drain queues in `MASTER_OFF` hold discarded (R310), or switches the module off with the journal's requested entries sealed, after a `SAFE` trigger only the one whose
program runs (R476); a warm reset, merged into one in progress and refused while a die is too hot, goes to
`BOOT` with module time running on and every object of area 2 kept. (That it is refused while a `SAFE` trigger still waits for a flash
program: log entry 115.) (What the streams write at a warm reset is R204's, and
`MODE_FLAGS` keeps `EXCLUSIVE` and `DEGRADED`: log entry 60.) (What a warm reset keeps: log entry 114.) -/
def Obligations.ModeCommandsFollowTheirRefusals : Prop :=
  (∀ (via : Via) (s a : State), a = asked via O.MODE_CMD s →
    (Passes via O.MODE_CMD 0 1#64 s →
      (a.mode.exclusive = none ∨ a.modeHeld = true → exec (.endExclusive via) s = .next (refusedWith via O.MODE_CMD 0 .busy s)) ∧
      (a.mode.exclusive ≠ none → a.modeHeld = false →
        ∃ x, exec (.endExclusive via) s = .next (accepted via O.MODE_CMD 0 x) ∧ x.mode = { a.mode with exclusive := none } ∧
          (a.fencedBanks = [] → x.elN O.POOL_MODE 0 = 0) ∧ (a.fencedBanks ≠ [] → x.el O.POOL_MODE 0 = a.el O.POOL_MODE 0) ∧
          x.mem = s.mem)) ∧
    (∀ b : Fin 1024, Passes via O.MODE_CMD 0 (put 2 0 ||| put b.val 16) s →
      (bit (a.el O.BENCH_RIGHTS b) 1 = false → exec (.exclusive via b) s = .next (refusedWith via O.MODE_CMD 0 .invalid s)) ∧
      (bit (a.el O.BENCH_RIGHTS b) 1 = true →
        ((∃ c ∈ a.armedBenches, c ≠ b.val) ∨ a.mode.exclusive ≠ none ∨ a.modeHeld = true →
          exec (.exclusive via b) s = .next (refusedWith via O.MODE_CMD 0 .busy s)) ∧
        ((∀ c ∈ a.armedBenches, c = b.val) → a.mode.exclusive = none → a.modeHeld = false →
          ∃ x, exec (.exclusive via b) s = .next (accepted via O.MODE_CMD 0 x) ∧ x.mode = { a.mode with exclusive := some b.val } ∧
            (a.elN O.POOL_PARTITION_EXCL 0 = 1 → x.elN O.POOL_MODE 0 = 1) ∧ x.mem = s.mem))) ∧
    (∀ off : Bool, Passes via O.MODE_CMD 0 (if off then 4#64 else 3#64) s →
      (a.mode.base ≠ .idle ∧ a.mode.base ≠ .service ∨ a.modeHeld = true →
        exec (if off then .quiesceOff via else .quiesceIdle via) s = .next (refusedWith via O.MODE_CMD 0 .busy s)) ∧
      (a.mode.base = .idle ∨ a.mode.base = .service → a.modeHeld = false →
        ∃ x, exec (if off then .quiesceOff via else .quiesceIdle via) s = .next (accepted via O.MODE_CMD 0 x) ∧
          x.mode.base = .quiesce ∧ x.mode.quiesceOff = off ∧ x.quiesceSince = a.clock ∧ x.clock = a.clock ∧ x.mem = s.mem)) ∧
    (Passes via O.MODE_CMD 0 5#64 s →
      (a.mode.base ≠ .idle ∨ a.modeHeld = true →
        exec (.factory via) s = .next (refusedWith via O.MODE_CMD 0 (if Config.orderingLF then .busy else .denied) s)) ∧
      (a.mode.base = .idle → a.modeHeld = false →
        exec (.factory via) s = .next (if Config.orderingLF then accepted via O.MODE_CMD 0 (a.setMode { a.mode with base := .factory })
          else refusedWith via O.MODE_CMD 0 .denied s)))) ∧
  (∀ s : State,
    (s.mode.base ≠ .quiesce ∨ s.armedBenches ≠ [] ∨ s.drainsDone = false ∨ s.storeReqs.any StoreReq.writes = true ∧ s.storeTakes = false →
      exec .quiesceComplete s = .next s) ∧
    (s.mode.base = .quiesce → s.armedBenches = [] → s.drainsDone = true → s.storeReqs = [] →
      (s.mode.quiesceOff = false → s.jobDue = false →
        ∃ u, exec .quiesceComplete s = .next u ∧ u.mode = { s.mode with base := .idle } ∧ u.mem = s.mem ∧
          (∀ q, s.qKind q = 1 → (u.queue q).pkts = []) ∧
          ∀ r ∈ s.poweredRanks, (u.rank r).selfRef = true) ∧
      (s.mode.quiesceOff = true → s.mig = none →
        ∃ u, exec .quiesceComplete s = .next u ∧ u.mode.base = .cold ∧ u.mode.offReady = true ∧ u.mem = [] ∧
          (s.journal.blocked = false → u.flash = s.journal.pending.foldl (fun f e => sealedFlash e f) s.flash) ∧
          (s.journal.blocked = true →
            u.flash = s.flash ∨ ∃ e l, s.journal.pending = e :: l ∧ u.flash = sealedFlash e s.flash)))) ∧
  (∀ (via : Via) (v : W64) (s a : State), a = asked via O.WARM_RESET s → Passes via O.WARM_RESET 0 v s →
    (v ≠ 1#64 → exec (.warmReset via v) s = .next (refusedWith via O.WARM_RESET 0 .invalid s)) ∧
    (v = 1#64 → a.resetting = true → exec (.warmReset via v) s = .next (accepted via O.WARM_RESET 0 a)) ∧
    (v = 1#64 → a.resetting = false → a.health.safePend = true ∨ a.mode.safe = true ∧ 90000 ≤ w64Int (a.el O.TEMP_MC 0) →
      exec (.warmReset via v) s = .next (recordWrite via O.WARM_RESET 0 .busy a.drawn)) ∧
    (v = 1#64 → a.resetting = false → a.health.safePend = false → a.mode.safe = false → a.journal.content = false → (∀ p ∈ a.flash.prot, protKey p.1 = true) →
      a.flash.subsys.length = 4 → a.flash.fatal.length ≤ 4 →
      ∃ x, exec (.warmReset via v) s = .next (accepted via O.WARM_RESET 0 x) ∧ x.mode.base = .boot ∧ x.mode.safe = false ∧
        x.mode.recovery = none ∧ x.mode.exclusive = a.mode.exclusive ∧ x.warmPass = true ∧ x.everIdle = a.everIdle ∧
        x.clock = a.clock ∧ x.mtime = a.mtime ∧ x.timing = a.timing ∧ x.flash = a.flash ∧ x.elN O.RESET_CAUSE 0 = 1 ∧ x.packets = [] ∧
        x.sessions = [] ∧ x.calibrated = false ∧ x.elN O.FW_STATE 0 = fwIdle ∧
        ∀ k, k / 2 ^ 28 / 4096 = 2 → Tab.get elemDefault x.elems k = Tab.get elemDefault a.elems k))

/-- SENSOR_READ, INPUT_RANGE and RAIL_FAULT (R461, R474-R476, Tables 13.7 and 13.10): the readings are shown, the highest die reading in
`TEMP_MC`[0], and the limits of Table 13.10 act on it: the warning at 90 °C, the assay throttle at 95 °C, the drain throttle after 2 s of it,
both released after 1 s below 92 °C, drains first. 105 °C, an input outside 38-62 V and a bad rail are `SAFE` triggers: no new flash
program starts, and `SAFE` is set once none runs, with every tile gated. (When `SAFE` is set, and the order of the readings:
log entries 115 and 116.) -/
def Obligations.ReadingsThrottleAndTriggerSafe : Prop :=
  (∀ (l : List Int) (milliV milliW : Nat) (s : State) (hot : Int),
    hot = ([1, 2, 3, 4, 5, 6, 7, 8, 10].map (fun k => l.getD k 0)).foldl max (l.getD 0 0) →
    (s.mode.base = .cold → exec (.sensorRead l milliV milliW) s = .next s) ∧
    (s.mode.base ≠ .cold →
      ∃ u, exec (.sensorRead l milliV milliW) s = .next u ∧ u.clock = max s.clock (s.health.readAt + 100 * us) ∧
        u.health.readAt = u.clock ∧ u.el O.TEMP_MC 0 = intW64 hot ∧ (∀ i, i < 10 → u.el O.TEMP_MC (i + 1) = intW64 (l.getD (i + 1) 0)) ∧
        u.elN O.VIN_MV 0 = milliV % 2 ^ 64 ∧ u.elN O.PIN_MW 0 = milliW % 2 ^ 64 ∧ u.mem = s.mem ∧
        u.health.warned = (if 90000 ≤ hot then true else if hot < 88000 then false else s.health.warned) ∧
        (95000 ≤ hot → u.health.assayThrottle = true ∧
          (s.health.assayThrottle = true → s.health.hotSince + 2 * sec ≤ u.clock → u.health.drainThrottle = true)) ∧
        (92000 ≤ hot → hot < 95000 →
          u.health.assayThrottle = s.health.assayThrottle ∧ u.health.drainThrottle = s.health.drainThrottle ∧ u.health.coolSince = none) ∧
        (hot < 92000 →
          (s.health.coolSince = none → u.health.assayThrottle = s.health.assayThrottle ∧
            u.health.drainThrottle = s.health.drainThrottle ∧ u.health.coolSince = some u.clock) ∧
          (∀ c, s.health.coolSince = some c →
            (u.clock < c + sec →
              u.health.assayThrottle = s.health.assayThrottle ∧ u.health.drainThrottle = s.health.drainThrottle) ∧
            (c + sec ≤ u.clock → u.health.drainThrottle = false ∧
              u.health.assayThrottle = (s.health.drainThrottle && s.health.assayThrottle)))) ∧
        u.elN O.THERMAL_STATE 0 = (if u.mode.safe = true ∧ u.mode.safeTemp = true then 4 else if u.health.drainThrottle = true then 3
          else if u.health.assayThrottle = true then 2 else if u.health.warned = true then 1 else 0) ∧
        (105000 ≤ hot → s.mode.safeTemp = false → u.mode.safeTemp = true ∧ u.journal.blocked = true ∧
          (u.journal.pending = [] → s.fw.page = none → u.mode.safe = true ∧ ∀ k, k < 16 → u.elN O.TILE_STATE k ≠ 0) ∧
          (u.journal.pending ≠ [] ∨ s.fw.page ≠ none → s.mode.safe = false → u.health.safePend = true)))) ∧
  (∀ (milliV : Nat) (s : State),
    (s.mode.base = .cold ∨ 38000 ≤ milliV ∧ milliV ≤ 62000 → exec (.inputRange milliV) s = .next s) ∧
    (s.mode.base ≠ .cold → milliV < 38000 ∨ 62000 < milliV →
      ∃ u, exec (.inputRange milliV) s = .next u ∧ u.elN O.VIN_MV 0 = milliV % 2 ^ 64 ∧ u.mode.safeInput = true ∧
        u.journal.blocked = true ∧ 3 ≤ u.elN O.ERR_NOTIFIED 12 ∧ u.mem = s.mem ∧
        (u.journal.pending = [] → s.fw.page = none → u.mode.safe = true ∧ ∀ k, k < 16 → u.elN O.TILE_STATE k ≠ 0) ∧
        (u.journal.pending ≠ [] ∨ s.fw.page ≠ none → s.mode.safe = false → u.health.safePend = true))) ∧
  (∀ (rail : Nat) (s : State),
    (s.mode.base = .cold → exec (.railFault rail) s = .next s) ∧
    (s.mode.base ≠ .cold →
      ∃ u, exec (.railFault rail) s = .next u ∧ u.mode.safeRail = true ∧ u.journal.blocked = true ∧ 3 ≤ u.elN O.ERR_NOTIFIED 12 ∧
        u.mem = s.mem ∧
        (u.journal.pending = [] → s.fw.page = none → u.mode.safe = true ∧ ∀ k, k < 16 → u.elN O.TILE_STATE k ≠ 0) ∧
        (u.journal.pending ≠ [] ∨ s.fw.page ≠ none → s.mode.safe = false → u.health.safePend = true)))

/-- ERR_ACK, TILE_UE, TILE_RESET, TILE_TEST_DONE, SERVICE_WATCHDOG, SERVICE_RESTART_DONE and TEST_SLOT (R79, R80, R470-R473,
R484-R487): an acknowledgement clears its source's records; a corrected error of a tile is recorded, any other fences it with
`DEGRADED`, the benches stay armed; a
tile reset, refused with `BUSY` while an armed bench uses the tile, clears the counters of its units and tests it, and a passed test
lifts the fence; a restart of the service cores breaks their locks and closes every session; a test slot is counted, and a mismatch
recorded; an error it finds through check bits is handled as its class says: the tile is fenced, the ingot left scrubbed, the pool bank
fenced. (The numbering of units, what TS_PASSES counts and that an error found through check bits is no failure: log entries 31, 118
and 177.) -/
def Obligations.ErrorsFenceTestAndRestart : Prop :=
  (∀ (via : Via) (k : Nat) (v : W64) (s a : State), a = asked via O.ERR_ACK s → Passes via O.ERR_ACK k v s → k < 16 →
    (v ≠ 1#64 → exec (.errAck via k v) s = .next (refusedWith via O.ERR_ACK k .invalid s)) ∧
    (v = 1#64 →
      ∃ x, exec (.errAck via k v) s = .next (accepted via O.ERR_ACK k x) ∧
        (∀ w, w < 4 → x.el O.ERR_FIRST (4 * k + w) = 0#64 ∧ x.el O.ERR_SECOND (4 * k + w) = 0#64) ∧ x.elN O.ERR_OVERFLOW k = 0 ∧
        x.elN O.ERR_NOTIFIED k = 0 ∧
        (∀ j, j < 16 → j ≠ k → x.el O.ERR_NOTIFIED j = a.el O.ERR_NOTIFIED j ∧ x.el O.ERR_OVERFLOW j = a.el O.ERR_OVERFLOW j ∧
          ∀ w, w < 4 → x.el O.ERR_FIRST (4 * j + w) = a.el O.ERR_FIRST (4 * j + w)) ∧ x.inner = a.inner ∧ x.out = a.out)) ∧
  (∀ (tile : Fin 16) (kind : TileError) (s : State),
    ∃ u, exec (.tileUe tile kind) s = .next u ∧ u.benches = s.benches ∧ (∀ b, b < 1024 → u.benchState b = s.benchState b) ∧
      u.mem = s.mem ∧
      (kind = .corrected → u.mode = s.mode ∧ u.el O.TILE_FENCED tile = s.el O.TILE_FENCED tile ∧
        u.el O.TILE_STATE tile = s.el O.TILE_STATE tile ∧ u.el O.ERR_NOTIFIED 15 = s.el O.ERR_NOTIFIED 15 ∧
        (bit (s.el O.ERR_FIRST 8) 63 = false → fld (u.el O.ERR_FIRST 8) 7 0 = 0x20)) ∧
      (kind ≠ .corrected → u.elN O.TILE_FENCED tile = 1 ∧ u.mode = { s.mode with tileFenced := true } ∧
        u.elN O.TILE_STATE tile = (if s.elN O.TILE_STATE tile = tileIsGated then tileIsGated else tileGating) ∧
        2 ≤ u.elN O.ERR_NOTIFIED (if kind = .parity then 15 else 2))) ∧
  (∀ (via : Via) (t : Nat) (v : W64) (s a : State), a = asked via O.TILE_RESET s → Passes via O.TILE_RESET t v s → t < 16 →
    (v ≠ 1#64 → exec (.tileReset via t v) s = .next (refusedWith via O.TILE_RESET t .invalid s)) ∧
    (v = 1#64 → a.tileUsed t = true → exec (.tileReset via t v) s = .next (refusedWith via O.TILE_RESET t .busy s)) ∧
    (v = 1#64 → a.tileUsed t = false →
      ∃ x, exec (.tileReset via t v) s = .next (accepted via O.TILE_RESET t x) ∧ t ∈ x.tileTest ∧
        (∀ i, i < 512 → x.el O.CU_HITS (512 * t + i) = 0#64) ∧ (∀ i, i < 8 → x.el O.SQ_STEPS (8 * t + i) = 0#64) ∧
        (∀ c, c < 8192 → c / 512 ≠ t → x.el O.CU_HITS c = a.el O.CU_HITS c) ∧
        (∀ c, c < 8192 → x.el O.CU_CONFIG c = a.el O.CU_CONFIG c) ∧ x.inner = { a.inner with tileTest := x.tileTest } ∧
        x.out = a.out)) ∧
  (∀ (tile : Fin 16) (pass : Bool) (s : State),
    (tile.val ∉ s.tileTest → exec (.tileTestDone tile pass) s = .next s) ∧
    (tile.val ∈ s.tileTest →
      ∃ u, exec (.tileTestDone tile pass) s = .next u ∧ tile.val ∉ u.tileTest ∧ u.mem = s.mem ∧
        (pass = true → u.elN O.TILE_FENCED tile = 0 ∧ u.out = s.out ∧ sameElems [(O.TILE_FENCED, tile.val), (O.TILE_STATE, tile.val)] s u ∧
          (s.elN O.TILE_POWER tile = 0 → s.elN O.TILE_STATE tile = tileIsGated →
            u.elN O.TILE_STATE tile = (if s.mode.safe then tileIsGated else tileUngating)) ∧
          (s.elN O.TILE_POWER tile ≠ 0 → u.elN O.TILE_STATE tile = tileIsGated ∨ u.elN O.TILE_STATE tile = tileGating)) ∧
        (pass = false → u.elN O.TILE_FENCED tile = 1 ∧ u.mode.tileFenced = true ∧ 2 ≤ u.elN O.ERR_NOTIFIED 2))) ∧
  (∀ s : State,
    (s.mode.base = .cold ∨ s.mode.base = .boot ∨ s.svcDown = true → exec .serviceWatchdog s = .next s) ∧
    (s.mode.base ≠ .cold → s.mode.base ≠ .boot → s.svcDown = false →
      ∃ u, exec .serviceWatchdog s = .next u ∧ u.svcDown = true ∧ 2 ≤ u.elN O.ERR_NOTIFIED 10 ∧ u.mem = s.mem ∧ u.mode = s.mode ∧
        (∀ k, k < 64 → u.session k = none) ∧
        (∀ k, k < 256 → s.lockHeld k = true → (s.lockOwner k).1 = 1 → (s.lockOwner k).2 < 4 → u.lockHeld k = false) ∧
        (∀ k, k < 256 → (s.lockOwner k).1 = 0 → u.el O.LOCK_STATE k = s.el O.LOCK_STATE k)) ∧
    ∃ u, exec .serviceRestartDone s = .next u ∧ u.svcDown = false ∧ u.elems = s.elems ∧ u.out = s.out ∧ u.mem = s.mem) ∧
  (∀ (kind : Fin 4) (unit : Nat) (found : TestOutcome) (s : State),
    (bit (s.el O.TS_ENABLE 0) kind = false ∨ s.mode.safe = true ∨ s.mode.recovery ≠ none ∨ s.mode.base = .quiesce ∨
        s.mode.base = .factory ∨ s.testable kind unit = false → exec (.testSlot kind unit found) s = .next s) ∧
    (s.tests kind = true → s.testable kind unit = true →
      ∃ u, exec (.testSlot kind unit found) s = .next u ∧
        (¬ (kind.val = 3 ∧ found = .uncorrectable) →
          (kind.val = 2 → (∀ m, s.mig = some m → m.src < 32 ∧ m.tgt < 32) ∧ ∀ c, s.rankOf unit c < 32) →
          u.el O.TS_PASSES kind = satAdd (s.el O.TS_PASSES kind) 1 ∧
          (∀ t, s.lastSlot kind = some t → u.clock = max s.clock (t + 100 * us)) ∧
          (found = .mismatch → u.el O.TS_FAILS kind = satAdd (s.el O.TS_FAILS kind) 1 ∧
            u.el O.TS_LAST_FAIL kind = BitVec.ofNat 64 unit ∧ 1 ≤ u.elN O.ERR_NOTIFIED 14) ∧
          (found ≠ .mismatch → u.el O.TS_FAILS kind = s.el O.TS_FAILS kind)) ∧
        (kind.val ≠ 2 → found = .pass → sameElems [(O.TS_PASSES, kind.val)] s u ∧ u.out = s.out) ∧
        (kind.val ≠ 2 ∨ found ≠ .uncorrectable → u.mem = s.mem) ∧
        (kind.val = 2 → found = .uncorrectable →
          (∀ a, cellAddr unit 0 ≤ a → a < cellAddr (unit + 1) 0 → u.byteAt a = 0#8) ∧
          ∀ a, a < cellAddr unit 0 ∨ cellAddr (unit + 1) 0 ≤ a → u.byteAt a = s.byteAt a) ∧
        (∀ t, kind.val = 0 → found = .uncorrectable → unitTile unit = some t → u.elN O.TILE_FENCED t = 1) ∧
        (kind.val = 3 → found = .uncorrectable → unit / bankCells ∈ u.fencedBanks)))

/-- JOURNAL_ENTRY_SEALED, FLASH_PROGRAM_COMPLETE, FW_BEGIN, FW_PAGE, FW_PAGE_PROGRAMMED, FW_FINISH and FW_VERIFY_DONE (R477-R482): entries
are sealed one at a time in the order requested, and only sealed ones are in the flash; an update writes the slot that is not active,
which is invalid meanwhile; one whose signature and security version hold is journaled, and valid and `READY` once that entry is sealed;
each command is refused as R481 says. (Free values say whether a content program is its entry's last and whether it met a bad block, which
is recorded as `FLASH_ERROR`: log entries 63 and 178. While a program may not start, a page is refused with `BUSY`: log entry 64. What
the command's operand says of the slot: log entry 178.) -/
def Obligations.JournalSealsAndFirmwareUpdates : Prop :=
  (∀ s : State,
    (s.journal.pending = [] ∨ s.journal.blocked = true ∧ s.journal.content = false → exec .journalEntrySealed s = .next s) ∧
    (∀ e l, s.journal.pending = e :: l → s.journal.blocked = false → s.mig = none →
      ∃ u, exec .journalEntrySealed s = .next u ∧ u.flash = sealedFlash e s.flash ∧ u.journal.pending = l ∧ u.journal.content = false ∧
        fld (u.el O.JOURNAL_STATE 0) 47 16 = (fld (s.el O.JOURNAL_STATE 0) 47 16 + 1) % 2 ^ 32 ∧
        fld (u.el O.JOURNAL_STATE 0) 15 0 = l.length % 65536 ∧ u.mem = s.mem ∧
        (s.health.safePend = false →
          (∀ n, e = .propReserve n → u.propReserved = n) ∧
          (∀ k, e = .activeSlot k → u.el O.FW_ACTIVE 0 = BitVec.ofNat 64 k ∧ u.fw = s.fw.withSlot k true (s.fw.image k) ∧
            u.fwState = (if s.fwState = fwVerifying then fwReady else s.fwState)) ∧
          sameElems [(O.JOURNAL_STATE, 0), (O.FW_ACTIVE, 0), (O.FW_STATE, 0)] s u)) ∧
    (∀ e l, s.journal.pending = e :: l → s.journal.blocked = true → s.journal.content = true → s.health.safePend = true →
      s.fw.page = none → ∃ u, exec .journalEntrySealed s = .next u ∧ u.mode.safe = true ∧ u.flash = sealedFlash e s.flash)) ∧
  (∀ s : State,
    (s.journal.pending = [] ∨ s.journal.content = true ∨ s.journal.stopped = true → exec .flashProgramComplete s = .next s) ∧
    (s.journal.pending ≠ [] → s.journal.content = false → s.journal.stopped = false →
      ∃ u, exec .flashProgramComplete s = .next u ∧ u.flash = s.flash ∧ u.journal.pending = s.journal.pending ∧ u.mem = s.mem ∧
        (u.journal.content = true ∨ u.journal.content = false ∧ (s.journal.blocked = true → u.journal.stopped = true)) ∧
        (s.journal.blocked = false → u.elems = s.elems ∧ u.out = s.out ∨ 1 ≤ u.elN O.ERR_NOTIFIED 11))) ∧
  (∀ (via : Via) (v : W64) (s a : State),
    (a = asked via O.FW_BEGIN s → Passes via O.FW_BEGIN 0 v s →
      (2 ^ 26 < v.toNat → exec (.fwBegin via v) s = .next (refusedWith via O.FW_BEGIN 0 .invalid s)) ∧
      (v.toNat ≤ 2 ^ 26 → a.fwState = fwVerifying ∨ a.fwState = fwReceiving ∧ v ≠ 0#64 →
        exec (.fwBegin via v) s = .next (refusedWith via O.FW_BEGIN 0 .busy s)) ∧
      (v = 0#64 → a.fwState = fwReceiving →
        ∃ x, exec (.fwBegin via v) s = .next (accepted via O.FW_BEGIN 0 x) ∧ x.fwState = fwIdle ∧ x.flash = a.flash ∧
          sameElems [(O.FW_STATE, 0)] a x ∧ x.mem = s.mem) ∧
      (v ≠ 0#64 → v.toNat ≤ 2 ^ 26 → a.fwState ≠ fwReceiving → a.fwState ≠ fwVerifying → a.flash.active < 2 →
        ∃ x, exec (.fwBegin via v) s = .next (accepted via O.FW_BEGIN 0 x) ∧ x.fwState = fwReceiving ∧ x.fw.len = v.toNat ∧
          (a.flash.active = 0 → x.fw.valid1 = false ∧ x.fw.valid0 = a.fw.valid0 ∧ x.fw.image0 = a.fw.image0) ∧
          (a.flash.active = 1 → x.fw.valid0 = false ∧ x.fw.valid1 = a.fw.valid1 ∧ x.fw.image1 = a.fw.image1) ∧
          bit (x.el O.FW_SLOT (1 - a.flash.active)) 48 = false ∧ x.flash = a.flash ∧
          sameElems [(O.FW_STATE, 0), (O.FW_SLOT, 1 - a.flash.active)] a x ∧ x.mem = s.mem)) ∧
    (a = asked via O.FW_PAGE s → Passes via O.FW_PAGE 0 v s →
      (a.fw.len ≤ v.toNat * 32768 → exec (.fwPage via v) s = .next (refusedWith via O.FW_PAGE 0 .invalid s)) ∧
      (v.toNat * 32768 < a.fw.len → a.fw.page ≠ none ∨ a.journal.blocked = true →
        exec (.fwPage via v) s = .next (refusedWith via O.FW_PAGE 0 .busy s)) ∧
      (v.toNat * 32768 < a.fw.len → a.fw.page = none → a.journal.blocked = false →
        ∃ x ws, exec (.fwPage via v) s = .next (accepted via O.FW_PAGE 0 x) ∧ x.fw.page = some (v.toNat, ws) ∧ ws.length = 4096 ∧
          (∀ k, k < 4096 → ws[k]? = some (a.el O.FW_BUFFER k)) ∧ x.elems = a.elems ∧ x.out = a.out ∧ x.mem = s.mem)) ∧
    (a = asked via O.FW_FINISH s → Passes via O.FW_FINISH 0 v s →
      (v ≠ 1#64 → exec (.fwFinish via v) s = .next (refusedWith via O.FW_FINISH 0 .invalid s)) ∧
      (v = 1#64 → a.fw.page ≠ none → exec (.fwFinish via v) s = .next (refusedWith via O.FW_FINISH 0 .busy s)) ∧
      (v = 1#64 → a.fw.page = none →
        ∃ x, exec (.fwFinish via v) s = .next (accepted via O.FW_FINISH 0 x) ∧ x.fwState = fwVerifying ∧
          sameElems [(O.FW_STATE, 0)] a x ∧ x.inner = a.inner ∧ x.out = a.out))) ∧
  (∀ s : State,
    (s.fw.page = none → exec .fwPageProgrammed s = .next s) ∧
    (∀ k ws, s.fw.page = some (k, ws) →
      ∃ u, exec .fwPageProgrammed s = .next u ∧ u.fw.page = none ∧ u.flash = s.flash ∧ u.mem = s.mem ∧
        (s.flash.active = 0 → u.fw.image1 = (k, ws) :: s.fw.image1.filter (fun p => decide (p.1 ≠ k)) ∧ u.fw.valid1 = false ∧
          u.fw.image0 = s.fw.image0 ∧ u.fw.valid0 = s.fw.valid0) ∧
        (s.flash.active = 1 → u.fw.image0 = (k, ws) :: s.fw.image0.filter (fun p => decide (p.1 ≠ k)) ∧ u.fw.valid0 = false ∧
          u.fw.image1 = s.fw.image1 ∧ u.fw.valid1 = s.fw.valid1))) ∧
  (∀ (ok good : Bool) (s : State),
    (s.fwState ≠ fwVerifying → exec (.fwVerifyDone ok) s = .next s) ∧
    (s.fwState = fwVerifying → s.flash.active < 2 → good = (ok && authentic (s.fw.image (1 - s.flash.active))) →
      ∃ u, exec (.fwVerifyDone ok) s = .next u ∧ bit (u.el O.FW_SLOT (1 - s.flash.active)) 48 = good ∧ u.flash = s.flash ∧
        u.fw = s.fw ∧ u.mem = s.mem ∧
        (good = true → u.journal.pending = s.journal.pending ++ [.activeSlot (1 - s.flash.active)] ∧ u.fwState = fwVerifying) ∧
        (good = false → u.journal = s.journal ∧ u.fwState = fwFailed)))

/-! ## The whole module -/

/-- A step takes the command at the front of the queue and runs it with the queue's rest; on an empty queue one nanosecond passes
(log entry 1: the model's choice), and nothing else changes but the change counter of `LOCK_STATE`, whose leases run (R358). Module time
runs on while it passes, a slew changes its rate by at most 1 ppm, with what is short of a unit carried (R424), and it never runs
backwards (R425). (That a slew uses the whole of that rate: log entry 82.) -/
def Obligations.StepRunsTheFrontCommand : Prop :=
  (∀ (c : Instr) (rest : List Instr) (s : State), s.pending = c :: rest → step s = exec c { s with pending := rest }) ∧
  (∀ s : State, s.pending = [] →
    ∃ t, step s = .next t ∧ t = { s with clock := s.clock + ns, cc := t.cc, mtime := t.mtime, slew := t.slew, slewFrac := t.slewFrac } ∧
      (∀ k, k ≠ O.LOCK_STATE.ccKey 0 → Tab.get (fun _ => 0#32) t.cc k = Tab.get (fun _ => 0#32) s.cc k) ∧
      (s.tmbOn = false → t.mtime = s.mtime) ∧ (s.tmbOn = true → s.slew = 0 → t.mtime = s.mtime + ns)) ∧
  (∀ (d : Nat) (s u : State) (k : Int), u = advance d s → k = (u.mtime : Int) - s.mtime - d → s.tmbOn = true → s.slewFrac < 1000000 →
    s.mtime ≤ u.mtime ∧ k.natAbs * 1000000 ≤ d + s.slewFrac ∧ k = s.slew - u.slew ∧ u.slewFrac < 1000000 ∧
      (u.slew ≠ 0 → k.natAbs * 1000000 + u.slewFrac = d + s.slewFrac))

/-- The state after reset (R424, R428, R430, R431, R438, R441, R448, R450, R453, R454, R458, R465, R486): `COLD`, nothing waiting and nothing sent, module time 0 in
`FREERUN`, every lock free and not broken, no bench armed, no lane up, no rank migrating, the store in its canonical form, and the
elements at their defaults. (Elements and hidden state for which the manual gives no value: log entry 12.) -/
def Obligations.ResetIsPowerOn : Prop :=
  State.reset.mode.base = .cold ∧ State.reset.pending = [] ∧ State.reset.out = [] ∧ State.reset.mtime = 0 ∧ State.reset.tmbOn = false ∧
  State.reset.selState = selFreerun ∧ State.reset.armedBenches = [] ∧ (∀ k, k < 256 → State.reset.lockHeld k = false) ∧
  (∀ l, l < 256 → State.reset.isUp l = false) ∧ State.reset.mig = none ∧ memWf State.reset.mem = true ∧ State.reset.frozen = [] ∧
  State.reset.elN O.LOCK_DELAY_MS 0 = 200 ∧ State.reset.elN O.QUAL_TIME_MS 0 = 1000 ∧ State.reset.elN O.REVERTIVE 0 = 1 ∧
  State.reset.elN O.UTC_OFFSET 0 = 37 ∧ State.reset.elN O.AUX0_FTW 0 = 2 ^ 41 ∧ State.reset.elN O.AUX1_DIV 0 = 1280 ∧
  State.reset.elN O.PPS_OUT_WIDTH_US 0 = 100000 ∧ State.reset.elN O.PTP_PORT_CFG 0 = 0x105 ∧ State.reset.elN O.TS_ENABLE 0 = 15 ∧
  (∀ n, n < 8 → fld (State.reset.el O.OUT_CFG n) 11 0 = 100)

/-- Every command answers a next state and leaves the queue as it is; only the commands that store to trace ingots may change them (R190,
R274, R323, R464). As many steps as commands wait empty the queue, and no step stops (R458: no transition of the module leads to a state
that executes nothing): the commands are run first in, first out. (That one sender's commands wait in one queue, in the order of their
instants, is the model's choice: log entry 4.) -/
def Obligations.CommandsCompleteAndKeepTheQueue : Prop :=
  (∀ (c : Instr) (s : State), ∃ t, exec c s = .next t ∧ t.pending = s.pending ∧ (storesToIngots c = false → t.mem = s.mem)) ∧
  (∀ s : State, ∃ t, run s.pending.length s = .next t ∧ t.pending = []) ∧
  ∀ (s : State) (n : Nat), n ≤ s.pending.length → ∃ t, run n s = .next t ∧ t.pending = s.pending.drop n

/-- A write that a check of R357 refuses changes nothing but the caller's armed compare-and-set, and answers that status (R357, R358, R361,
R367), whichever command writes: that of the area or the right before everything else; a later one, unless an owner check or a field rule
of a BITS object, which stand before it in R357's order, refuses first. A refusal of a step
of Table 7.7, a request for LK000 among them, is recorded in `PROP_STATUS` (R268; which refusals: log entry 59). (A write through a
window of a function that holds one waits: R401.) -/
def Obligations.RefusedWritesChangeNothing : Prop :=
  ∀ (c : Instr) (via : Via) (o : ObjInfo) (e : Nat) (v : W64) (st : Status) (s a : State), asWrite c = some (via, o, e, v) → st ≠ .ok →
    viaOpen via s = true → a = asked via o s →
    (writeRight via o e a = st →
      (proposalStep o e = false → exec c s = .next (refusedWith via o e st s)) ∧
      (proposalStep o e = true → served via o.area a = true → relayBad via o = false → reaches via o a = true →
        ∃ x, exec c s = .next (recordWrite via o e st x) ∧ fld (x.el O.PROP_STATUS 0) 15 8 = st.code ∧
          sameElems [(O.PROP_STATUS, 0)] a x)) ∧
    (writeCheck via (takeCas via o s).1 o e v a = st →
      (ownerChecked.any (fun p => decide (p.base = o.base)) = false → o.ty ≠ .bits → exec c s = .next (refusedWith via o e st s)) ∧
      (proposalStep o e = false →
        exec c s = .next (refusedWith via o e st s) ∨ exec c s = .next (refusedWith via o e .denied s) ∨
          exec c s = .next (refusedWith via o e .invalid s)))

/-- Every step keeps the capture store in its canonical form: addresses strictly rising, no listed byte that an unlisted address reads
as, whatever command runs and from whatever state. -/
def Obligations.StepsKeepTheStoreCanonical : Prop := ∀ s t : State, memWf s.mem = true → step s = .next t → memWf t.mem = true

/-- ROW_EMIT of a row that is its slot, in a domain of one armed bench (R83, R99-R101, R121-R126, R128, R130, R132, R143, R144, R171): an
enabled unit of the bench whose word the row has evaluates it, one whose word is missing holds, and `CU_HITS` counts outputs of 1. Then
the sequencer that steps on the row counts its counters, takes the lowest true rule of its level, and acts: counters cleared and counted,
a mark, lines that change 64 ns later, the level. A TRIGGER of a `WAITING` bench makes it `TRIGGERED` on this row; the row that lies
`POST_COUNT` cycles after the trigger closes the segment; during a hold-off a step of the lead sequencer ends it at H. (Here with no
engine of the bench, no pending commit, schedule or verdict, and no event queue. What a unit that has evaluated no row presents under
`FALSE`, and when a slot is taken, are the model's choices: log entries 141 and 54.) -/
def Obligations.RowsDriveUnitsAndSequencers : Prop :=
  ∀ (design : W64) (d : Fin 256) (stamp : W40) (t : Int) (b : Nat) (s w n : State) (r : Row), b < 1024 →
    s.rowTime design d stamp = some t → s.rowReady design d stamp t = true → s.slotOf design = [] → r = s.formRow design d stamp t →
    w = setSlot design [] (noteRow r (countRow r (freeParts design d stamp (countParts design d stamp t s)))) →
    (w.waitingRows design).any (fun k => decide (k.2.2 = t)) = false → n = cuRows r w →
    s.benchesIn design = [b] → s.running b = true → (s.bench b).armed = true → (s.bench b).commit = none → (s.bench b).startAt = none →
    (s.bench b).stopAt = none → (s.bench b).undecided = [] → s.enginesOf b = [] → s.eventQueue b = none → s.mode.base ≠ .quiesce →
    ∃ u, exec (.rowEmit design d stamp) s = .next u ∧ u.mem = s.mem ∧
      (∀ (c : Nat) (x : RowWord), c < 8192 → s.enabledUnits.count c = 1 → s.cuBench c = some b →
        r.words.find? (fun y => decide (y.group = s.elN O.CU_GROUP c) && decide (y.lane / 16 = cuTile c)) = some x →
        x.group < 65536 → s.elN O.GROUP_OWNER x.group = b → r.off.contains (cuTile c) = false →
        (∀ v, r.wordFor b x = some v →
          u.el O.CU_STATUS c = cuStatusEval (s.cuOps c) (s.cuPrevWord c) (s.el O.CU_STATUS c) v ∧ u.cuPrevWord c = some v ∧
          u.el O.CU_HITS c = (if bit (u.el O.CU_STATUS c) 0 then satAdd (s.el O.CU_HITS c) 1 else s.el O.CU_HITS c)) ∧
        (r.wordFor b x = none → u.el O.CU_STATUS c = cuStatusHeld (s.el O.CU_CONFIG c) (s.el O.CU_STATUS c) ∧
          u.cuPrevWord c = s.cuPrevWord c ∧ u.el O.CU_HITS c = s.el O.CU_HITS c)) ∧
      (∀ q, q < 128 → q ∉ s.stepping b r → ∀ o ∈ [O.SQ_STATUS, O.SQ_STEPS, O.SQ_TRIGGERS], u.el o q = s.el o q) ∧
      (∀ (q lev : Nat) (cs : List Nat) (tb : Bool), s.stepping b r = [q] → lev = s.sqLevel q → cs = countersAfter q t n →
        tb = decide (s.elN O.SQ_LEVEL_TIMEOUT (16 * q + lev) ≤ levelTimer ((s.seqx q).entry.getD t) t) →
        u.el O.SQ_STEPS q = satAdd (s.el O.SQ_STEPS q) 1 ∧
        (winner q lev t (counterBits q cs n) tb n = none →
          u.sqLevel q = lev ∧ u.el O.SQ_TRIGGERS q = s.el O.SQ_TRIGGERS q ∧ u.xs = s.xs ∧
          ∀ i, i < 4 → u.elN O.SQ_CNT_VALUE (4 * q + i) = cs.getD i 0) ∧
        (∀ (k : Nat) (a : W64), winner q lev t (counterBits q cs n) tb n = some k → a = s.el O.SQ_BRANCH_ACTION (64 * q + 4 * lev + k) →
          u.sqLevel q = (if bit (s.el O.SQ_LEVEL_BRANCH (64 * q + 4 * lev + k)) 20 then
            fld (s.el O.SQ_LEVEL_BRANCH (64 * q + 4 * lev + k)) 19 16 else lev) ∧
          (∀ i, i < 4 → u.elN O.SQ_CNT_VALUE (4 * q + i) = (countersActed cs a).getD i 0) ∧
          u.el O.SQ_TRIGGERS q = (if actTrigger a then satAdd (s.el O.SQ_TRIGGERS q) 1 else s.el O.SQ_TRIGGERS q) ∧
          (actMarkEn a = true → u.el O.SQ_MARK (16 * q + actMarkN a) = markWord stamp) ∧
          (∀ j, j < 4 → actXsSet a j = true → u.line512 (4 * q + j) (t + ((64 * ns : Nat) : Int)) = true) ∧
          (∀ j, j < 4 → actXsSet a j = false → actXsClear a j = true → u.line512 (4 * q + j) (t + ((64 * ns : Nat) : Int)) = false) ∧
          (actTrigger a = true → s.trigState b = .waiting → (s.el O.POST_COUNT b).setWidth 40 ≠ 0#40 →
            u.trigState b = .triggered ∧ (u.seg b).trig = some ({
              dclk := d, stamp := stamp, time := t, sq := q, engine := false
              post := (s.el O.POST_COUNT b).setWidth 40 } : Trig)))) ∧
      (∀ a : Trig, s.trigState b = .triggered → (s.seg b).open_ = true → (s.seg b).trig = some a → a.dclk = d.val →
        a.post.toNat ≤ (stamp - a.stamp).toNat →
        u.elN O.SEG_INDEX b = (s.segIndex b + 1) % 2 ^ 64 ∧ (u.seg b).open_ = false ∧
        u.trigState b = (if s.elN O.SEGMENT_LIMIT b ≤ s.segIndex b + 1 then .ended else if (s.holdoff b).1 = 0 then .waiting else .holdoff) ∧
        (s.elN O.SEGMENT_LIMIT b ≤ s.segIndex b + 1 → u.elN O.ACQ_END_CAUSE b = 2)) ∧
      (∀ q : Nat, s.trigState b = .holdoff → (s.seg b).open_ = false → s.leadSq b = some q → q ∈ s.stepping b r →
        u.trigState b = (if (if (s.holdoff b).1 = 2 then
            selBit q (s.elN O.HOLDOFF_SEL b) t [] false n && decide ((s.holdoff b).2 ≤ (s.seg b).holdCount + 1)
          else decide ((s.seg b).closeTime + (((s.holdoff b).2 * ns : Nat) : Int) ≤ t)) then .waiting else .holdoff))
end

