-- ==== Sys2Proof/Laws/Commands.lean ====
section
/-! SUPPORT. What a dictionary write and a dictionary read come to, said once: a write whose checks pass and whose object accepts
it, one that a check refuses, one that the object's own rules refuse; a read that is served. -/

namespace Sys2Proof.Machine

/-- A write that no window holds back is performed at once. -/
theorem cmdWrite_open {via : Via} {o : ObjInfo} {e : Nat} {v : W64} {act : State → State × Status} {s : State}
    (h : viaOpen via s = true) : cmdWrite via o e v act s = writeNow via o e v act s := by
  unfold viaOpen at h
  unfold cmdWrite postedWrite
  cases hf : viaFunc via with
  | none => rfl
  | some f =>
    rw [hf] at h
    obtain ⟨hm, hw⟩ := Bool.and_eq_true_iff.mp h
    have hw' : s.holdsWrite f = false := by simpa using hw
    simp only [hm, hw', Bool.not_true, Bool.false_eq_true, if_false]

/-- An accepted write leaves its object's effect, and what every accepted write leaves. -/
theorem cmdWrite_accepts {via : Via} {o : ObjInfo} {e : Nat} {v : W64} {act : State → State × Status} {s : State}
    (h : Passes via o e v s) (ha : (act (asked via o s)).2 = .ok) :
    cmdWrite via o e v act s = accepted via o e (act (asked via o s)).1 := by
  rw [cmdWrite_open h.1]
  replace h := h.2
  unfold asked at h ha
  unfold writeNow accepted relayNext asked dictWrite
  dsimp only
  rw [h]
  dsimp only
  rw [if_pos ha]
  cases via <;> rfl

/-- An object's own rules stand first only where the right is held (R357). -/
theorem ownFirst_of_right {via : Via} {o : ObjInfo} {e : Nat} {st own : Status} {s : State} (h : writeRight via o e s ≠ .ok) :
    ownFirst via o e st own s = false := by
  unfold ownFirst
  rw [decide_eq_false h, Bool.false_and]

/-- The rules of an object without an owner check, and of another type than BITS, come after every check of R357. -/
theorem ownFirst_of_plain {via : Via} {o : ObjInfo} {e : Nat} {st own : Status} {s : State}
    (h : ownerChecked.any (fun p => decide (p.base = o.base)) = false) (ht : o.ty ≠ .bits) : ownFirst via o e st own s = false := by
  unfold ownFirst
  simp only [h, decide_eq_false ht, Bool.and_false, Bool.false_and, Bool.or_false]

/-- A refusal of a write that is no step of a proposal is recorded in no `PROP_STATUS` (R268). -/
theorem noteRefusal_of_other {via : Via} {o : ObjInfo} {e : Nat} {st : Status} {s : State} (h : proposalStep o e = false) :
    noteRefusal via o e st s = (s, st) := by
  unfold noteRefusal
  rw [h]
  rfl

/-- A write that a check refuses, where no rule of the object stands first and which is no step of a proposal, leaves its object, and the
counter, alone. -/
theorem cmdWrite_refuses {via : Via} {o : ObjInfo} {e : Nat} {v : W64} {act : State → State × Status} {s : State} {st : Status}
    (ho : viaOpen via s = true) (h : writeCheck via (takeCas via o s).1 o e v (asked via o s) = st) (hn : st ≠ .ok)
    (hf : ownFirst via o e st (act (asked via o s)).2 (asked via o s) = false) (hp : proposalStep o e = false) :
    cmdWrite via o e v act s = refusedWith via o e st s := by
  unfold asked at h hf
  have hd : dictWrite via (takeCas via o s).1 o e v act (takeCas via o s).2 = ((takeCas via o s).2, st) := by
    unfold dictWrite
    split
    · rename_i h'; rw [h'] at h; exact absurd h.symm hn
    · rw [h, hf, noteRefusal_of_other hp]; rfl
  rw [cmdWrite_open ho]
  unfold writeNow refusedWith asked
  dsimp only
  rw [hd]
  cases via <;> simp only [hn, if_false]

/-- A write that the object's own rules refuse. -/
theorem cmdWrite_denied {via : Via} {o : ObjInfo} {e : Nat} {v : W64} {act : State → State × Status} {s : State}
    (h : Passes via o e v s) (ha : (act (asked via o s)).2 ≠ .ok) :
    cmdWrite via o e v act s = recordWrite via o e (act (asked via o s)).2 (relaySpends via o (act (asked via o s)).1) := by
  rw [cmdWrite_open h.1]
  replace h := h.2
  unfold asked at h ha ⊢
  have hd : dictWrite via (takeCas via o s).1 o e v act (takeCas via o s).2 = act (takeCas via o s).2 := by
    unfold dictWrite
    rw [h]
    exact if_neg ha
  unfold writeNow
  dsimp only
  rw [hd]
  cases via <;> simp only [ha, if_false]

/-- A read that is served. -/
theorem cmdRead_served {via : Via} {o : ObjInfo} {e : Nat} {act : State → State × Status × W64} {s : State}
    (h : readCheck via o e s = .ok) (ha : (act s).2.1 = .ok) :
    cmdRead via o e act s = recordRead via o e .ok (act s).2.2 (relayNext via (act s).1) := by
  unfold cmdRead
  rw [h]
  dsimp only
  rw [ha]
  cases via <;> simp [relayNext]

end Sys2Proof.Machine
end

