-- ==== Sys2Proof/Laws/Tab.lean ====
section
/-! SUPPORT. Sparse tables: a read after a write, and that every operation of a table keeps its canonical form; the same for the
memory, which is one of them. -/

namespace Sys2Proof

variable {α : Type}

theorem Tab.get_erase_self (d : Nat → α) (t : Tab α) (k : Nat) : (t.erase k).get d k = d k := by
  induction t with
  | nil => rfl
  | cons p t ih =>
    unfold Tab.erase
    split
    · exact ih
    · rename_i h; unfold Tab.get; rw [if_neg h]; exact ih

theorem Tab.get_erase_ne (d : Nat → α) (t : Tab α) {j k : Nat} (h : j ≠ k) : (t.erase k).get d j = t.get d j := by
  induction t with
  | nil => rfl
  | cons p t ih =>
    unfold Tab.erase
    split
    · rename_i e; rw [ih]; rw [Tab.get, if_neg (by omega)]
    · unfold Tab.get; rw [ih]

theorem Tab.get_insert_ne (d : Nat → α) (t : Tab α) {j k : Nat} (v : α) (h : j ≠ k) :
    (t.insert k v).get d j = t.get d j := by
  induction t with
  | nil => show (if k = j then v else d j) = d j; rw [if_neg (fun e => h e.symm)]
  | cons p t ih =>
    unfold Tab.insert
    split
    · show (if k = j then v else Tab.get d (p :: t) j) = _; rw [if_neg (fun e => h e.symm)]
    · rw [Tab.get, Tab.get, ih]

theorem Tab.get_insert_erase (d : Nat → α) (t : Tab α) (k : Nat) (v : α) : ((t.erase k).insert k v).get d k = v := by
  induction t with
  | nil => rw [Tab.erase, Tab.insert, Tab.get, if_pos rfl]
  | cons p t ih =>
    unfold Tab.erase
    split
    · exact ih
    · rename_i h
      unfold Tab.insert
      split
      · rw [Tab.get, if_pos rfl]
      · rw [Tab.get, if_neg h]; exact ih

theorem Tab.erase_ne (t : Tab α) (k : Nat) : ∀ p ∈ t.erase k, p.1 ≠ k := by
  induction t with
  | nil => intro p h; cases h
  | cons q t ih =>
    intro p h
    unfold Tab.erase at h
    split at h
    · exact ih p h
    · rename_i e
      rcases List.mem_cons.mp h with rfl | h
      · exact e
      · exact ih p h

variable [DecidableEq α]

/-- A read after a write to the same key gives the value written. -/
@[simp] theorem Tab.get_set_self (d : Nat → α) (t : Tab α) (k : Nat) (v : α) : (t.set d k v).get d k = v := by
  unfold Tab.set
  split
  · rename_i h; rw [Tab.get_erase_self, h]
  · exact Tab.get_insert_erase d t k v

/-- A write leaves every other key alone. -/
theorem Tab.get_set_ne (d : Nat → α) (t : Tab α) {j k : Nat} (v : α) (h : j ≠ k) : (t.set d k v).get d j = t.get d j := by
  unfold Tab.set
  split
  · exact Tab.get_erase_ne d t h
  · rw [Tab.get_insert_ne d _ v h, Tab.get_erase_ne d t h]

theorem Tab.wfFrom_mono (d : Nat → α) (t : Tab α) {m n : Nat} (h : m ≤ n) (w : Tab.wfFrom d n t = true) : Tab.wfFrom d m t = true := by
  cases t with
  | nil => rfl
  | cons p t =>
    simp only [Tab.wfFrom, Bool.and_eq_true, decide_eq_true_eq] at w ⊢
    exact ⟨⟨Nat.le_trans h w.1.1, w.1.2⟩, w.2⟩

theorem Tab.wfFrom_erase (d : Nat → α) (t : Tab α) (m k : Nat) (w : Tab.wfFrom d m t = true) : Tab.wfFrom d m (t.erase k) = true := by
  induction t generalizing m with
  | nil => rfl
  | cons p t ih =>
    simp only [Tab.wfFrom, Bool.and_eq_true, decide_eq_true_eq] at w
    unfold Tab.erase
    split
    · exact Tab.wfFrom_mono d _ (by omega) (ih _ w.2)
    · simp only [Tab.wfFrom, Bool.and_eq_true, decide_eq_true_eq]
      exact ⟨w.1, ih _ w.2⟩

theorem Tab.wfFrom_insert (d : Nat → α) (t : Tab α) (m k : Nat) (v : α) (w : Tab.wfFrom d m t = true) (hk : m ≤ k) (hv : v ≠ d k)
    (hn : ∀ p ∈ t, p.1 ≠ k) : Tab.wfFrom d m (t.insert k v) = true := by
  induction t generalizing m with
  | nil => simp [Tab.insert, Tab.wfFrom, hk, hv]
  | cons p t ih =>
    simp only [Tab.wfFrom, Bool.and_eq_true, decide_eq_true_eq] at w
    have hp := hn p List.mem_cons_self
    unfold Tab.insert
    split
    · simp only [Tab.wfFrom, Bool.and_eq_true, decide_eq_true_eq]
      exact ⟨⟨hk, hv⟩, ⟨by omega, w.1.2⟩, w.2⟩
    · simp only [Tab.wfFrom, Bool.and_eq_true, decide_eq_true_eq]
      exact ⟨w.1, ih _ w.2 (by omega) (fun q hq => hn q (List.mem_cons_of_mem _ hq))⟩

/-- A write keeps the canonical form. -/
theorem Tab.wf_set (d : Nat → α) (t : Tab α) (k : Nat) (v : α) (w : Tab.wf d t = true) : Tab.wf d (t.set d k v) = true := by
  unfold Tab.set
  split
  · exact Tab.wfFrom_erase d t 0 k w
  · rename_i h
    exact Tab.wfFrom_insert d _ 0 k v (Tab.wfFrom_erase d t 0 k w) (Nat.zero_le _) h (Tab.erase_ne t k)

theorem Tab.wfFrom_filter (d : Nat → α) (f : Nat × α → Bool) (t : Tab α) (m : Nat) (w : Tab.wfFrom d m t = true) :
    Tab.wfFrom d m (t.filter f) = true := by
  induction t generalizing m with
  | nil => rfl
  | cons p t ih =>
    simp only [Tab.wfFrom, Bool.and_eq_true, decide_eq_true_eq] at w
    rw [List.filter_cons]
    split
    · simp only [Tab.wfFrom, Bool.and_eq_true, decide_eq_true_eq]
      exact ⟨w.1, ih _ w.2⟩
    · exact Tab.wfFrom_mono d _ (by omega) (ih _ w.2)

/-- Entries that go keep the canonical form. -/
theorem Tab.wf_filter (d : Nat → α) (f : Nat × α → Bool) (t : Tab α) (w : Tab.wf d t = true) : Tab.wf d (t.filter f) = true :=
  Tab.wfFrom_filter d f t 0 w

namespace Machine

/-- A write of bytes keeps the canonical form of the memory. -/
theorem memWrite_wf (m : List Host.Cell) (a : Nat) (bs : List Byte) (w : memWf m = true) : memWf (memWrite m a bs) = true := by
  induction bs generalizing m a with
  | nil => exact w
  | cons b t ih => exact ih _ _ (Tab.wf_set _ _ _ _ w)

theorem foldl_memOk {β : Type} (g : State → β → State) (l : List β) (s : State)
    (hg : ∀ s a, memWf s.mem = true → memWf (g s a).mem = true) (h : memWf s.mem = true) : memWf (l.foldl g s).mem = true := by
  induction l generalizing s with
  | nil => exact h
  | cons a t ih => exact ih _ (hg s a h)

theorem foldl_snd_memOk {β γ : Type} (g : β × State → γ → β × State) (l : List γ) (p : β × State)
    (hg : ∀ p a, memWf p.2.mem = true → memWf (g p a).2.mem = true) (h : memWf p.2.mem = true) : memWf (l.foldl g p).2.mem = true := by
  induction l generalizing p with
  | nil => exact h
  | cons a t ih => exact ih _ (hg p a h)

end Machine
end Sys2Proof
end

