-- ==== Sys2Proof/Laws/State.lean ====
section
/-! SUPPORT. One lemma per field per update: what each primitive update of the state leaves as it was (`…_frame`: every field
but its own; the simplifier uses each part), and what its own accessor reads after it. -/

namespace Sys2Proof.Machine

@[simp] theorem State.put_frame (s : State) (o : ObjInfo) (e : Nat) (v : W64) :
    (s.put o e v).pending = s.pending ∧ (s.put o e v).shadow = s.shadow ∧ (s.put o e v).cc = s.cc ∧
    (s.put o e v).fresh = s.fresh ∧ (s.put o e v).clock = s.clock ∧ (s.put o e v).mtime = s.mtime ∧
    (s.put o e v).tmbOn = s.tmbOn ∧ (s.put o e v).slew = s.slew ∧ (s.put o e v).slewFrac = s.slewFrac ∧
    (s.put o e v).steppedAt = s.steppedAt ∧ (s.put o e v).mode = s.mode ∧ (s.put o e v).everIdle = s.everIdle ∧
    (s.put o e v).warmPass = s.warmPass ∧ (s.put o e v).svcDown = s.svcDown ∧ (s.put o e v).quiesceSince = s.quiesceSince ∧
    (s.put o e v).idleSince = s.idleSince ∧ (s.put o e v).out = s.out ∧ (s.put o e v).lanes = s.lanes ∧
    (s.put o e v).leftParts = s.leftParts ∧ (s.put o e v).slots = s.slots ∧ (s.put o e v).lastRow = s.lastRow ∧
    (s.put o e v).tileTurn = s.tileTurn ∧ (s.put o e v).tileTest = s.tileTest ∧ (s.put o e v).cuPrev = s.cuPrev ∧
    (s.put o e v).seqs = s.seqs ∧ (s.put o e v).xs = s.xs ∧ (s.put o e v).pins = s.pins ∧ (s.put o e v).benches = s.benches ∧
    (s.put o e v).nextReq = s.nextReq ∧ (s.put o e v).streams = s.streams ∧ (s.put o e v).dirs = s.dirs ∧
    (s.put o e v).ingotOwner = s.ingotOwner ∧ (s.put o e v).engines = s.engines ∧ (s.put o e v).locks = s.locks ∧
    (s.put o e v).latched = s.latched ∧ (s.put o e v).heldHalf = s.heldHalf ∧ (s.put o e v).propReserved = s.propReserved ∧
    (s.put o e v).lines = s.lines ∧ (s.put o e v).packets = s.packets ∧ (s.put o e v).nextPkt = s.nextPkt ∧
    (s.put o e v).bankUsed = s.bankUsed ∧ (s.put o e v).fencedBanks = s.fencedBanks ∧
    (s.put o e v).movedGroup = s.movedGroup ∧ (s.put o e v).rotor = s.rotor ∧ (s.put o e v).granted = s.granted ∧
    (s.put o e v).held = s.held ∧ (s.put o e v).queues = s.queues ∧ (s.put o e v).queueGen = s.queueGen ∧
    (s.put o e v).mem = s.mem ∧ (s.put o e v).poison = s.poison ∧ (s.put o e v).poisonUsed = s.poisonUsed ∧
    (s.put o e v).storeReqs = s.storeReqs ∧ (s.put o e v).chans = s.chans ∧ (s.put o e v).rowTabs = s.rowTabs ∧
    (s.put o e v).rowWindow = s.rowWindow ∧ (s.put o e v).neighbours = s.neighbours ∧ (s.put o e v).ranks = s.ranks ∧
    (s.put o e v).homes = s.homes ∧ (s.put o e v).mig = s.mig ∧ (s.put o e v).frozen = s.frozen ∧
    (s.put o e v).calibrated = s.calibrated ∧ (s.put o e v).speedChange = s.speedChange ∧ (s.put o e v).staging = s.staging ∧
    (s.put o e v).ports = s.ports ∧ (s.put o e v).funcs = s.funcs ∧ (s.put o e v).subsys = s.subsys ∧
    (s.put o e v).sessions = s.sessions ∧ (s.put o e v).sessionCount = s.sessionCount ∧ (s.put o e v).net = s.net ∧
    (s.put o e v).timing = s.timing ∧ (s.put o e v).flash = s.flash ∧ (s.put o e v).journal = s.journal ∧
    (s.put o e v).fw = s.fw ∧ (s.put o e v).health = s.health ∧ (s.put o e v).testing = s.testing := by
  cases s; simp only [State.put, and_self]

@[simp] theorem State.bump_frame (s : State) (o : ObjInfo) (e : Nat) :
    (s.bump o e).pending = s.pending ∧ (s.bump o e).elems = s.elems ∧ (s.bump o e).shadow = s.shadow ∧
    (s.bump o e).fresh = s.fresh ∧ (s.bump o e).clock = s.clock ∧ (s.bump o e).mtime = s.mtime ∧
    (s.bump o e).tmbOn = s.tmbOn ∧ (s.bump o e).slew = s.slew ∧ (s.bump o e).slewFrac = s.slewFrac ∧
    (s.bump o e).steppedAt = s.steppedAt ∧ (s.bump o e).mode = s.mode ∧ (s.bump o e).everIdle = s.everIdle ∧
    (s.bump o e).warmPass = s.warmPass ∧ (s.bump o e).svcDown = s.svcDown ∧ (s.bump o e).quiesceSince = s.quiesceSince ∧
    (s.bump o e).idleSince = s.idleSince ∧ (s.bump o e).out = s.out ∧ (s.bump o e).lanes = s.lanes ∧
    (s.bump o e).leftParts = s.leftParts ∧ (s.bump o e).slots = s.slots ∧ (s.bump o e).lastRow = s.lastRow ∧
    (s.bump o e).tileTurn = s.tileTurn ∧ (s.bump o e).tileTest = s.tileTest ∧ (s.bump o e).cuPrev = s.cuPrev ∧
    (s.bump o e).seqs = s.seqs ∧ (s.bump o e).xs = s.xs ∧ (s.bump o e).pins = s.pins ∧ (s.bump o e).benches = s.benches ∧
    (s.bump o e).nextReq = s.nextReq ∧ (s.bump o e).streams = s.streams ∧ (s.bump o e).dirs = s.dirs ∧
    (s.bump o e).ingotOwner = s.ingotOwner ∧ (s.bump o e).engines = s.engines ∧ (s.bump o e).locks = s.locks ∧
    (s.bump o e).latched = s.latched ∧ (s.bump o e).heldHalf = s.heldHalf ∧ (s.bump o e).propReserved = s.propReserved ∧
    (s.bump o e).lines = s.lines ∧ (s.bump o e).packets = s.packets ∧ (s.bump o e).nextPkt = s.nextPkt ∧
    (s.bump o e).bankUsed = s.bankUsed ∧ (s.bump o e).fencedBanks = s.fencedBanks ∧ (s.bump o e).movedGroup = s.movedGroup ∧
    (s.bump o e).rotor = s.rotor ∧ (s.bump o e).granted = s.granted ∧ (s.bump o e).held = s.held ∧
    (s.bump o e).queues = s.queues ∧ (s.bump o e).queueGen = s.queueGen ∧ (s.bump o e).mem = s.mem ∧
    (s.bump o e).poison = s.poison ∧ (s.bump o e).poisonUsed = s.poisonUsed ∧ (s.bump o e).storeReqs = s.storeReqs ∧
    (s.bump o e).chans = s.chans ∧ (s.bump o e).rowTabs = s.rowTabs ∧ (s.bump o e).rowWindow = s.rowWindow ∧
    (s.bump o e).neighbours = s.neighbours ∧ (s.bump o e).ranks = s.ranks ∧ (s.bump o e).homes = s.homes ∧
    (s.bump o e).mig = s.mig ∧ (s.bump o e).frozen = s.frozen ∧ (s.bump o e).calibrated = s.calibrated ∧
    (s.bump o e).speedChange = s.speedChange ∧ (s.bump o e).staging = s.staging ∧ (s.bump o e).ports = s.ports ∧
    (s.bump o e).funcs = s.funcs ∧ (s.bump o e).subsys = s.subsys ∧ (s.bump o e).sessions = s.sessions ∧
    (s.bump o e).sessionCount = s.sessionCount ∧ (s.bump o e).net = s.net ∧ (s.bump o e).timing = s.timing ∧
    (s.bump o e).flash = s.flash ∧ (s.bump o e).journal = s.journal ∧ (s.bump o e).fw = s.fw ∧
    (s.bump o e).health = s.health ∧ (s.bump o e).testing = s.testing := by
  cases s; simp only [State.bump, and_self]

@[simp] theorem State.setEl_frame (s : State) (o : ObjInfo) (e : Nat) (v : W64) :
    (s.setEl o e v).pending = s.pending ∧ (s.setEl o e v).shadow = s.shadow ∧ (s.setEl o e v).fresh = s.fresh ∧
    (s.setEl o e v).clock = s.clock ∧ (s.setEl o e v).mtime = s.mtime ∧ (s.setEl o e v).tmbOn = s.tmbOn ∧
    (s.setEl o e v).slew = s.slew ∧ (s.setEl o e v).slewFrac = s.slewFrac ∧ (s.setEl o e v).steppedAt = s.steppedAt ∧
    (s.setEl o e v).mode = s.mode ∧ (s.setEl o e v).everIdle = s.everIdle ∧ (s.setEl o e v).warmPass = s.warmPass ∧
    (s.setEl o e v).svcDown = s.svcDown ∧ (s.setEl o e v).quiesceSince = s.quiesceSince ∧
    (s.setEl o e v).idleSince = s.idleSince ∧ (s.setEl o e v).out = s.out ∧ (s.setEl o e v).lanes = s.lanes ∧
    (s.setEl o e v).leftParts = s.leftParts ∧ (s.setEl o e v).slots = s.slots ∧ (s.setEl o e v).lastRow = s.lastRow ∧
    (s.setEl o e v).tileTurn = s.tileTurn ∧ (s.setEl o e v).tileTest = s.tileTest ∧ (s.setEl o e v).cuPrev = s.cuPrev ∧
    (s.setEl o e v).seqs = s.seqs ∧ (s.setEl o e v).xs = s.xs ∧ (s.setEl o e v).pins = s.pins ∧
    (s.setEl o e v).benches = s.benches ∧ (s.setEl o e v).nextReq = s.nextReq ∧ (s.setEl o e v).streams = s.streams ∧
    (s.setEl o e v).dirs = s.dirs ∧ (s.setEl o e v).ingotOwner = s.ingotOwner ∧ (s.setEl o e v).engines = s.engines ∧
    (s.setEl o e v).locks = s.locks ∧ (s.setEl o e v).latched = s.latched ∧ (s.setEl o e v).heldHalf = s.heldHalf ∧
    (s.setEl o e v).propReserved = s.propReserved ∧ (s.setEl o e v).lines = s.lines ∧ (s.setEl o e v).packets = s.packets ∧
    (s.setEl o e v).nextPkt = s.nextPkt ∧ (s.setEl o e v).bankUsed = s.bankUsed ∧
    (s.setEl o e v).fencedBanks = s.fencedBanks ∧ (s.setEl o e v).movedGroup = s.movedGroup ∧
    (s.setEl o e v).rotor = s.rotor ∧ (s.setEl o e v).granted = s.granted ∧ (s.setEl o e v).held = s.held ∧
    (s.setEl o e v).queues = s.queues ∧ (s.setEl o e v).queueGen = s.queueGen ∧ (s.setEl o e v).mem = s.mem ∧
    (s.setEl o e v).poison = s.poison ∧ (s.setEl o e v).poisonUsed = s.poisonUsed ∧ (s.setEl o e v).storeReqs = s.storeReqs ∧
    (s.setEl o e v).chans = s.chans ∧ (s.setEl o e v).rowTabs = s.rowTabs ∧ (s.setEl o e v).rowWindow = s.rowWindow ∧
    (s.setEl o e v).neighbours = s.neighbours ∧ (s.setEl o e v).ranks = s.ranks ∧ (s.setEl o e v).homes = s.homes ∧
    (s.setEl o e v).mig = s.mig ∧ (s.setEl o e v).frozen = s.frozen ∧ (s.setEl o e v).calibrated = s.calibrated ∧
    (s.setEl o e v).speedChange = s.speedChange ∧ (s.setEl o e v).staging = s.staging ∧ (s.setEl o e v).ports = s.ports ∧
    (s.setEl o e v).funcs = s.funcs ∧ (s.setEl o e v).subsys = s.subsys ∧ (s.setEl o e v).sessions = s.sessions ∧
    (s.setEl o e v).sessionCount = s.sessionCount ∧ (s.setEl o e v).net = s.net ∧ (s.setEl o e v).timing = s.timing ∧
    (s.setEl o e v).flash = s.flash ∧ (s.setEl o e v).journal = s.journal ∧ (s.setEl o e v).fw = s.fw ∧
    (s.setEl o e v).health = s.health ∧ (s.setEl o e v).testing = s.testing := by
  cases s; simp only [State.setEl, and_self]

@[simp] theorem State.touchIf_frame (s : State) (c : Bool) (o : ObjInfo) (e : Nat) :
    (s.touchIf c o e).pending = s.pending ∧ (s.touchIf c o e).elems = s.elems ∧ (s.touchIf c o e).shadow = s.shadow ∧
    (s.touchIf c o e).fresh = s.fresh ∧ (s.touchIf c o e).clock = s.clock ∧ (s.touchIf c o e).mtime = s.mtime ∧
    (s.touchIf c o e).tmbOn = s.tmbOn ∧ (s.touchIf c o e).slew = s.slew ∧ (s.touchIf c o e).slewFrac = s.slewFrac ∧
    (s.touchIf c o e).steppedAt = s.steppedAt ∧ (s.touchIf c o e).mode = s.mode ∧ (s.touchIf c o e).everIdle = s.everIdle ∧
    (s.touchIf c o e).warmPass = s.warmPass ∧ (s.touchIf c o e).svcDown = s.svcDown ∧
    (s.touchIf c o e).quiesceSince = s.quiesceSince ∧ (s.touchIf c o e).idleSince = s.idleSince ∧
    (s.touchIf c o e).out = s.out ∧ (s.touchIf c o e).lanes = s.lanes ∧ (s.touchIf c o e).leftParts = s.leftParts ∧
    (s.touchIf c o e).slots = s.slots ∧ (s.touchIf c o e).lastRow = s.lastRow ∧ (s.touchIf c o e).tileTurn = s.tileTurn ∧
    (s.touchIf c o e).tileTest = s.tileTest ∧ (s.touchIf c o e).cuPrev = s.cuPrev ∧ (s.touchIf c o e).seqs = s.seqs ∧
    (s.touchIf c o e).xs = s.xs ∧ (s.touchIf c o e).pins = s.pins ∧ (s.touchIf c o e).benches = s.benches ∧
    (s.touchIf c o e).nextReq = s.nextReq ∧ (s.touchIf c o e).streams = s.streams ∧ (s.touchIf c o e).dirs = s.dirs ∧
    (s.touchIf c o e).ingotOwner = s.ingotOwner ∧ (s.touchIf c o e).engines = s.engines ∧ (s.touchIf c o e).locks = s.locks ∧
    (s.touchIf c o e).latched = s.latched ∧ (s.touchIf c o e).heldHalf = s.heldHalf ∧
    (s.touchIf c o e).propReserved = s.propReserved ∧ (s.touchIf c o e).lines = s.lines ∧
    (s.touchIf c o e).packets = s.packets ∧ (s.touchIf c o e).nextPkt = s.nextPkt ∧ (s.touchIf c o e).bankUsed = s.bankUsed ∧
    (s.touchIf c o e).fencedBanks = s.fencedBanks ∧ (s.touchIf c o e).movedGroup = s.movedGroup ∧
    (s.touchIf c o e).rotor = s.rotor ∧ (s.touchIf c o e).granted = s.granted ∧ (s.touchIf c o e).held = s.held ∧
    (s.touchIf c o e).queues = s.queues ∧ (s.touchIf c o e).queueGen = s.queueGen ∧ (s.touchIf c o e).mem = s.mem ∧
    (s.touchIf c o e).poison = s.poison ∧ (s.touchIf c o e).poisonUsed = s.poisonUsed ∧
    (s.touchIf c o e).storeReqs = s.storeReqs ∧ (s.touchIf c o e).chans = s.chans ∧ (s.touchIf c o e).rowTabs = s.rowTabs ∧
    (s.touchIf c o e).rowWindow = s.rowWindow ∧ (s.touchIf c o e).neighbours = s.neighbours ∧
    (s.touchIf c o e).ranks = s.ranks ∧ (s.touchIf c o e).homes = s.homes ∧ (s.touchIf c o e).mig = s.mig ∧
    (s.touchIf c o e).frozen = s.frozen ∧ (s.touchIf c o e).calibrated = s.calibrated ∧
    (s.touchIf c o e).speedChange = s.speedChange ∧ (s.touchIf c o e).staging = s.staging ∧
    (s.touchIf c o e).ports = s.ports ∧ (s.touchIf c o e).funcs = s.funcs ∧ (s.touchIf c o e).subsys = s.subsys ∧
    (s.touchIf c o e).sessions = s.sessions ∧ (s.touchIf c o e).sessionCount = s.sessionCount ∧
    (s.touchIf c o e).net = s.net ∧ (s.touchIf c o e).timing = s.timing ∧ (s.touchIf c o e).flash = s.flash ∧
    (s.touchIf c o e).journal = s.journal ∧ (s.touchIf c o e).fw = s.fw ∧ (s.touchIf c o e).health = s.health ∧
    (s.touchIf c o e).testing = s.testing := by
  cases s; simp only [State.touchIf, and_self]

@[simp] theorem State.drawn_frame (s : State) :
    (s.drawn).pending = s.pending ∧ (s.drawn).elems = s.elems ∧ (s.drawn).shadow = s.shadow ∧ (s.drawn).cc = s.cc ∧
    (s.drawn).clock = s.clock ∧ (s.drawn).mtime = s.mtime ∧ (s.drawn).tmbOn = s.tmbOn ∧ (s.drawn).slew = s.slew ∧
    (s.drawn).slewFrac = s.slewFrac ∧ (s.drawn).steppedAt = s.steppedAt ∧ (s.drawn).mode = s.mode ∧
    (s.drawn).everIdle = s.everIdle ∧ (s.drawn).warmPass = s.warmPass ∧ (s.drawn).svcDown = s.svcDown ∧
    (s.drawn).quiesceSince = s.quiesceSince ∧ (s.drawn).idleSince = s.idleSince ∧ (s.drawn).out = s.out ∧
    (s.drawn).lanes = s.lanes ∧ (s.drawn).leftParts = s.leftParts ∧ (s.drawn).slots = s.slots ∧
    (s.drawn).lastRow = s.lastRow ∧ (s.drawn).tileTurn = s.tileTurn ∧ (s.drawn).tileTest = s.tileTest ∧
    (s.drawn).cuPrev = s.cuPrev ∧ (s.drawn).seqs = s.seqs ∧ (s.drawn).xs = s.xs ∧ (s.drawn).pins = s.pins ∧
    (s.drawn).benches = s.benches ∧ (s.drawn).nextReq = s.nextReq ∧ (s.drawn).streams = s.streams ∧ (s.drawn).dirs = s.dirs ∧
    (s.drawn).ingotOwner = s.ingotOwner ∧ (s.drawn).engines = s.engines ∧ (s.drawn).locks = s.locks ∧
    (s.drawn).latched = s.latched ∧ (s.drawn).heldHalf = s.heldHalf ∧ (s.drawn).propReserved = s.propReserved ∧
    (s.drawn).lines = s.lines ∧ (s.drawn).packets = s.packets ∧ (s.drawn).nextPkt = s.nextPkt ∧
    (s.drawn).bankUsed = s.bankUsed ∧ (s.drawn).fencedBanks = s.fencedBanks ∧ (s.drawn).movedGroup = s.movedGroup ∧
    (s.drawn).rotor = s.rotor ∧ (s.drawn).granted = s.granted ∧ (s.drawn).held = s.held ∧ (s.drawn).queues = s.queues ∧
    (s.drawn).queueGen = s.queueGen ∧ (s.drawn).mem = s.mem ∧ (s.drawn).poison = s.poison ∧
    (s.drawn).poisonUsed = s.poisonUsed ∧ (s.drawn).storeReqs = s.storeReqs ∧ (s.drawn).chans = s.chans ∧
    (s.drawn).rowTabs = s.rowTabs ∧ (s.drawn).rowWindow = s.rowWindow ∧ (s.drawn).neighbours = s.neighbours ∧
    (s.drawn).ranks = s.ranks ∧ (s.drawn).homes = s.homes ∧ (s.drawn).mig = s.mig ∧ (s.drawn).frozen = s.frozen ∧
    (s.drawn).calibrated = s.calibrated ∧ (s.drawn).speedChange = s.speedChange ∧ (s.drawn).staging = s.staging ∧
    (s.drawn).ports = s.ports ∧ (s.drawn).funcs = s.funcs ∧ (s.drawn).subsys = s.subsys ∧ (s.drawn).sessions = s.sessions ∧
    (s.drawn).sessionCount = s.sessionCount ∧ (s.drawn).net = s.net ∧ (s.drawn).timing = s.timing ∧
    (s.drawn).flash = s.flash ∧ (s.drawn).journal = s.journal ∧ (s.drawn).fw = s.fw ∧ (s.drawn).health = s.health ∧
    (s.drawn).testing = s.testing := by
  cases s; simp only [State.drawn, and_self]

@[simp] theorem State.send_frame (s : State) (m : Out) :
    (s.send m).pending = s.pending ∧ (s.send m).elems = s.elems ∧ (s.send m).shadow = s.shadow ∧ (s.send m).cc = s.cc ∧
    (s.send m).fresh = s.fresh ∧ (s.send m).clock = s.clock ∧ (s.send m).mtime = s.mtime ∧ (s.send m).tmbOn = s.tmbOn ∧
    (s.send m).slew = s.slew ∧ (s.send m).slewFrac = s.slewFrac ∧ (s.send m).steppedAt = s.steppedAt ∧
    (s.send m).mode = s.mode ∧ (s.send m).everIdle = s.everIdle ∧ (s.send m).warmPass = s.warmPass ∧
    (s.send m).svcDown = s.svcDown ∧ (s.send m).quiesceSince = s.quiesceSince ∧ (s.send m).idleSince = s.idleSince ∧
    (s.send m).lanes = s.lanes ∧ (s.send m).leftParts = s.leftParts ∧ (s.send m).slots = s.slots ∧
    (s.send m).lastRow = s.lastRow ∧ (s.send m).tileTurn = s.tileTurn ∧ (s.send m).tileTest = s.tileTest ∧
    (s.send m).cuPrev = s.cuPrev ∧ (s.send m).seqs = s.seqs ∧ (s.send m).xs = s.xs ∧ (s.send m).pins = s.pins ∧
    (s.send m).benches = s.benches ∧ (s.send m).nextReq = s.nextReq ∧ (s.send m).streams = s.streams ∧
    (s.send m).dirs = s.dirs ∧ (s.send m).ingotOwner = s.ingotOwner ∧ (s.send m).engines = s.engines ∧
    (s.send m).locks = s.locks ∧ (s.send m).latched = s.latched ∧ (s.send m).heldHalf = s.heldHalf ∧
    (s.send m).propReserved = s.propReserved ∧ (s.send m).lines = s.lines ∧ (s.send m).packets = s.packets ∧
    (s.send m).nextPkt = s.nextPkt ∧ (s.send m).bankUsed = s.bankUsed ∧ (s.send m).fencedBanks = s.fencedBanks ∧
    (s.send m).movedGroup = s.movedGroup ∧ (s.send m).rotor = s.rotor ∧ (s.send m).granted = s.granted ∧
    (s.send m).held = s.held ∧ (s.send m).queues = s.queues ∧ (s.send m).queueGen = s.queueGen ∧ (s.send m).mem = s.mem ∧
    (s.send m).poison = s.poison ∧ (s.send m).poisonUsed = s.poisonUsed ∧ (s.send m).storeReqs = s.storeReqs ∧
    (s.send m).chans = s.chans ∧ (s.send m).rowTabs = s.rowTabs ∧ (s.send m).rowWindow = s.rowWindow ∧
    (s.send m).neighbours = s.neighbours ∧ (s.send m).ranks = s.ranks ∧ (s.send m).homes = s.homes ∧ (s.send m).mig = s.mig ∧
    (s.send m).frozen = s.frozen ∧ (s.send m).calibrated = s.calibrated ∧ (s.send m).speedChange = s.speedChange ∧
    (s.send m).staging = s.staging ∧ (s.send m).ports = s.ports ∧ (s.send m).funcs = s.funcs ∧ (s.send m).subsys = s.subsys ∧
    (s.send m).sessions = s.sessions ∧ (s.send m).sessionCount = s.sessionCount ∧ (s.send m).net = s.net ∧
    (s.send m).timing = s.timing ∧ (s.send m).flash = s.flash ∧ (s.send m).journal = s.journal ∧ (s.send m).fw = s.fw ∧
    (s.send m).health = s.health ∧ (s.send m).testing = s.testing := by
  cases s; simp only [State.send, and_self]

@[simp] theorem State.setLane_frame (s : State) (k : Nat) (x : Lane) :
    (s.setLane k x).pending = s.pending ∧ (s.setLane k x).elems = s.elems ∧ (s.setLane k x).shadow = s.shadow ∧
    (s.setLane k x).cc = s.cc ∧ (s.setLane k x).fresh = s.fresh ∧ (s.setLane k x).clock = s.clock ∧
    (s.setLane k x).mtime = s.mtime ∧ (s.setLane k x).tmbOn = s.tmbOn ∧ (s.setLane k x).slew = s.slew ∧
    (s.setLane k x).slewFrac = s.slewFrac ∧ (s.setLane k x).steppedAt = s.steppedAt ∧ (s.setLane k x).mode = s.mode ∧
    (s.setLane k x).everIdle = s.everIdle ∧ (s.setLane k x).warmPass = s.warmPass ∧ (s.setLane k x).svcDown = s.svcDown ∧
    (s.setLane k x).quiesceSince = s.quiesceSince ∧ (s.setLane k x).idleSince = s.idleSince ∧ (s.setLane k x).out = s.out ∧
    (s.setLane k x).leftParts = s.leftParts ∧ (s.setLane k x).slots = s.slots ∧ (s.setLane k x).lastRow = s.lastRow ∧
    (s.setLane k x).tileTurn = s.tileTurn ∧ (s.setLane k x).tileTest = s.tileTest ∧ (s.setLane k x).cuPrev = s.cuPrev ∧
    (s.setLane k x).seqs = s.seqs ∧ (s.setLane k x).xs = s.xs ∧ (s.setLane k x).pins = s.pins ∧
    (s.setLane k x).benches = s.benches ∧ (s.setLane k x).nextReq = s.nextReq ∧ (s.setLane k x).streams = s.streams ∧
    (s.setLane k x).dirs = s.dirs ∧ (s.setLane k x).ingotOwner = s.ingotOwner ∧ (s.setLane k x).engines = s.engines ∧
    (s.setLane k x).locks = s.locks ∧ (s.setLane k x).latched = s.latched ∧ (s.setLane k x).heldHalf = s.heldHalf ∧
    (s.setLane k x).propReserved = s.propReserved ∧ (s.setLane k x).lines = s.lines ∧ (s.setLane k x).packets = s.packets ∧
    (s.setLane k x).nextPkt = s.nextPkt ∧ (s.setLane k x).bankUsed = s.bankUsed ∧
    (s.setLane k x).fencedBanks = s.fencedBanks ∧ (s.setLane k x).movedGroup = s.movedGroup ∧
    (s.setLane k x).rotor = s.rotor ∧ (s.setLane k x).granted = s.granted ∧ (s.setLane k x).held = s.held ∧
    (s.setLane k x).queues = s.queues ∧ (s.setLane k x).queueGen = s.queueGen ∧ (s.setLane k x).mem = s.mem ∧
    (s.setLane k x).poison = s.poison ∧ (s.setLane k x).poisonUsed = s.poisonUsed ∧ (s.setLane k x).storeReqs = s.storeReqs ∧
    (s.setLane k x).chans = s.chans ∧ (s.setLane k x).rowTabs = s.rowTabs ∧ (s.setLane k x).rowWindow = s.rowWindow ∧
    (s.setLane k x).neighbours = s.neighbours ∧ (s.setLane k x).ranks = s.ranks ∧ (s.setLane k x).homes = s.homes ∧
    (s.setLane k x).mig = s.mig ∧ (s.setLane k x).frozen = s.frozen ∧ (s.setLane k x).calibrated = s.calibrated ∧
    (s.setLane k x).speedChange = s.speedChange ∧ (s.setLane k x).staging = s.staging ∧ (s.setLane k x).ports = s.ports ∧
    (s.setLane k x).funcs = s.funcs ∧ (s.setLane k x).subsys = s.subsys ∧ (s.setLane k x).sessions = s.sessions ∧
    (s.setLane k x).sessionCount = s.sessionCount ∧ (s.setLane k x).net = s.net ∧ (s.setLane k x).timing = s.timing ∧
    (s.setLane k x).flash = s.flash ∧ (s.setLane k x).journal = s.journal ∧ (s.setLane k x).fw = s.fw ∧
    (s.setLane k x).health = s.health ∧ (s.setLane k x).testing = s.testing := by
  cases s; simp only [State.setLane, and_self]

@[simp] theorem State.setBench_frame (s : State) (k : Nat) (x : Bench) :
    (s.setBench k x).pending = s.pending ∧ (s.setBench k x).elems = s.elems ∧ (s.setBench k x).shadow = s.shadow ∧
    (s.setBench k x).cc = s.cc ∧ (s.setBench k x).fresh = s.fresh ∧ (s.setBench k x).clock = s.clock ∧
    (s.setBench k x).mtime = s.mtime ∧ (s.setBench k x).tmbOn = s.tmbOn ∧ (s.setBench k x).slew = s.slew ∧
    (s.setBench k x).slewFrac = s.slewFrac ∧ (s.setBench k x).steppedAt = s.steppedAt ∧ (s.setBench k x).mode = s.mode ∧
    (s.setBench k x).everIdle = s.everIdle ∧ (s.setBench k x).warmPass = s.warmPass ∧ (s.setBench k x).svcDown = s.svcDown ∧
    (s.setBench k x).quiesceSince = s.quiesceSince ∧ (s.setBench k x).idleSince = s.idleSince ∧ (s.setBench k x).out = s.out ∧
    (s.setBench k x).lanes = s.lanes ∧ (s.setBench k x).leftParts = s.leftParts ∧ (s.setBench k x).slots = s.slots ∧
    (s.setBench k x).lastRow = s.lastRow ∧ (s.setBench k x).tileTurn = s.tileTurn ∧ (s.setBench k x).tileTest = s.tileTest ∧
    (s.setBench k x).cuPrev = s.cuPrev ∧ (s.setBench k x).seqs = s.seqs ∧ (s.setBench k x).xs = s.xs ∧
    (s.setBench k x).pins = s.pins ∧ (s.setBench k x).nextReq = s.nextReq ∧ (s.setBench k x).streams = s.streams ∧
    (s.setBench k x).dirs = s.dirs ∧ (s.setBench k x).ingotOwner = s.ingotOwner ∧ (s.setBench k x).engines = s.engines ∧
    (s.setBench k x).locks = s.locks ∧ (s.setBench k x).latched = s.latched ∧ (s.setBench k x).heldHalf = s.heldHalf ∧
    (s.setBench k x).propReserved = s.propReserved ∧ (s.setBench k x).lines = s.lines ∧ (s.setBench k x).packets = s.packets ∧
    (s.setBench k x).nextPkt = s.nextPkt ∧ (s.setBench k x).bankUsed = s.bankUsed ∧
    (s.setBench k x).fencedBanks = s.fencedBanks ∧ (s.setBench k x).movedGroup = s.movedGroup ∧
    (s.setBench k x).rotor = s.rotor ∧ (s.setBench k x).granted = s.granted ∧ (s.setBench k x).held = s.held ∧
    (s.setBench k x).queues = s.queues ∧ (s.setBench k x).queueGen = s.queueGen ∧ (s.setBench k x).mem = s.mem ∧
    (s.setBench k x).poison = s.poison ∧ (s.setBench k x).poisonUsed = s.poisonUsed ∧
    (s.setBench k x).storeReqs = s.storeReqs ∧ (s.setBench k x).chans = s.chans ∧ (s.setBench k x).rowTabs = s.rowTabs ∧
    (s.setBench k x).rowWindow = s.rowWindow ∧ (s.setBench k x).neighbours = s.neighbours ∧ (s.setBench k x).ranks = s.ranks ∧
    (s.setBench k x).homes = s.homes ∧ (s.setBench k x).mig = s.mig ∧ (s.setBench k x).frozen = s.frozen ∧
    (s.setBench k x).calibrated = s.calibrated ∧ (s.setBench k x).speedChange = s.speedChange ∧
    (s.setBench k x).staging = s.staging ∧ (s.setBench k x).ports = s.ports ∧ (s.setBench k x).funcs = s.funcs ∧
    (s.setBench k x).subsys = s.subsys ∧ (s.setBench k x).sessions = s.sessions ∧
    (s.setBench k x).sessionCount = s.sessionCount ∧ (s.setBench k x).net = s.net ∧ (s.setBench k x).timing = s.timing ∧
    (s.setBench k x).flash = s.flash ∧ (s.setBench k x).journal = s.journal ∧ (s.setBench k x).fw = s.fw ∧
    (s.setBench k x).health = s.health ∧ (s.setBench k x).testing = s.testing := by
  cases s; simp only [State.setBench, and_self]

@[simp] theorem State.setSeqx_frame (s : State) (k : Nat) (x : SeqX) :
    (s.setSeqx k x).pending = s.pending ∧ (s.setSeqx k x).elems = s.elems ∧ (s.setSeqx k x).shadow = s.shadow ∧
    (s.setSeqx k x).cc = s.cc ∧ (s.setSeqx k x).fresh = s.fresh ∧ (s.setSeqx k x).clock = s.clock ∧
    (s.setSeqx k x).mtime = s.mtime ∧ (s.setSeqx k x).tmbOn = s.tmbOn ∧ (s.setSeqx k x).slew = s.slew ∧
    (s.setSeqx k x).slewFrac = s.slewFrac ∧ (s.setSeqx k x).steppedAt = s.steppedAt ∧ (s.setSeqx k x).mode = s.mode ∧
    (s.setSeqx k x).everIdle = s.everIdle ∧ (s.setSeqx k x).warmPass = s.warmPass ∧ (s.setSeqx k x).svcDown = s.svcDown ∧
    (s.setSeqx k x).quiesceSince = s.quiesceSince ∧ (s.setSeqx k x).idleSince = s.idleSince ∧ (s.setSeqx k x).out = s.out ∧
    (s.setSeqx k x).lanes = s.lanes ∧ (s.setSeqx k x).leftParts = s.leftParts ∧ (s.setSeqx k x).slots = s.slots ∧
    (s.setSeqx k x).lastRow = s.lastRow ∧ (s.setSeqx k x).tileTurn = s.tileTurn ∧ (s.setSeqx k x).tileTest = s.tileTest ∧
    (s.setSeqx k x).cuPrev = s.cuPrev ∧ (s.setSeqx k x).xs = s.xs ∧ (s.setSeqx k x).pins = s.pins ∧
    (s.setSeqx k x).benches = s.benches ∧ (s.setSeqx k x).nextReq = s.nextReq ∧ (s.setSeqx k x).streams = s.streams ∧
    (s.setSeqx k x).dirs = s.dirs ∧ (s.setSeqx k x).ingotOwner = s.ingotOwner ∧ (s.setSeqx k x).engines = s.engines ∧
    (s.setSeqx k x).locks = s.locks ∧ (s.setSeqx k x).latched = s.latched ∧ (s.setSeqx k x).heldHalf = s.heldHalf ∧
    (s.setSeqx k x).propReserved = s.propReserved ∧ (s.setSeqx k x).lines = s.lines ∧ (s.setSeqx k x).packets = s.packets ∧
    (s.setSeqx k x).nextPkt = s.nextPkt ∧ (s.setSeqx k x).bankUsed = s.bankUsed ∧
    (s.setSeqx k x).fencedBanks = s.fencedBanks ∧ (s.setSeqx k x).movedGroup = s.movedGroup ∧
    (s.setSeqx k x).rotor = s.rotor ∧ (s.setSeqx k x).granted = s.granted ∧ (s.setSeqx k x).held = s.held ∧
    (s.setSeqx k x).queues = s.queues ∧ (s.setSeqx k x).queueGen = s.queueGen ∧ (s.setSeqx k x).mem = s.mem ∧
    (s.setSeqx k x).poison = s.poison ∧ (s.setSeqx k x).poisonUsed = s.poisonUsed ∧ (s.setSeqx k x).storeReqs = s.storeReqs ∧
    (s.setSeqx k x).chans = s.chans ∧ (s.setSeqx k x).rowTabs = s.rowTabs ∧ (s.setSeqx k x).rowWindow = s.rowWindow ∧
    (s.setSeqx k x).neighbours = s.neighbours ∧ (s.setSeqx k x).ranks = s.ranks ∧ (s.setSeqx k x).homes = s.homes ∧
    (s.setSeqx k x).mig = s.mig ∧ (s.setSeqx k x).frozen = s.frozen ∧ (s.setSeqx k x).calibrated = s.calibrated ∧
    (s.setSeqx k x).speedChange = s.speedChange ∧ (s.setSeqx k x).staging = s.staging ∧ (s.setSeqx k x).ports = s.ports ∧
    (s.setSeqx k x).funcs = s.funcs ∧ (s.setSeqx k x).subsys = s.subsys ∧ (s.setSeqx k x).sessions = s.sessions ∧
    (s.setSeqx k x).sessionCount = s.sessionCount ∧ (s.setSeqx k x).net = s.net ∧ (s.setSeqx k x).timing = s.timing ∧
    (s.setSeqx k x).flash = s.flash ∧ (s.setSeqx k x).journal = s.journal ∧ (s.setSeqx k x).fw = s.fw ∧
    (s.setSeqx k x).health = s.health ∧ (s.setSeqx k x).testing = s.testing := by
  cases s; simp only [State.setSeqx, and_self]

@[simp] theorem State.setPin_frame (s : State) (k : Nat) (x : Pin) :
    (s.setPin k x).pending = s.pending ∧ (s.setPin k x).elems = s.elems ∧ (s.setPin k x).shadow = s.shadow ∧
    (s.setPin k x).cc = s.cc ∧ (s.setPin k x).fresh = s.fresh ∧ (s.setPin k x).clock = s.clock ∧
    (s.setPin k x).mtime = s.mtime ∧ (s.setPin k x).tmbOn = s.tmbOn ∧ (s.setPin k x).slew = s.slew ∧
    (s.setPin k x).slewFrac = s.slewFrac ∧ (s.setPin k x).steppedAt = s.steppedAt ∧ (s.setPin k x).mode = s.mode ∧
    (s.setPin k x).everIdle = s.everIdle ∧ (s.setPin k x).warmPass = s.warmPass ∧ (s.setPin k x).svcDown = s.svcDown ∧
    (s.setPin k x).quiesceSince = s.quiesceSince ∧ (s.setPin k x).idleSince = s.idleSince ∧ (s.setPin k x).out = s.out ∧
    (s.setPin k x).lanes = s.lanes ∧ (s.setPin k x).leftParts = s.leftParts ∧ (s.setPin k x).slots = s.slots ∧
    (s.setPin k x).lastRow = s.lastRow ∧ (s.setPin k x).tileTurn = s.tileTurn ∧ (s.setPin k x).tileTest = s.tileTest ∧
    (s.setPin k x).cuPrev = s.cuPrev ∧ (s.setPin k x).seqs = s.seqs ∧ (s.setPin k x).xs = s.xs ∧
    (s.setPin k x).benches = s.benches ∧ (s.setPin k x).nextReq = s.nextReq ∧ (s.setPin k x).streams = s.streams ∧
    (s.setPin k x).dirs = s.dirs ∧ (s.setPin k x).ingotOwner = s.ingotOwner ∧ (s.setPin k x).engines = s.engines ∧
    (s.setPin k x).locks = s.locks ∧ (s.setPin k x).latched = s.latched ∧ (s.setPin k x).heldHalf = s.heldHalf ∧
    (s.setPin k x).propReserved = s.propReserved ∧ (s.setPin k x).lines = s.lines ∧ (s.setPin k x).packets = s.packets ∧
    (s.setPin k x).nextPkt = s.nextPkt ∧ (s.setPin k x).bankUsed = s.bankUsed ∧ (s.setPin k x).fencedBanks = s.fencedBanks ∧
    (s.setPin k x).movedGroup = s.movedGroup ∧ (s.setPin k x).rotor = s.rotor ∧ (s.setPin k x).granted = s.granted ∧
    (s.setPin k x).held = s.held ∧ (s.setPin k x).queues = s.queues ∧ (s.setPin k x).queueGen = s.queueGen ∧
    (s.setPin k x).mem = s.mem ∧ (s.setPin k x).poison = s.poison ∧ (s.setPin k x).poisonUsed = s.poisonUsed ∧
    (s.setPin k x).storeReqs = s.storeReqs ∧ (s.setPin k x).chans = s.chans ∧ (s.setPin k x).rowTabs = s.rowTabs ∧
    (s.setPin k x).rowWindow = s.rowWindow ∧ (s.setPin k x).neighbours = s.neighbours ∧ (s.setPin k x).ranks = s.ranks ∧
    (s.setPin k x).homes = s.homes ∧ (s.setPin k x).mig = s.mig ∧ (s.setPin k x).frozen = s.frozen ∧
    (s.setPin k x).calibrated = s.calibrated ∧ (s.setPin k x).speedChange = s.speedChange ∧
    (s.setPin k x).staging = s.staging ∧ (s.setPin k x).ports = s.ports ∧ (s.setPin k x).funcs = s.funcs ∧
    (s.setPin k x).subsys = s.subsys ∧ (s.setPin k x).sessions = s.sessions ∧ (s.setPin k x).sessionCount = s.sessionCount ∧
    (s.setPin k x).net = s.net ∧ (s.setPin k x).timing = s.timing ∧ (s.setPin k x).flash = s.flash ∧
    (s.setPin k x).journal = s.journal ∧ (s.setPin k x).fw = s.fw ∧ (s.setPin k x).health = s.health ∧
    (s.setPin k x).testing = s.testing := by
  cases s; simp only [State.setPin, and_self]

@[simp] theorem State.setStream_frame (s : State) (k : Nat) (x : Stream) :
    (s.setStream k x).pending = s.pending ∧ (s.setStream k x).elems = s.elems ∧ (s.setStream k x).shadow = s.shadow ∧
    (s.setStream k x).cc = s.cc ∧ (s.setStream k x).fresh = s.fresh ∧ (s.setStream k x).clock = s.clock ∧
    (s.setStream k x).mtime = s.mtime ∧ (s.setStream k x).tmbOn = s.tmbOn ∧ (s.setStream k x).slew = s.slew ∧
    (s.setStream k x).slewFrac = s.slewFrac ∧ (s.setStream k x).steppedAt = s.steppedAt ∧ (s.setStream k x).mode = s.mode ∧
    (s.setStream k x).everIdle = s.everIdle ∧ (s.setStream k x).warmPass = s.warmPass ∧
    (s.setStream k x).svcDown = s.svcDown ∧ (s.setStream k x).quiesceSince = s.quiesceSince ∧
    (s.setStream k x).idleSince = s.idleSince ∧ (s.setStream k x).out = s.out ∧ (s.setStream k x).lanes = s.lanes ∧
    (s.setStream k x).leftParts = s.leftParts ∧ (s.setStream k x).slots = s.slots ∧ (s.setStream k x).lastRow = s.lastRow ∧
    (s.setStream k x).tileTurn = s.tileTurn ∧ (s.setStream k x).tileTest = s.tileTest ∧ (s.setStream k x).cuPrev = s.cuPrev ∧
    (s.setStream k x).seqs = s.seqs ∧ (s.setStream k x).xs = s.xs ∧ (s.setStream k x).pins = s.pins ∧
    (s.setStream k x).benches = s.benches ∧ (s.setStream k x).nextReq = s.nextReq ∧ (s.setStream k x).dirs = s.dirs ∧
    (s.setStream k x).ingotOwner = s.ingotOwner ∧ (s.setStream k x).engines = s.engines ∧ (s.setStream k x).locks = s.locks ∧
    (s.setStream k x).latched = s.latched ∧ (s.setStream k x).heldHalf = s.heldHalf ∧
    (s.setStream k x).propReserved = s.propReserved ∧ (s.setStream k x).lines = s.lines ∧
    (s.setStream k x).packets = s.packets ∧ (s.setStream k x).nextPkt = s.nextPkt ∧ (s.setStream k x).bankUsed = s.bankUsed ∧
    (s.setStream k x).fencedBanks = s.fencedBanks ∧ (s.setStream k x).movedGroup = s.movedGroup ∧
    (s.setStream k x).rotor = s.rotor ∧ (s.setStream k x).granted = s.granted ∧ (s.setStream k x).held = s.held ∧
    (s.setStream k x).queues = s.queues ∧ (s.setStream k x).queueGen = s.queueGen ∧ (s.setStream k x).mem = s.mem ∧
    (s.setStream k x).poison = s.poison ∧ (s.setStream k x).poisonUsed = s.poisonUsed ∧
    (s.setStream k x).storeReqs = s.storeReqs ∧ (s.setStream k x).chans = s.chans ∧ (s.setStream k x).rowTabs = s.rowTabs ∧
    (s.setStream k x).rowWindow = s.rowWindow ∧ (s.setStream k x).neighbours = s.neighbours ∧
    (s.setStream k x).ranks = s.ranks ∧ (s.setStream k x).homes = s.homes ∧ (s.setStream k x).mig = s.mig ∧
    (s.setStream k x).frozen = s.frozen ∧ (s.setStream k x).calibrated = s.calibrated ∧
    (s.setStream k x).speedChange = s.speedChange ∧ (s.setStream k x).staging = s.staging ∧
    (s.setStream k x).ports = s.ports ∧ (s.setStream k x).funcs = s.funcs ∧ (s.setStream k x).subsys = s.subsys ∧
    (s.setStream k x).sessions = s.sessions ∧ (s.setStream k x).sessionCount = s.sessionCount ∧
    (s.setStream k x).net = s.net ∧ (s.setStream k x).timing = s.timing ∧ (s.setStream k x).flash = s.flash ∧
    (s.setStream k x).journal = s.journal ∧ (s.setStream k x).fw = s.fw ∧ (s.setStream k x).health = s.health ∧
    (s.setStream k x).testing = s.testing := by
  cases s; simp only [State.setStream, and_self]

@[simp] theorem State.setDir_frame (s : State) (k : Nat) (x : List DirEntry) :
    (s.setDir k x).pending = s.pending ∧ (s.setDir k x).elems = s.elems ∧ (s.setDir k x).shadow = s.shadow ∧
    (s.setDir k x).fresh = s.fresh ∧ (s.setDir k x).clock = s.clock ∧ (s.setDir k x).mtime = s.mtime ∧
    (s.setDir k x).tmbOn = s.tmbOn ∧ (s.setDir k x).slew = s.slew ∧ (s.setDir k x).slewFrac = s.slewFrac ∧
    (s.setDir k x).steppedAt = s.steppedAt ∧ (s.setDir k x).mode = s.mode ∧ (s.setDir k x).everIdle = s.everIdle ∧
    (s.setDir k x).warmPass = s.warmPass ∧ (s.setDir k x).svcDown = s.svcDown ∧ (s.setDir k x).quiesceSince = s.quiesceSince ∧
    (s.setDir k x).idleSince = s.idleSince ∧ (s.setDir k x).out = s.out ∧ (s.setDir k x).lanes = s.lanes ∧
    (s.setDir k x).leftParts = s.leftParts ∧ (s.setDir k x).slots = s.slots ∧ (s.setDir k x).lastRow = s.lastRow ∧
    (s.setDir k x).tileTurn = s.tileTurn ∧ (s.setDir k x).tileTest = s.tileTest ∧ (s.setDir k x).cuPrev = s.cuPrev ∧
    (s.setDir k x).seqs = s.seqs ∧ (s.setDir k x).xs = s.xs ∧ (s.setDir k x).pins = s.pins ∧
    (s.setDir k x).benches = s.benches ∧ (s.setDir k x).nextReq = s.nextReq ∧ (s.setDir k x).streams = s.streams ∧
    (s.setDir k x).ingotOwner = s.ingotOwner ∧ (s.setDir k x).engines = s.engines ∧ (s.setDir k x).locks = s.locks ∧
    (s.setDir k x).latched = s.latched ∧ (s.setDir k x).heldHalf = s.heldHalf ∧ (s.setDir k x).propReserved = s.propReserved ∧
    (s.setDir k x).lines = s.lines ∧ (s.setDir k x).packets = s.packets ∧ (s.setDir k x).nextPkt = s.nextPkt ∧
    (s.setDir k x).bankUsed = s.bankUsed ∧ (s.setDir k x).fencedBanks = s.fencedBanks ∧
    (s.setDir k x).movedGroup = s.movedGroup ∧ (s.setDir k x).rotor = s.rotor ∧ (s.setDir k x).granted = s.granted ∧
    (s.setDir k x).held = s.held ∧ (s.setDir k x).queues = s.queues ∧ (s.setDir k x).queueGen = s.queueGen ∧
    (s.setDir k x).mem = s.mem ∧ (s.setDir k x).poison = s.poison ∧ (s.setDir k x).poisonUsed = s.poisonUsed ∧
    (s.setDir k x).storeReqs = s.storeReqs ∧ (s.setDir k x).chans = s.chans ∧ (s.setDir k x).rowTabs = s.rowTabs ∧
    (s.setDir k x).rowWindow = s.rowWindow ∧ (s.setDir k x).neighbours = s.neighbours ∧ (s.setDir k x).ranks = s.ranks ∧
    (s.setDir k x).homes = s.homes ∧ (s.setDir k x).mig = s.mig ∧ (s.setDir k x).frozen = s.frozen ∧
    (s.setDir k x).calibrated = s.calibrated ∧ (s.setDir k x).speedChange = s.speedChange ∧
    (s.setDir k x).staging = s.staging ∧ (s.setDir k x).ports = s.ports ∧ (s.setDir k x).funcs = s.funcs ∧
    (s.setDir k x).subsys = s.subsys ∧ (s.setDir k x).sessions = s.sessions ∧ (s.setDir k x).sessionCount = s.sessionCount ∧
    (s.setDir k x).net = s.net ∧ (s.setDir k x).timing = s.timing ∧ (s.setDir k x).flash = s.flash ∧
    (s.setDir k x).journal = s.journal ∧ (s.setDir k x).fw = s.fw ∧ (s.setDir k x).health = s.health ∧
    (s.setDir k x).testing = s.testing := by
  cases s; simp only [State.setDir, and_self]

@[simp] theorem State.setEngine_frame (s : State) (k : Nat) (x : Engine) :
    (s.setEngine k x).pending = s.pending ∧ (s.setEngine k x).elems = s.elems ∧ (s.setEngine k x).shadow = s.shadow ∧
    (s.setEngine k x).cc = s.cc ∧ (s.setEngine k x).fresh = s.fresh ∧ (s.setEngine k x).clock = s.clock ∧
    (s.setEngine k x).mtime = s.mtime ∧ (s.setEngine k x).tmbOn = s.tmbOn ∧ (s.setEngine k x).slew = s.slew ∧
    (s.setEngine k x).slewFrac = s.slewFrac ∧ (s.setEngine k x).steppedAt = s.steppedAt ∧ (s.setEngine k x).mode = s.mode ∧
    (s.setEngine k x).everIdle = s.everIdle ∧ (s.setEngine k x).warmPass = s.warmPass ∧
    (s.setEngine k x).svcDown = s.svcDown ∧ (s.setEngine k x).quiesceSince = s.quiesceSince ∧
    (s.setEngine k x).idleSince = s.idleSince ∧ (s.setEngine k x).out = s.out ∧ (s.setEngine k x).lanes = s.lanes ∧
    (s.setEngine k x).leftParts = s.leftParts ∧ (s.setEngine k x).slots = s.slots ∧ (s.setEngine k x).lastRow = s.lastRow ∧
    (s.setEngine k x).tileTurn = s.tileTurn ∧ (s.setEngine k x).tileTest = s.tileTest ∧ (s.setEngine k x).cuPrev = s.cuPrev ∧
    (s.setEngine k x).seqs = s.seqs ∧ (s.setEngine k x).xs = s.xs ∧ (s.setEngine k x).pins = s.pins ∧
    (s.setEngine k x).benches = s.benches ∧ (s.setEngine k x).nextReq = s.nextReq ∧ (s.setEngine k x).streams = s.streams ∧
    (s.setEngine k x).dirs = s.dirs ∧ (s.setEngine k x).ingotOwner = s.ingotOwner ∧ (s.setEngine k x).locks = s.locks ∧
    (s.setEngine k x).latched = s.latched ∧ (s.setEngine k x).heldHalf = s.heldHalf ∧
    (s.setEngine k x).propReserved = s.propReserved ∧ (s.setEngine k x).lines = s.lines ∧
    (s.setEngine k x).packets = s.packets ∧ (s.setEngine k x).nextPkt = s.nextPkt ∧ (s.setEngine k x).bankUsed = s.bankUsed ∧
    (s.setEngine k x).fencedBanks = s.fencedBanks ∧ (s.setEngine k x).movedGroup = s.movedGroup ∧
    (s.setEngine k x).rotor = s.rotor ∧ (s.setEngine k x).granted = s.granted ∧ (s.setEngine k x).held = s.held ∧
    (s.setEngine k x).queues = s.queues ∧ (s.setEngine k x).queueGen = s.queueGen ∧ (s.setEngine k x).mem = s.mem ∧
    (s.setEngine k x).poison = s.poison ∧ (s.setEngine k x).poisonUsed = s.poisonUsed ∧
    (s.setEngine k x).storeReqs = s.storeReqs ∧ (s.setEngine k x).chans = s.chans ∧ (s.setEngine k x).rowTabs = s.rowTabs ∧
    (s.setEngine k x).rowWindow = s.rowWindow ∧ (s.setEngine k x).neighbours = s.neighbours ∧
    (s.setEngine k x).ranks = s.ranks ∧ (s.setEngine k x).homes = s.homes ∧ (s.setEngine k x).mig = s.mig ∧
    (s.setEngine k x).frozen = s.frozen ∧ (s.setEngine k x).calibrated = s.calibrated ∧
    (s.setEngine k x).speedChange = s.speedChange ∧ (s.setEngine k x).staging = s.staging ∧
    (s.setEngine k x).ports = s.ports ∧ (s.setEngine k x).funcs = s.funcs ∧ (s.setEngine k x).subsys = s.subsys ∧
    (s.setEngine k x).sessions = s.sessions ∧ (s.setEngine k x).sessionCount = s.sessionCount ∧
    (s.setEngine k x).net = s.net ∧ (s.setEngine k x).timing = s.timing ∧ (s.setEngine k x).flash = s.flash ∧
    (s.setEngine k x).journal = s.journal ∧ (s.setEngine k x).fw = s.fw ∧ (s.setEngine k x).health = s.health ∧
    (s.setEngine k x).testing = s.testing := by
  cases s; simp only [State.setEngine, and_self]

@[simp] theorem State.setLock_frame (s : State) (k : Nat) (x : Lock) :
    (s.setLock k x).pending = s.pending ∧ (s.setLock k x).elems = s.elems ∧ (s.setLock k x).shadow = s.shadow ∧
    (s.setLock k x).cc = s.cc ∧ (s.setLock k x).fresh = s.fresh ∧ (s.setLock k x).clock = s.clock ∧
    (s.setLock k x).mtime = s.mtime ∧ (s.setLock k x).tmbOn = s.tmbOn ∧ (s.setLock k x).slew = s.slew ∧
    (s.setLock k x).slewFrac = s.slewFrac ∧ (s.setLock k x).steppedAt = s.steppedAt ∧ (s.setLock k x).mode = s.mode ∧
    (s.setLock k x).everIdle = s.everIdle ∧ (s.setLock k x).warmPass = s.warmPass ∧ (s.setLock k x).svcDown = s.svcDown ∧
    (s.setLock k x).quiesceSince = s.quiesceSince ∧ (s.setLock k x).idleSince = s.idleSince ∧ (s.setLock k x).out = s.out ∧
    (s.setLock k x).lanes = s.lanes ∧ (s.setLock k x).leftParts = s.leftParts ∧ (s.setLock k x).slots = s.slots ∧
    (s.setLock k x).lastRow = s.lastRow ∧ (s.setLock k x).tileTurn = s.tileTurn ∧ (s.setLock k x).tileTest = s.tileTest ∧
    (s.setLock k x).cuPrev = s.cuPrev ∧ (s.setLock k x).seqs = s.seqs ∧ (s.setLock k x).xs = s.xs ∧
    (s.setLock k x).pins = s.pins ∧ (s.setLock k x).benches = s.benches ∧ (s.setLock k x).nextReq = s.nextReq ∧
    (s.setLock k x).streams = s.streams ∧ (s.setLock k x).dirs = s.dirs ∧ (s.setLock k x).ingotOwner = s.ingotOwner ∧
    (s.setLock k x).engines = s.engines ∧ (s.setLock k x).latched = s.latched ∧ (s.setLock k x).heldHalf = s.heldHalf ∧
    (s.setLock k x).propReserved = s.propReserved ∧ (s.setLock k x).lines = s.lines ∧ (s.setLock k x).packets = s.packets ∧
    (s.setLock k x).nextPkt = s.nextPkt ∧ (s.setLock k x).bankUsed = s.bankUsed ∧
    (s.setLock k x).fencedBanks = s.fencedBanks ∧ (s.setLock k x).movedGroup = s.movedGroup ∧
    (s.setLock k x).rotor = s.rotor ∧ (s.setLock k x).granted = s.granted ∧ (s.setLock k x).held = s.held ∧
    (s.setLock k x).queues = s.queues ∧ (s.setLock k x).queueGen = s.queueGen ∧ (s.setLock k x).mem = s.mem ∧
    (s.setLock k x).poison = s.poison ∧ (s.setLock k x).poisonUsed = s.poisonUsed ∧ (s.setLock k x).storeReqs = s.storeReqs ∧
    (s.setLock k x).chans = s.chans ∧ (s.setLock k x).rowTabs = s.rowTabs ∧ (s.setLock k x).rowWindow = s.rowWindow ∧
    (s.setLock k x).neighbours = s.neighbours ∧ (s.setLock k x).ranks = s.ranks ∧ (s.setLock k x).homes = s.homes ∧
    (s.setLock k x).mig = s.mig ∧ (s.setLock k x).frozen = s.frozen ∧ (s.setLock k x).calibrated = s.calibrated ∧
    (s.setLock k x).speedChange = s.speedChange ∧ (s.setLock k x).staging = s.staging ∧ (s.setLock k x).ports = s.ports ∧
    (s.setLock k x).funcs = s.funcs ∧ (s.setLock k x).subsys = s.subsys ∧ (s.setLock k x).sessions = s.sessions ∧
    (s.setLock k x).sessionCount = s.sessionCount ∧ (s.setLock k x).net = s.net ∧ (s.setLock k x).timing = s.timing ∧
    (s.setLock k x).flash = s.flash ∧ (s.setLock k x).journal = s.journal ∧ (s.setLock k x).fw = s.fw ∧
    (s.setLock k x).health = s.health ∧ (s.setLock k x).testing = s.testing := by
  cases s; simp only [State.setLock, and_self]

@[simp] theorem State.setLine_frame (s : State) (k : Nat) (x : Line) :
    (s.setLine k x).pending = s.pending ∧ (s.setLine k x).elems = s.elems ∧ (s.setLine k x).shadow = s.shadow ∧
    (s.setLine k x).cc = s.cc ∧ (s.setLine k x).fresh = s.fresh ∧ (s.setLine k x).clock = s.clock ∧
    (s.setLine k x).mtime = s.mtime ∧ (s.setLine k x).tmbOn = s.tmbOn ∧ (s.setLine k x).slew = s.slew ∧
    (s.setLine k x).slewFrac = s.slewFrac ∧ (s.setLine k x).steppedAt = s.steppedAt ∧ (s.setLine k x).mode = s.mode ∧
    (s.setLine k x).everIdle = s.everIdle ∧ (s.setLine k x).warmPass = s.warmPass ∧ (s.setLine k x).svcDown = s.svcDown ∧
    (s.setLine k x).quiesceSince = s.quiesceSince ∧ (s.setLine k x).idleSince = s.idleSince ∧ (s.setLine k x).out = s.out ∧
    (s.setLine k x).lanes = s.lanes ∧ (s.setLine k x).leftParts = s.leftParts ∧ (s.setLine k x).slots = s.slots ∧
    (s.setLine k x).lastRow = s.lastRow ∧ (s.setLine k x).tileTurn = s.tileTurn ∧ (s.setLine k x).tileTest = s.tileTest ∧
    (s.setLine k x).cuPrev = s.cuPrev ∧ (s.setLine k x).seqs = s.seqs ∧ (s.setLine k x).xs = s.xs ∧
    (s.setLine k x).pins = s.pins ∧ (s.setLine k x).benches = s.benches ∧ (s.setLine k x).nextReq = s.nextReq ∧
    (s.setLine k x).streams = s.streams ∧ (s.setLine k x).dirs = s.dirs ∧ (s.setLine k x).ingotOwner = s.ingotOwner ∧
    (s.setLine k x).engines = s.engines ∧ (s.setLine k x).locks = s.locks ∧ (s.setLine k x).latched = s.latched ∧
    (s.setLine k x).heldHalf = s.heldHalf ∧ (s.setLine k x).propReserved = s.propReserved ∧
    (s.setLine k x).packets = s.packets ∧ (s.setLine k x).nextPkt = s.nextPkt ∧ (s.setLine k x).bankUsed = s.bankUsed ∧
    (s.setLine k x).fencedBanks = s.fencedBanks ∧ (s.setLine k x).movedGroup = s.movedGroup ∧
    (s.setLine k x).rotor = s.rotor ∧ (s.setLine k x).granted = s.granted ∧ (s.setLine k x).held = s.held ∧
    (s.setLine k x).queues = s.queues ∧ (s.setLine k x).queueGen = s.queueGen ∧ (s.setLine k x).mem = s.mem ∧
    (s.setLine k x).poison = s.poison ∧ (s.setLine k x).poisonUsed = s.poisonUsed ∧ (s.setLine k x).storeReqs = s.storeReqs ∧
    (s.setLine k x).chans = s.chans ∧ (s.setLine k x).rowTabs = s.rowTabs ∧ (s.setLine k x).rowWindow = s.rowWindow ∧
    (s.setLine k x).neighbours = s.neighbours ∧ (s.setLine k x).ranks = s.ranks ∧ (s.setLine k x).homes = s.homes ∧
    (s.setLine k x).mig = s.mig ∧ (s.setLine k x).frozen = s.frozen ∧ (s.setLine k x).calibrated = s.calibrated ∧
    (s.setLine k x).speedChange = s.speedChange ∧ (s.setLine k x).staging = s.staging ∧ (s.setLine k x).ports = s.ports ∧
    (s.setLine k x).funcs = s.funcs ∧ (s.setLine k x).subsys = s.subsys ∧ (s.setLine k x).sessions = s.sessions ∧
    (s.setLine k x).sessionCount = s.sessionCount ∧ (s.setLine k x).net = s.net ∧ (s.setLine k x).timing = s.timing ∧
    (s.setLine k x).flash = s.flash ∧ (s.setLine k x).journal = s.journal ∧ (s.setLine k x).fw = s.fw ∧
    (s.setLine k x).health = s.health ∧ (s.setLine k x).testing = s.testing := by
  cases s; simp only [State.setLine, and_self]

@[simp] theorem State.setPacket_frame (s : State) (k : Nat) (x : Packet) :
    (s.setPacket k x).pending = s.pending ∧ (s.setPacket k x).elems = s.elems ∧ (s.setPacket k x).shadow = s.shadow ∧
    (s.setPacket k x).cc = s.cc ∧ (s.setPacket k x).fresh = s.fresh ∧ (s.setPacket k x).clock = s.clock ∧
    (s.setPacket k x).mtime = s.mtime ∧ (s.setPacket k x).tmbOn = s.tmbOn ∧ (s.setPacket k x).slew = s.slew ∧
    (s.setPacket k x).slewFrac = s.slewFrac ∧ (s.setPacket k x).steppedAt = s.steppedAt ∧ (s.setPacket k x).mode = s.mode ∧
    (s.setPacket k x).everIdle = s.everIdle ∧ (s.setPacket k x).warmPass = s.warmPass ∧
    (s.setPacket k x).svcDown = s.svcDown ∧ (s.setPacket k x).quiesceSince = s.quiesceSince ∧
    (s.setPacket k x).idleSince = s.idleSince ∧ (s.setPacket k x).out = s.out ∧ (s.setPacket k x).lanes = s.lanes ∧
    (s.setPacket k x).leftParts = s.leftParts ∧ (s.setPacket k x).slots = s.slots ∧ (s.setPacket k x).lastRow = s.lastRow ∧
    (s.setPacket k x).tileTurn = s.tileTurn ∧ (s.setPacket k x).tileTest = s.tileTest ∧ (s.setPacket k x).cuPrev = s.cuPrev ∧
    (s.setPacket k x).seqs = s.seqs ∧ (s.setPacket k x).xs = s.xs ∧ (s.setPacket k x).pins = s.pins ∧
    (s.setPacket k x).benches = s.benches ∧ (s.setPacket k x).nextReq = s.nextReq ∧ (s.setPacket k x).streams = s.streams ∧
    (s.setPacket k x).dirs = s.dirs ∧ (s.setPacket k x).ingotOwner = s.ingotOwner ∧ (s.setPacket k x).engines = s.engines ∧
    (s.setPacket k x).locks = s.locks ∧ (s.setPacket k x).latched = s.latched ∧ (s.setPacket k x).heldHalf = s.heldHalf ∧
    (s.setPacket k x).propReserved = s.propReserved ∧ (s.setPacket k x).lines = s.lines ∧
    (s.setPacket k x).nextPkt = s.nextPkt ∧ (s.setPacket k x).bankUsed = s.bankUsed ∧
    (s.setPacket k x).fencedBanks = s.fencedBanks ∧ (s.setPacket k x).movedGroup = s.movedGroup ∧
    (s.setPacket k x).rotor = s.rotor ∧ (s.setPacket k x).granted = s.granted ∧ (s.setPacket k x).held = s.held ∧
    (s.setPacket k x).queues = s.queues ∧ (s.setPacket k x).queueGen = s.queueGen ∧ (s.setPacket k x).mem = s.mem ∧
    (s.setPacket k x).poison = s.poison ∧ (s.setPacket k x).poisonUsed = s.poisonUsed ∧
    (s.setPacket k x).storeReqs = s.storeReqs ∧ (s.setPacket k x).chans = s.chans ∧ (s.setPacket k x).rowTabs = s.rowTabs ∧
    (s.setPacket k x).rowWindow = s.rowWindow ∧ (s.setPacket k x).neighbours = s.neighbours ∧
    (s.setPacket k x).ranks = s.ranks ∧ (s.setPacket k x).homes = s.homes ∧ (s.setPacket k x).mig = s.mig ∧
    (s.setPacket k x).frozen = s.frozen ∧ (s.setPacket k x).calibrated = s.calibrated ∧
    (s.setPacket k x).speedChange = s.speedChange ∧ (s.setPacket k x).staging = s.staging ∧
    (s.setPacket k x).ports = s.ports ∧ (s.setPacket k x).funcs = s.funcs ∧ (s.setPacket k x).subsys = s.subsys ∧
    (s.setPacket k x).sessions = s.sessions ∧ (s.setPacket k x).sessionCount = s.sessionCount ∧
    (s.setPacket k x).net = s.net ∧ (s.setPacket k x).timing = s.timing ∧ (s.setPacket k x).flash = s.flash ∧
    (s.setPacket k x).journal = s.journal ∧ (s.setPacket k x).fw = s.fw ∧ (s.setPacket k x).health = s.health ∧
    (s.setPacket k x).testing = s.testing := by
  cases s; simp only [State.setPacket, and_self]

@[simp] theorem State.setQueue_frame (s : State) (k : Nat) (x : Queue) :
    (s.setQueue k x).pending = s.pending ∧ (s.setQueue k x).elems = s.elems ∧ (s.setQueue k x).shadow = s.shadow ∧
    (s.setQueue k x).fresh = s.fresh ∧ (s.setQueue k x).clock = s.clock ∧ (s.setQueue k x).mtime = s.mtime ∧
    (s.setQueue k x).tmbOn = s.tmbOn ∧ (s.setQueue k x).slew = s.slew ∧ (s.setQueue k x).slewFrac = s.slewFrac ∧
    (s.setQueue k x).steppedAt = s.steppedAt ∧ (s.setQueue k x).mode = s.mode ∧ (s.setQueue k x).everIdle = s.everIdle ∧
    (s.setQueue k x).warmPass = s.warmPass ∧ (s.setQueue k x).svcDown = s.svcDown ∧
    (s.setQueue k x).quiesceSince = s.quiesceSince ∧ (s.setQueue k x).idleSince = s.idleSince ∧ (s.setQueue k x).out = s.out ∧
    (s.setQueue k x).lanes = s.lanes ∧ (s.setQueue k x).leftParts = s.leftParts ∧ (s.setQueue k x).slots = s.slots ∧
    (s.setQueue k x).lastRow = s.lastRow ∧ (s.setQueue k x).tileTurn = s.tileTurn ∧ (s.setQueue k x).tileTest = s.tileTest ∧
    (s.setQueue k x).cuPrev = s.cuPrev ∧ (s.setQueue k x).seqs = s.seqs ∧ (s.setQueue k x).xs = s.xs ∧
    (s.setQueue k x).pins = s.pins ∧ (s.setQueue k x).benches = s.benches ∧ (s.setQueue k x).nextReq = s.nextReq ∧
    (s.setQueue k x).streams = s.streams ∧ (s.setQueue k x).dirs = s.dirs ∧ (s.setQueue k x).ingotOwner = s.ingotOwner ∧
    (s.setQueue k x).engines = s.engines ∧ (s.setQueue k x).locks = s.locks ∧ (s.setQueue k x).latched = s.latched ∧
    (s.setQueue k x).heldHalf = s.heldHalf ∧ (s.setQueue k x).propReserved = s.propReserved ∧
    (s.setQueue k x).lines = s.lines ∧ (s.setQueue k x).packets = s.packets ∧ (s.setQueue k x).nextPkt = s.nextPkt ∧
    (s.setQueue k x).bankUsed = s.bankUsed ∧ (s.setQueue k x).fencedBanks = s.fencedBanks ∧
    (s.setQueue k x).movedGroup = s.movedGroup ∧ (s.setQueue k x).rotor = s.rotor ∧ (s.setQueue k x).granted = s.granted ∧
    (s.setQueue k x).held = s.held ∧ (s.setQueue k x).queueGen = s.queueGen ∧ (s.setQueue k x).mem = s.mem ∧
    (s.setQueue k x).poison = s.poison ∧ (s.setQueue k x).poisonUsed = s.poisonUsed ∧
    (s.setQueue k x).storeReqs = s.storeReqs ∧ (s.setQueue k x).chans = s.chans ∧ (s.setQueue k x).rowTabs = s.rowTabs ∧
    (s.setQueue k x).rowWindow = s.rowWindow ∧ (s.setQueue k x).neighbours = s.neighbours ∧ (s.setQueue k x).ranks = s.ranks ∧
    (s.setQueue k x).homes = s.homes ∧ (s.setQueue k x).mig = s.mig ∧ (s.setQueue k x).frozen = s.frozen ∧
    (s.setQueue k x).calibrated = s.calibrated ∧ (s.setQueue k x).speedChange = s.speedChange ∧
    (s.setQueue k x).staging = s.staging ∧ (s.setQueue k x).ports = s.ports ∧ (s.setQueue k x).funcs = s.funcs ∧
    (s.setQueue k x).subsys = s.subsys ∧ (s.setQueue k x).sessions = s.sessions ∧
    (s.setQueue k x).sessionCount = s.sessionCount ∧ (s.setQueue k x).net = s.net ∧ (s.setQueue k x).timing = s.timing ∧
    (s.setQueue k x).flash = s.flash ∧ (s.setQueue k x).journal = s.journal ∧ (s.setQueue k x).fw = s.fw ∧
    (s.setQueue k x).health = s.health ∧ (s.setQueue k x).testing = s.testing := by
  cases s; simp only [State.setQueue, and_self]

@[simp] theorem State.setChan_frame (s : State) (k : Nat) (x : Chan) :
    (s.setChan k x).pending = s.pending ∧ (s.setChan k x).elems = s.elems ∧ (s.setChan k x).shadow = s.shadow ∧
    (s.setChan k x).cc = s.cc ∧ (s.setChan k x).fresh = s.fresh ∧ (s.setChan k x).clock = s.clock ∧
    (s.setChan k x).mtime = s.mtime ∧ (s.setChan k x).tmbOn = s.tmbOn ∧ (s.setChan k x).slew = s.slew ∧
    (s.setChan k x).slewFrac = s.slewFrac ∧ (s.setChan k x).steppedAt = s.steppedAt ∧ (s.setChan k x).mode = s.mode ∧
    (s.setChan k x).everIdle = s.everIdle ∧ (s.setChan k x).warmPass = s.warmPass ∧ (s.setChan k x).svcDown = s.svcDown ∧
    (s.setChan k x).quiesceSince = s.quiesceSince ∧ (s.setChan k x).idleSince = s.idleSince ∧ (s.setChan k x).out = s.out ∧
    (s.setChan k x).lanes = s.lanes ∧ (s.setChan k x).leftParts = s.leftParts ∧ (s.setChan k x).slots = s.slots ∧
    (s.setChan k x).lastRow = s.lastRow ∧ (s.setChan k x).tileTurn = s.tileTurn ∧ (s.setChan k x).tileTest = s.tileTest ∧
    (s.setChan k x).cuPrev = s.cuPrev ∧ (s.setChan k x).seqs = s.seqs ∧ (s.setChan k x).xs = s.xs ∧
    (s.setChan k x).pins = s.pins ∧ (s.setChan k x).benches = s.benches ∧ (s.setChan k x).nextReq = s.nextReq ∧
    (s.setChan k x).streams = s.streams ∧ (s.setChan k x).dirs = s.dirs ∧ (s.setChan k x).ingotOwner = s.ingotOwner ∧
    (s.setChan k x).engines = s.engines ∧ (s.setChan k x).locks = s.locks ∧ (s.setChan k x).latched = s.latched ∧
    (s.setChan k x).heldHalf = s.heldHalf ∧ (s.setChan k x).propReserved = s.propReserved ∧ (s.setChan k x).lines = s.lines ∧
    (s.setChan k x).packets = s.packets ∧ (s.setChan k x).nextPkt = s.nextPkt ∧ (s.setChan k x).bankUsed = s.bankUsed ∧
    (s.setChan k x).fencedBanks = s.fencedBanks ∧ (s.setChan k x).movedGroup = s.movedGroup ∧
    (s.setChan k x).rotor = s.rotor ∧ (s.setChan k x).granted = s.granted ∧ (s.setChan k x).held = s.held ∧
    (s.setChan k x).queues = s.queues ∧ (s.setChan k x).queueGen = s.queueGen ∧ (s.setChan k x).mem = s.mem ∧
    (s.setChan k x).poison = s.poison ∧ (s.setChan k x).poisonUsed = s.poisonUsed ∧ (s.setChan k x).storeReqs = s.storeReqs ∧
    (s.setChan k x).rowTabs = s.rowTabs ∧ (s.setChan k x).rowWindow = s.rowWindow ∧
    (s.setChan k x).neighbours = s.neighbours ∧ (s.setChan k x).ranks = s.ranks ∧ (s.setChan k x).homes = s.homes ∧
    (s.setChan k x).mig = s.mig ∧ (s.setChan k x).frozen = s.frozen ∧ (s.setChan k x).calibrated = s.calibrated ∧
    (s.setChan k x).speedChange = s.speedChange ∧ (s.setChan k x).staging = s.staging ∧ (s.setChan k x).ports = s.ports ∧
    (s.setChan k x).funcs = s.funcs ∧ (s.setChan k x).subsys = s.subsys ∧ (s.setChan k x).sessions = s.sessions ∧
    (s.setChan k x).sessionCount = s.sessionCount ∧ (s.setChan k x).net = s.net ∧ (s.setChan k x).timing = s.timing ∧
    (s.setChan k x).flash = s.flash ∧ (s.setChan k x).journal = s.journal ∧ (s.setChan k x).fw = s.fw ∧
    (s.setChan k x).health = s.health ∧ (s.setChan k x).testing = s.testing := by
  cases s; simp only [State.setChan, and_self]

@[simp] theorem State.setRank_frame (s : State) (k : Nat) (x : Rank) :
    (s.setRank k x).pending = s.pending ∧ (s.setRank k x).elems = s.elems ∧ (s.setRank k x).shadow = s.shadow ∧
    (s.setRank k x).cc = s.cc ∧ (s.setRank k x).fresh = s.fresh ∧ (s.setRank k x).clock = s.clock ∧
    (s.setRank k x).mtime = s.mtime ∧ (s.setRank k x).tmbOn = s.tmbOn ∧ (s.setRank k x).slew = s.slew ∧
    (s.setRank k x).slewFrac = s.slewFrac ∧ (s.setRank k x).steppedAt = s.steppedAt ∧ (s.setRank k x).mode = s.mode ∧
    (s.setRank k x).everIdle = s.everIdle ∧ (s.setRank k x).warmPass = s.warmPass ∧ (s.setRank k x).svcDown = s.svcDown ∧
    (s.setRank k x).quiesceSince = s.quiesceSince ∧ (s.setRank k x).idleSince = s.idleSince ∧ (s.setRank k x).out = s.out ∧
    (s.setRank k x).lanes = s.lanes ∧ (s.setRank k x).leftParts = s.leftParts ∧ (s.setRank k x).slots = s.slots ∧
    (s.setRank k x).lastRow = s.lastRow ∧ (s.setRank k x).tileTurn = s.tileTurn ∧ (s.setRank k x).tileTest = s.tileTest ∧
    (s.setRank k x).cuPrev = s.cuPrev ∧ (s.setRank k x).seqs = s.seqs ∧ (s.setRank k x).xs = s.xs ∧
    (s.setRank k x).pins = s.pins ∧ (s.setRank k x).benches = s.benches ∧ (s.setRank k x).nextReq = s.nextReq ∧
    (s.setRank k x).streams = s.streams ∧ (s.setRank k x).dirs = s.dirs ∧ (s.setRank k x).ingotOwner = s.ingotOwner ∧
    (s.setRank k x).engines = s.engines ∧ (s.setRank k x).locks = s.locks ∧ (s.setRank k x).latched = s.latched ∧
    (s.setRank k x).heldHalf = s.heldHalf ∧ (s.setRank k x).propReserved = s.propReserved ∧ (s.setRank k x).lines = s.lines ∧
    (s.setRank k x).packets = s.packets ∧ (s.setRank k x).nextPkt = s.nextPkt ∧ (s.setRank k x).bankUsed = s.bankUsed ∧
    (s.setRank k x).fencedBanks = s.fencedBanks ∧ (s.setRank k x).movedGroup = s.movedGroup ∧
    (s.setRank k x).rotor = s.rotor ∧ (s.setRank k x).granted = s.granted ∧ (s.setRank k x).held = s.held ∧
    (s.setRank k x).queues = s.queues ∧ (s.setRank k x).queueGen = s.queueGen ∧ (s.setRank k x).mem = s.mem ∧
    (s.setRank k x).poison = s.poison ∧ (s.setRank k x).poisonUsed = s.poisonUsed ∧ (s.setRank k x).storeReqs = s.storeReqs ∧
    (s.setRank k x).chans = s.chans ∧ (s.setRank k x).rowTabs = s.rowTabs ∧ (s.setRank k x).rowWindow = s.rowWindow ∧
    (s.setRank k x).neighbours = s.neighbours ∧ (s.setRank k x).homes = s.homes ∧ (s.setRank k x).mig = s.mig ∧
    (s.setRank k x).frozen = s.frozen ∧ (s.setRank k x).calibrated = s.calibrated ∧
    (s.setRank k x).speedChange = s.speedChange ∧ (s.setRank k x).staging = s.staging ∧ (s.setRank k x).ports = s.ports ∧
    (s.setRank k x).funcs = s.funcs ∧ (s.setRank k x).subsys = s.subsys ∧ (s.setRank k x).sessions = s.sessions ∧
    (s.setRank k x).sessionCount = s.sessionCount ∧ (s.setRank k x).net = s.net ∧ (s.setRank k x).timing = s.timing ∧
    (s.setRank k x).flash = s.flash ∧ (s.setRank k x).journal = s.journal ∧ (s.setRank k x).fw = s.fw ∧
    (s.setRank k x).health = s.health ∧ (s.setRank k x).testing = s.testing := by
  cases s; simp only [State.setRank, and_self]

@[simp] theorem State.setStage_frame (s : State) (k : Nat) (x : Option Staging) :
    (s.setStage k x).pending = s.pending ∧ (s.setStage k x).elems = s.elems ∧ (s.setStage k x).shadow = s.shadow ∧
    (s.setStage k x).cc = s.cc ∧ (s.setStage k x).fresh = s.fresh ∧ (s.setStage k x).clock = s.clock ∧
    (s.setStage k x).mtime = s.mtime ∧ (s.setStage k x).tmbOn = s.tmbOn ∧ (s.setStage k x).slew = s.slew ∧
    (s.setStage k x).slewFrac = s.slewFrac ∧ (s.setStage k x).steppedAt = s.steppedAt ∧ (s.setStage k x).mode = s.mode ∧
    (s.setStage k x).everIdle = s.everIdle ∧ (s.setStage k x).warmPass = s.warmPass ∧ (s.setStage k x).svcDown = s.svcDown ∧
    (s.setStage k x).quiesceSince = s.quiesceSince ∧ (s.setStage k x).idleSince = s.idleSince ∧ (s.setStage k x).out = s.out ∧
    (s.setStage k x).lanes = s.lanes ∧ (s.setStage k x).leftParts = s.leftParts ∧ (s.setStage k x).slots = s.slots ∧
    (s.setStage k x).lastRow = s.lastRow ∧ (s.setStage k x).tileTurn = s.tileTurn ∧ (s.setStage k x).tileTest = s.tileTest ∧
    (s.setStage k x).cuPrev = s.cuPrev ∧ (s.setStage k x).seqs = s.seqs ∧ (s.setStage k x).xs = s.xs ∧
    (s.setStage k x).pins = s.pins ∧ (s.setStage k x).benches = s.benches ∧ (s.setStage k x).nextReq = s.nextReq ∧
    (s.setStage k x).streams = s.streams ∧ (s.setStage k x).dirs = s.dirs ∧ (s.setStage k x).ingotOwner = s.ingotOwner ∧
    (s.setStage k x).engines = s.engines ∧ (s.setStage k x).locks = s.locks ∧ (s.setStage k x).latched = s.latched ∧
    (s.setStage k x).heldHalf = s.heldHalf ∧ (s.setStage k x).propReserved = s.propReserved ∧
    (s.setStage k x).lines = s.lines ∧ (s.setStage k x).packets = s.packets ∧ (s.setStage k x).nextPkt = s.nextPkt ∧
    (s.setStage k x).bankUsed = s.bankUsed ∧ (s.setStage k x).fencedBanks = s.fencedBanks ∧
    (s.setStage k x).movedGroup = s.movedGroup ∧ (s.setStage k x).rotor = s.rotor ∧ (s.setStage k x).granted = s.granted ∧
    (s.setStage k x).held = s.held ∧ (s.setStage k x).queues = s.queues ∧ (s.setStage k x).queueGen = s.queueGen ∧
    (s.setStage k x).mem = s.mem ∧ (s.setStage k x).poison = s.poison ∧ (s.setStage k x).poisonUsed = s.poisonUsed ∧
    (s.setStage k x).storeReqs = s.storeReqs ∧ (s.setStage k x).chans = s.chans ∧ (s.setStage k x).rowTabs = s.rowTabs ∧
    (s.setStage k x).rowWindow = s.rowWindow ∧ (s.setStage k x).neighbours = s.neighbours ∧ (s.setStage k x).ranks = s.ranks ∧
    (s.setStage k x).homes = s.homes ∧ (s.setStage k x).mig = s.mig ∧ (s.setStage k x).frozen = s.frozen ∧
    (s.setStage k x).calibrated = s.calibrated ∧ (s.setStage k x).speedChange = s.speedChange ∧
    (s.setStage k x).ports = s.ports ∧ (s.setStage k x).funcs = s.funcs ∧ (s.setStage k x).subsys = s.subsys ∧
    (s.setStage k x).sessions = s.sessions ∧ (s.setStage k x).sessionCount = s.sessionCount ∧ (s.setStage k x).net = s.net ∧
    (s.setStage k x).timing = s.timing ∧ (s.setStage k x).flash = s.flash ∧ (s.setStage k x).journal = s.journal ∧
    (s.setStage k x).fw = s.fw ∧ (s.setStage k x).health = s.health ∧ (s.setStage k x).testing = s.testing := by
  cases s; simp only [State.setStage, and_self]

@[simp] theorem State.setPort_frame (s : State) (k : Nat) (x : Port) :
    (s.setPort k x).pending = s.pending ∧ (s.setPort k x).elems = s.elems ∧ (s.setPort k x).shadow = s.shadow ∧
    (s.setPort k x).cc = s.cc ∧ (s.setPort k x).fresh = s.fresh ∧ (s.setPort k x).clock = s.clock ∧
    (s.setPort k x).mtime = s.mtime ∧ (s.setPort k x).tmbOn = s.tmbOn ∧ (s.setPort k x).slew = s.slew ∧
    (s.setPort k x).slewFrac = s.slewFrac ∧ (s.setPort k x).steppedAt = s.steppedAt ∧ (s.setPort k x).mode = s.mode ∧
    (s.setPort k x).everIdle = s.everIdle ∧ (s.setPort k x).warmPass = s.warmPass ∧ (s.setPort k x).svcDown = s.svcDown ∧
    (s.setPort k x).quiesceSince = s.quiesceSince ∧ (s.setPort k x).idleSince = s.idleSince ∧ (s.setPort k x).out = s.out ∧
    (s.setPort k x).lanes = s.lanes ∧ (s.setPort k x).leftParts = s.leftParts ∧ (s.setPort k x).slots = s.slots ∧
    (s.setPort k x).lastRow = s.lastRow ∧ (s.setPort k x).tileTurn = s.tileTurn ∧ (s.setPort k x).tileTest = s.tileTest ∧
    (s.setPort k x).cuPrev = s.cuPrev ∧ (s.setPort k x).seqs = s.seqs ∧ (s.setPort k x).xs = s.xs ∧
    (s.setPort k x).pins = s.pins ∧ (s.setPort k x).benches = s.benches ∧ (s.setPort k x).nextReq = s.nextReq ∧
    (s.setPort k x).streams = s.streams ∧ (s.setPort k x).dirs = s.dirs ∧ (s.setPort k x).ingotOwner = s.ingotOwner ∧
    (s.setPort k x).engines = s.engines ∧ (s.setPort k x).locks = s.locks ∧ (s.setPort k x).latched = s.latched ∧
    (s.setPort k x).heldHalf = s.heldHalf ∧ (s.setPort k x).propReserved = s.propReserved ∧ (s.setPort k x).lines = s.lines ∧
    (s.setPort k x).packets = s.packets ∧ (s.setPort k x).nextPkt = s.nextPkt ∧ (s.setPort k x).bankUsed = s.bankUsed ∧
    (s.setPort k x).fencedBanks = s.fencedBanks ∧ (s.setPort k x).movedGroup = s.movedGroup ∧
    (s.setPort k x).rotor = s.rotor ∧ (s.setPort k x).granted = s.granted ∧ (s.setPort k x).held = s.held ∧
    (s.setPort k x).queues = s.queues ∧ (s.setPort k x).queueGen = s.queueGen ∧ (s.setPort k x).mem = s.mem ∧
    (s.setPort k x).poison = s.poison ∧ (s.setPort k x).poisonUsed = s.poisonUsed ∧ (s.setPort k x).storeReqs = s.storeReqs ∧
    (s.setPort k x).chans = s.chans ∧ (s.setPort k x).rowTabs = s.rowTabs ∧ (s.setPort k x).rowWindow = s.rowWindow ∧
    (s.setPort k x).neighbours = s.neighbours ∧ (s.setPort k x).ranks = s.ranks ∧ (s.setPort k x).homes = s.homes ∧
    (s.setPort k x).mig = s.mig ∧ (s.setPort k x).frozen = s.frozen ∧ (s.setPort k x).calibrated = s.calibrated ∧
    (s.setPort k x).speedChange = s.speedChange ∧ (s.setPort k x).staging = s.staging ∧ (s.setPort k x).funcs = s.funcs ∧
    (s.setPort k x).subsys = s.subsys ∧ (s.setPort k x).sessions = s.sessions ∧
    (s.setPort k x).sessionCount = s.sessionCount ∧ (s.setPort k x).net = s.net ∧ (s.setPort k x).timing = s.timing ∧
    (s.setPort k x).flash = s.flash ∧ (s.setPort k x).journal = s.journal ∧ (s.setPort k x).fw = s.fw ∧
    (s.setPort k x).health = s.health ∧ (s.setPort k x).testing = s.testing := by
  cases s; simp only [State.setPort, and_self]

@[simp] theorem State.setFunc_frame (s : State) (k : Nat) (x : Func) :
    (s.setFunc k x).pending = s.pending ∧ (s.setFunc k x).elems = s.elems ∧ (s.setFunc k x).shadow = s.shadow ∧
    (s.setFunc k x).cc = s.cc ∧ (s.setFunc k x).fresh = s.fresh ∧ (s.setFunc k x).clock = s.clock ∧
    (s.setFunc k x).mtime = s.mtime ∧ (s.setFunc k x).tmbOn = s.tmbOn ∧ (s.setFunc k x).slew = s.slew ∧
    (s.setFunc k x).slewFrac = s.slewFrac ∧ (s.setFunc k x).steppedAt = s.steppedAt ∧ (s.setFunc k x).mode = s.mode ∧
    (s.setFunc k x).everIdle = s.everIdle ∧ (s.setFunc k x).warmPass = s.warmPass ∧ (s.setFunc k x).svcDown = s.svcDown ∧
    (s.setFunc k x).quiesceSince = s.quiesceSince ∧ (s.setFunc k x).idleSince = s.idleSince ∧ (s.setFunc k x).out = s.out ∧
    (s.setFunc k x).lanes = s.lanes ∧ (s.setFunc k x).leftParts = s.leftParts ∧ (s.setFunc k x).slots = s.slots ∧
    (s.setFunc k x).lastRow = s.lastRow ∧ (s.setFunc k x).tileTurn = s.tileTurn ∧ (s.setFunc k x).tileTest = s.tileTest ∧
    (s.setFunc k x).cuPrev = s.cuPrev ∧ (s.setFunc k x).seqs = s.seqs ∧ (s.setFunc k x).xs = s.xs ∧
    (s.setFunc k x).pins = s.pins ∧ (s.setFunc k x).benches = s.benches ∧ (s.setFunc k x).nextReq = s.nextReq ∧
    (s.setFunc k x).streams = s.streams ∧ (s.setFunc k x).dirs = s.dirs ∧ (s.setFunc k x).ingotOwner = s.ingotOwner ∧
    (s.setFunc k x).engines = s.engines ∧ (s.setFunc k x).locks = s.locks ∧ (s.setFunc k x).latched = s.latched ∧
    (s.setFunc k x).heldHalf = s.heldHalf ∧ (s.setFunc k x).propReserved = s.propReserved ∧ (s.setFunc k x).lines = s.lines ∧
    (s.setFunc k x).packets = s.packets ∧ (s.setFunc k x).nextPkt = s.nextPkt ∧ (s.setFunc k x).bankUsed = s.bankUsed ∧
    (s.setFunc k x).fencedBanks = s.fencedBanks ∧ (s.setFunc k x).movedGroup = s.movedGroup ∧
    (s.setFunc k x).rotor = s.rotor ∧ (s.setFunc k x).granted = s.granted ∧ (s.setFunc k x).held = s.held ∧
    (s.setFunc k x).queues = s.queues ∧ (s.setFunc k x).queueGen = s.queueGen ∧ (s.setFunc k x).mem = s.mem ∧
    (s.setFunc k x).poison = s.poison ∧ (s.setFunc k x).poisonUsed = s.poisonUsed ∧ (s.setFunc k x).storeReqs = s.storeReqs ∧
    (s.setFunc k x).chans = s.chans ∧ (s.setFunc k x).rowTabs = s.rowTabs ∧ (s.setFunc k x).rowWindow = s.rowWindow ∧
    (s.setFunc k x).neighbours = s.neighbours ∧ (s.setFunc k x).ranks = s.ranks ∧ (s.setFunc k x).homes = s.homes ∧
    (s.setFunc k x).mig = s.mig ∧ (s.setFunc k x).frozen = s.frozen ∧ (s.setFunc k x).calibrated = s.calibrated ∧
    (s.setFunc k x).speedChange = s.speedChange ∧ (s.setFunc k x).staging = s.staging ∧ (s.setFunc k x).ports = s.ports ∧
    (s.setFunc k x).subsys = s.subsys ∧ (s.setFunc k x).sessions = s.sessions ∧
    (s.setFunc k x).sessionCount = s.sessionCount ∧ (s.setFunc k x).net = s.net ∧ (s.setFunc k x).timing = s.timing ∧
    (s.setFunc k x).flash = s.flash ∧ (s.setFunc k x).journal = s.journal ∧ (s.setFunc k x).fw = s.fw ∧
    (s.setFunc k x).health = s.health ∧ (s.setFunc k x).testing = s.testing := by
  cases s; simp only [State.setFunc, and_self]

@[simp] theorem State.setSession_frame (s : State) (k : Nat) (x : Option Session) :
    (s.setSession k x).pending = s.pending ∧ (s.setSession k x).elems = s.elems ∧ (s.setSession k x).shadow = s.shadow ∧
    (s.setSession k x).cc = s.cc ∧ (s.setSession k x).fresh = s.fresh ∧ (s.setSession k x).clock = s.clock ∧
    (s.setSession k x).mtime = s.mtime ∧ (s.setSession k x).tmbOn = s.tmbOn ∧ (s.setSession k x).slew = s.slew ∧
    (s.setSession k x).slewFrac = s.slewFrac ∧ (s.setSession k x).steppedAt = s.steppedAt ∧ (s.setSession k x).mode = s.mode ∧
    (s.setSession k x).everIdle = s.everIdle ∧ (s.setSession k x).warmPass = s.warmPass ∧
    (s.setSession k x).svcDown = s.svcDown ∧ (s.setSession k x).quiesceSince = s.quiesceSince ∧
    (s.setSession k x).idleSince = s.idleSince ∧ (s.setSession k x).out = s.out ∧ (s.setSession k x).lanes = s.lanes ∧
    (s.setSession k x).leftParts = s.leftParts ∧ (s.setSession k x).slots = s.slots ∧ (s.setSession k x).lastRow = s.lastRow ∧
    (s.setSession k x).tileTurn = s.tileTurn ∧ (s.setSession k x).tileTest = s.tileTest ∧
    (s.setSession k x).cuPrev = s.cuPrev ∧ (s.setSession k x).seqs = s.seqs ∧ (s.setSession k x).xs = s.xs ∧
    (s.setSession k x).pins = s.pins ∧ (s.setSession k x).benches = s.benches ∧ (s.setSession k x).nextReq = s.nextReq ∧
    (s.setSession k x).streams = s.streams ∧ (s.setSession k x).dirs = s.dirs ∧ (s.setSession k x).ingotOwner = s.ingotOwner ∧
    (s.setSession k x).engines = s.engines ∧ (s.setSession k x).locks = s.locks ∧ (s.setSession k x).latched = s.latched ∧
    (s.setSession k x).heldHalf = s.heldHalf ∧ (s.setSession k x).propReserved = s.propReserved ∧
    (s.setSession k x).lines = s.lines ∧ (s.setSession k x).packets = s.packets ∧ (s.setSession k x).nextPkt = s.nextPkt ∧
    (s.setSession k x).bankUsed = s.bankUsed ∧ (s.setSession k x).fencedBanks = s.fencedBanks ∧
    (s.setSession k x).movedGroup = s.movedGroup ∧ (s.setSession k x).rotor = s.rotor ∧
    (s.setSession k x).granted = s.granted ∧ (s.setSession k x).held = s.held ∧ (s.setSession k x).queues = s.queues ∧
    (s.setSession k x).queueGen = s.queueGen ∧ (s.setSession k x).mem = s.mem ∧ (s.setSession k x).poison = s.poison ∧
    (s.setSession k x).poisonUsed = s.poisonUsed ∧ (s.setSession k x).storeReqs = s.storeReqs ∧
    (s.setSession k x).chans = s.chans ∧ (s.setSession k x).rowTabs = s.rowTabs ∧ (s.setSession k x).rowWindow = s.rowWindow ∧
    (s.setSession k x).neighbours = s.neighbours ∧ (s.setSession k x).ranks = s.ranks ∧ (s.setSession k x).homes = s.homes ∧
    (s.setSession k x).mig = s.mig ∧ (s.setSession k x).frozen = s.frozen ∧ (s.setSession k x).calibrated = s.calibrated ∧
    (s.setSession k x).speedChange = s.speedChange ∧ (s.setSession k x).staging = s.staging ∧
    (s.setSession k x).ports = s.ports ∧ (s.setSession k x).funcs = s.funcs ∧ (s.setSession k x).subsys = s.subsys ∧
    (s.setSession k x).sessionCount = s.sessionCount ∧ (s.setSession k x).net = s.net ∧ (s.setSession k x).timing = s.timing ∧
    (s.setSession k x).flash = s.flash ∧ (s.setSession k x).journal = s.journal ∧ (s.setSession k x).fw = s.fw ∧
    (s.setSession k x).health = s.health ∧ (s.setSession k x).testing = s.testing := by
  cases s; simp only [State.setSession, and_self]

@[simp] theorem State.setNetCfg_frame (s : State) (k : Nat) (x : NetCfg) :
    (s.setNetCfg k x).pending = s.pending ∧ (s.setNetCfg k x).elems = s.elems ∧ (s.setNetCfg k x).shadow = s.shadow ∧
    (s.setNetCfg k x).cc = s.cc ∧ (s.setNetCfg k x).fresh = s.fresh ∧ (s.setNetCfg k x).clock = s.clock ∧
    (s.setNetCfg k x).mtime = s.mtime ∧ (s.setNetCfg k x).tmbOn = s.tmbOn ∧ (s.setNetCfg k x).slew = s.slew ∧
    (s.setNetCfg k x).slewFrac = s.slewFrac ∧ (s.setNetCfg k x).steppedAt = s.steppedAt ∧ (s.setNetCfg k x).mode = s.mode ∧
    (s.setNetCfg k x).everIdle = s.everIdle ∧ (s.setNetCfg k x).warmPass = s.warmPass ∧
    (s.setNetCfg k x).svcDown = s.svcDown ∧ (s.setNetCfg k x).quiesceSince = s.quiesceSince ∧
    (s.setNetCfg k x).idleSince = s.idleSince ∧ (s.setNetCfg k x).out = s.out ∧ (s.setNetCfg k x).lanes = s.lanes ∧
    (s.setNetCfg k x).leftParts = s.leftParts ∧ (s.setNetCfg k x).slots = s.slots ∧ (s.setNetCfg k x).lastRow = s.lastRow ∧
    (s.setNetCfg k x).tileTurn = s.tileTurn ∧ (s.setNetCfg k x).tileTest = s.tileTest ∧ (s.setNetCfg k x).cuPrev = s.cuPrev ∧
    (s.setNetCfg k x).seqs = s.seqs ∧ (s.setNetCfg k x).xs = s.xs ∧ (s.setNetCfg k x).pins = s.pins ∧
    (s.setNetCfg k x).benches = s.benches ∧ (s.setNetCfg k x).nextReq = s.nextReq ∧ (s.setNetCfg k x).streams = s.streams ∧
    (s.setNetCfg k x).dirs = s.dirs ∧ (s.setNetCfg k x).ingotOwner = s.ingotOwner ∧ (s.setNetCfg k x).engines = s.engines ∧
    (s.setNetCfg k x).locks = s.locks ∧ (s.setNetCfg k x).latched = s.latched ∧ (s.setNetCfg k x).heldHalf = s.heldHalf ∧
    (s.setNetCfg k x).propReserved = s.propReserved ∧ (s.setNetCfg k x).lines = s.lines ∧
    (s.setNetCfg k x).packets = s.packets ∧ (s.setNetCfg k x).nextPkt = s.nextPkt ∧ (s.setNetCfg k x).bankUsed = s.bankUsed ∧
    (s.setNetCfg k x).fencedBanks = s.fencedBanks ∧ (s.setNetCfg k x).movedGroup = s.movedGroup ∧
    (s.setNetCfg k x).rotor = s.rotor ∧ (s.setNetCfg k x).granted = s.granted ∧ (s.setNetCfg k x).held = s.held ∧
    (s.setNetCfg k x).queues = s.queues ∧ (s.setNetCfg k x).queueGen = s.queueGen ∧ (s.setNetCfg k x).mem = s.mem ∧
    (s.setNetCfg k x).poison = s.poison ∧ (s.setNetCfg k x).poisonUsed = s.poisonUsed ∧
    (s.setNetCfg k x).storeReqs = s.storeReqs ∧ (s.setNetCfg k x).chans = s.chans ∧ (s.setNetCfg k x).rowTabs = s.rowTabs ∧
    (s.setNetCfg k x).rowWindow = s.rowWindow ∧ (s.setNetCfg k x).neighbours = s.neighbours ∧
    (s.setNetCfg k x).ranks = s.ranks ∧ (s.setNetCfg k x).homes = s.homes ∧ (s.setNetCfg k x).mig = s.mig ∧
    (s.setNetCfg k x).frozen = s.frozen ∧ (s.setNetCfg k x).calibrated = s.calibrated ∧
    (s.setNetCfg k x).speedChange = s.speedChange ∧ (s.setNetCfg k x).staging = s.staging ∧
    (s.setNetCfg k x).ports = s.ports ∧ (s.setNetCfg k x).funcs = s.funcs ∧ (s.setNetCfg k x).subsys = s.subsys ∧
    (s.setNetCfg k x).sessions = s.sessions ∧ (s.setNetCfg k x).sessionCount = s.sessionCount ∧
    (s.setNetCfg k x).timing = s.timing ∧ (s.setNetCfg k x).flash = s.flash ∧ (s.setNetCfg k x).journal = s.journal ∧
    (s.setNetCfg k x).fw = s.fw ∧ (s.setNetCfg k x).health = s.health ∧ (s.setNetCfg k x).testing = s.testing := by
  cases s; simp only [State.setNetCfg, and_self]

@[simp] theorem State.setRef_frame (s : State) (k : Nat) (x : Ref) :
    (s.setRef k x).pending = s.pending ∧ (s.setRef k x).elems = s.elems ∧ (s.setRef k x).shadow = s.shadow ∧
    (s.setRef k x).cc = s.cc ∧ (s.setRef k x).fresh = s.fresh ∧ (s.setRef k x).clock = s.clock ∧
    (s.setRef k x).mtime = s.mtime ∧ (s.setRef k x).tmbOn = s.tmbOn ∧ (s.setRef k x).slew = s.slew ∧
    (s.setRef k x).slewFrac = s.slewFrac ∧ (s.setRef k x).steppedAt = s.steppedAt ∧ (s.setRef k x).mode = s.mode ∧
    (s.setRef k x).everIdle = s.everIdle ∧ (s.setRef k x).warmPass = s.warmPass ∧ (s.setRef k x).svcDown = s.svcDown ∧
    (s.setRef k x).quiesceSince = s.quiesceSince ∧ (s.setRef k x).idleSince = s.idleSince ∧ (s.setRef k x).out = s.out ∧
    (s.setRef k x).lanes = s.lanes ∧ (s.setRef k x).leftParts = s.leftParts ∧ (s.setRef k x).slots = s.slots ∧
    (s.setRef k x).lastRow = s.lastRow ∧ (s.setRef k x).tileTurn = s.tileTurn ∧ (s.setRef k x).tileTest = s.tileTest ∧
    (s.setRef k x).cuPrev = s.cuPrev ∧ (s.setRef k x).seqs = s.seqs ∧ (s.setRef k x).xs = s.xs ∧
    (s.setRef k x).pins = s.pins ∧ (s.setRef k x).benches = s.benches ∧ (s.setRef k x).nextReq = s.nextReq ∧
    (s.setRef k x).streams = s.streams ∧ (s.setRef k x).dirs = s.dirs ∧ (s.setRef k x).ingotOwner = s.ingotOwner ∧
    (s.setRef k x).engines = s.engines ∧ (s.setRef k x).locks = s.locks ∧ (s.setRef k x).latched = s.latched ∧
    (s.setRef k x).heldHalf = s.heldHalf ∧ (s.setRef k x).propReserved = s.propReserved ∧ (s.setRef k x).lines = s.lines ∧
    (s.setRef k x).packets = s.packets ∧ (s.setRef k x).nextPkt = s.nextPkt ∧ (s.setRef k x).bankUsed = s.bankUsed ∧
    (s.setRef k x).fencedBanks = s.fencedBanks ∧ (s.setRef k x).movedGroup = s.movedGroup ∧ (s.setRef k x).rotor = s.rotor ∧
    (s.setRef k x).granted = s.granted ∧ (s.setRef k x).held = s.held ∧ (s.setRef k x).queues = s.queues ∧
    (s.setRef k x).queueGen = s.queueGen ∧ (s.setRef k x).mem = s.mem ∧ (s.setRef k x).poison = s.poison ∧
    (s.setRef k x).poisonUsed = s.poisonUsed ∧ (s.setRef k x).storeReqs = s.storeReqs ∧ (s.setRef k x).chans = s.chans ∧
    (s.setRef k x).rowTabs = s.rowTabs ∧ (s.setRef k x).rowWindow = s.rowWindow ∧ (s.setRef k x).neighbours = s.neighbours ∧
    (s.setRef k x).ranks = s.ranks ∧ (s.setRef k x).homes = s.homes ∧ (s.setRef k x).mig = s.mig ∧
    (s.setRef k x).frozen = s.frozen ∧ (s.setRef k x).calibrated = s.calibrated ∧ (s.setRef k x).speedChange = s.speedChange ∧
    (s.setRef k x).staging = s.staging ∧ (s.setRef k x).ports = s.ports ∧ (s.setRef k x).funcs = s.funcs ∧
    (s.setRef k x).subsys = s.subsys ∧ (s.setRef k x).sessions = s.sessions ∧ (s.setRef k x).sessionCount = s.sessionCount ∧
    (s.setRef k x).net = s.net ∧ (s.setRef k x).flash = s.flash ∧ (s.setRef k x).journal = s.journal ∧
    (s.setRef k x).fw = s.fw ∧ (s.setRef k x).health = s.health ∧ (s.setRef k x).testing = s.testing := by
  cases s; simp only [State.setRef, and_self]

@[simp] theorem State.writeBytes_frame (s : State) (a : Nat) (bs : List Byte) :
    (s.writeBytes a bs).pending = s.pending ∧ (s.writeBytes a bs).elems = s.elems ∧ (s.writeBytes a bs).shadow = s.shadow ∧
    (s.writeBytes a bs).cc = s.cc ∧ (s.writeBytes a bs).fresh = s.fresh ∧ (s.writeBytes a bs).clock = s.clock ∧
    (s.writeBytes a bs).mtime = s.mtime ∧ (s.writeBytes a bs).tmbOn = s.tmbOn ∧ (s.writeBytes a bs).slew = s.slew ∧
    (s.writeBytes a bs).slewFrac = s.slewFrac ∧ (s.writeBytes a bs).steppedAt = s.steppedAt ∧
    (s.writeBytes a bs).mode = s.mode ∧ (s.writeBytes a bs).everIdle = s.everIdle ∧
    (s.writeBytes a bs).warmPass = s.warmPass ∧ (s.writeBytes a bs).svcDown = s.svcDown ∧
    (s.writeBytes a bs).quiesceSince = s.quiesceSince ∧ (s.writeBytes a bs).idleSince = s.idleSince ∧
    (s.writeBytes a bs).out = s.out ∧ (s.writeBytes a bs).lanes = s.lanes ∧ (s.writeBytes a bs).leftParts = s.leftParts ∧
    (s.writeBytes a bs).slots = s.slots ∧ (s.writeBytes a bs).lastRow = s.lastRow ∧
    (s.writeBytes a bs).tileTurn = s.tileTurn ∧ (s.writeBytes a bs).tileTest = s.tileTest ∧
    (s.writeBytes a bs).cuPrev = s.cuPrev ∧ (s.writeBytes a bs).seqs = s.seqs ∧ (s.writeBytes a bs).xs = s.xs ∧
    (s.writeBytes a bs).pins = s.pins ∧ (s.writeBytes a bs).benches = s.benches ∧ (s.writeBytes a bs).nextReq = s.nextReq ∧
    (s.writeBytes a bs).streams = s.streams ∧ (s.writeBytes a bs).dirs = s.dirs ∧
    (s.writeBytes a bs).ingotOwner = s.ingotOwner ∧ (s.writeBytes a bs).engines = s.engines ∧
    (s.writeBytes a bs).locks = s.locks ∧ (s.writeBytes a bs).latched = s.latched ∧
    (s.writeBytes a bs).heldHalf = s.heldHalf ∧ (s.writeBytes a bs).propReserved = s.propReserved ∧
    (s.writeBytes a bs).lines = s.lines ∧ (s.writeBytes a bs).packets = s.packets ∧ (s.writeBytes a bs).nextPkt = s.nextPkt ∧
    (s.writeBytes a bs).bankUsed = s.bankUsed ∧ (s.writeBytes a bs).fencedBanks = s.fencedBanks ∧
    (s.writeBytes a bs).movedGroup = s.movedGroup ∧ (s.writeBytes a bs).rotor = s.rotor ∧
    (s.writeBytes a bs).granted = s.granted ∧ (s.writeBytes a bs).held = s.held ∧ (s.writeBytes a bs).queues = s.queues ∧
    (s.writeBytes a bs).queueGen = s.queueGen ∧ (s.writeBytes a bs).poison = s.poison ∧
    (s.writeBytes a bs).poisonUsed = s.poisonUsed ∧ (s.writeBytes a bs).storeReqs = s.storeReqs ∧
    (s.writeBytes a bs).chans = s.chans ∧ (s.writeBytes a bs).rowTabs = s.rowTabs ∧
    (s.writeBytes a bs).rowWindow = s.rowWindow ∧ (s.writeBytes a bs).neighbours = s.neighbours ∧
    (s.writeBytes a bs).ranks = s.ranks ∧ (s.writeBytes a bs).homes = s.homes ∧ (s.writeBytes a bs).mig = s.mig ∧
    (s.writeBytes a bs).frozen = s.frozen ∧ (s.writeBytes a bs).calibrated = s.calibrated ∧
    (s.writeBytes a bs).speedChange = s.speedChange ∧ (s.writeBytes a bs).staging = s.staging ∧
    (s.writeBytes a bs).ports = s.ports ∧ (s.writeBytes a bs).funcs = s.funcs ∧ (s.writeBytes a bs).subsys = s.subsys ∧
    (s.writeBytes a bs).sessions = s.sessions ∧ (s.writeBytes a bs).sessionCount = s.sessionCount ∧
    (s.writeBytes a bs).net = s.net ∧ (s.writeBytes a bs).timing = s.timing ∧ (s.writeBytes a bs).flash = s.flash ∧
    (s.writeBytes a bs).journal = s.journal ∧ (s.writeBytes a bs).fw = s.fw ∧ (s.writeBytes a bs).health = s.health ∧
    (s.writeBytes a bs).testing = s.testing := by
  cases s; simp only [State.writeBytes, and_self]

@[simp] theorem State.setPoison_frame (s : State) (ingot cell : Nat) (v : Bool) :
    (s.setPoison ingot cell v).pending = s.pending ∧ (s.setPoison ingot cell v).elems = s.elems ∧
    (s.setPoison ingot cell v).shadow = s.shadow ∧ (s.setPoison ingot cell v).cc = s.cc ∧
    (s.setPoison ingot cell v).fresh = s.fresh ∧ (s.setPoison ingot cell v).clock = s.clock ∧
    (s.setPoison ingot cell v).mtime = s.mtime ∧ (s.setPoison ingot cell v).tmbOn = s.tmbOn ∧
    (s.setPoison ingot cell v).slew = s.slew ∧ (s.setPoison ingot cell v).slewFrac = s.slewFrac ∧
    (s.setPoison ingot cell v).steppedAt = s.steppedAt ∧ (s.setPoison ingot cell v).mode = s.mode ∧
    (s.setPoison ingot cell v).everIdle = s.everIdle ∧ (s.setPoison ingot cell v).warmPass = s.warmPass ∧
    (s.setPoison ingot cell v).svcDown = s.svcDown ∧ (s.setPoison ingot cell v).quiesceSince = s.quiesceSince ∧
    (s.setPoison ingot cell v).idleSince = s.idleSince ∧ (s.setPoison ingot cell v).out = s.out ∧
    (s.setPoison ingot cell v).lanes = s.lanes ∧ (s.setPoison ingot cell v).leftParts = s.leftParts ∧
    (s.setPoison ingot cell v).slots = s.slots ∧ (s.setPoison ingot cell v).lastRow = s.lastRow ∧
    (s.setPoison ingot cell v).tileTurn = s.tileTurn ∧ (s.setPoison ingot cell v).tileTest = s.tileTest ∧
    (s.setPoison ingot cell v).cuPrev = s.cuPrev ∧ (s.setPoison ingot cell v).seqs = s.seqs ∧
    (s.setPoison ingot cell v).xs = s.xs ∧ (s.setPoison ingot cell v).pins = s.pins ∧
    (s.setPoison ingot cell v).benches = s.benches ∧ (s.setPoison ingot cell v).nextReq = s.nextReq ∧
    (s.setPoison ingot cell v).streams = s.streams ∧ (s.setPoison ingot cell v).dirs = s.dirs ∧
    (s.setPoison ingot cell v).ingotOwner = s.ingotOwner ∧ (s.setPoison ingot cell v).engines = s.engines ∧
    (s.setPoison ingot cell v).locks = s.locks ∧ (s.setPoison ingot cell v).latched = s.latched ∧
    (s.setPoison ingot cell v).heldHalf = s.heldHalf ∧ (s.setPoison ingot cell v).propReserved = s.propReserved ∧
    (s.setPoison ingot cell v).lines = s.lines ∧ (s.setPoison ingot cell v).packets = s.packets ∧
    (s.setPoison ingot cell v).nextPkt = s.nextPkt ∧ (s.setPoison ingot cell v).bankUsed = s.bankUsed ∧
    (s.setPoison ingot cell v).fencedBanks = s.fencedBanks ∧ (s.setPoison ingot cell v).movedGroup = s.movedGroup ∧
    (s.setPoison ingot cell v).rotor = s.rotor ∧ (s.setPoison ingot cell v).granted = s.granted ∧
    (s.setPoison ingot cell v).held = s.held ∧ (s.setPoison ingot cell v).queues = s.queues ∧
    (s.setPoison ingot cell v).queueGen = s.queueGen ∧ (s.setPoison ingot cell v).mem = s.mem ∧
    (s.setPoison ingot cell v).poisonUsed = s.poisonUsed ∧ (s.setPoison ingot cell v).storeReqs = s.storeReqs ∧
    (s.setPoison ingot cell v).chans = s.chans ∧ (s.setPoison ingot cell v).rowTabs = s.rowTabs ∧
    (s.setPoison ingot cell v).rowWindow = s.rowWindow ∧ (s.setPoison ingot cell v).neighbours = s.neighbours ∧
    (s.setPoison ingot cell v).ranks = s.ranks ∧ (s.setPoison ingot cell v).homes = s.homes ∧
    (s.setPoison ingot cell v).mig = s.mig ∧ (s.setPoison ingot cell v).frozen = s.frozen ∧
    (s.setPoison ingot cell v).calibrated = s.calibrated ∧ (s.setPoison ingot cell v).speedChange = s.speedChange ∧
    (s.setPoison ingot cell v).staging = s.staging ∧ (s.setPoison ingot cell v).ports = s.ports ∧
    (s.setPoison ingot cell v).funcs = s.funcs ∧ (s.setPoison ingot cell v).subsys = s.subsys ∧
    (s.setPoison ingot cell v).sessions = s.sessions ∧ (s.setPoison ingot cell v).sessionCount = s.sessionCount ∧
    (s.setPoison ingot cell v).net = s.net ∧ (s.setPoison ingot cell v).timing = s.timing ∧
    (s.setPoison ingot cell v).flash = s.flash ∧ (s.setPoison ingot cell v).journal = s.journal ∧
    (s.setPoison ingot cell v).fw = s.fw ∧ (s.setPoison ingot cell v).health = s.health ∧
    (s.setPoison ingot cell v).testing = s.testing := by
  cases s; simp only [State.setPoison, and_self]

@[simp] theorem State.setHolder_frame (s : State) (ingot v : Nat) :
    (s.setHolder ingot v).pending = s.pending ∧ (s.setHolder ingot v).elems = s.elems ∧
    (s.setHolder ingot v).shadow = s.shadow ∧ (s.setHolder ingot v).cc = s.cc ∧ (s.setHolder ingot v).fresh = s.fresh ∧
    (s.setHolder ingot v).clock = s.clock ∧ (s.setHolder ingot v).mtime = s.mtime ∧ (s.setHolder ingot v).tmbOn = s.tmbOn ∧
    (s.setHolder ingot v).slew = s.slew ∧ (s.setHolder ingot v).slewFrac = s.slewFrac ∧
    (s.setHolder ingot v).steppedAt = s.steppedAt ∧ (s.setHolder ingot v).mode = s.mode ∧
    (s.setHolder ingot v).everIdle = s.everIdle ∧ (s.setHolder ingot v).warmPass = s.warmPass ∧
    (s.setHolder ingot v).svcDown = s.svcDown ∧ (s.setHolder ingot v).quiesceSince = s.quiesceSince ∧
    (s.setHolder ingot v).idleSince = s.idleSince ∧ (s.setHolder ingot v).out = s.out ∧
    (s.setHolder ingot v).lanes = s.lanes ∧ (s.setHolder ingot v).leftParts = s.leftParts ∧
    (s.setHolder ingot v).slots = s.slots ∧ (s.setHolder ingot v).lastRow = s.lastRow ∧
    (s.setHolder ingot v).tileTurn = s.tileTurn ∧ (s.setHolder ingot v).tileTest = s.tileTest ∧
    (s.setHolder ingot v).cuPrev = s.cuPrev ∧ (s.setHolder ingot v).seqs = s.seqs ∧ (s.setHolder ingot v).xs = s.xs ∧
    (s.setHolder ingot v).pins = s.pins ∧ (s.setHolder ingot v).benches = s.benches ∧
    (s.setHolder ingot v).nextReq = s.nextReq ∧ (s.setHolder ingot v).streams = s.streams ∧
    (s.setHolder ingot v).dirs = s.dirs ∧ (s.setHolder ingot v).engines = s.engines ∧ (s.setHolder ingot v).locks = s.locks ∧
    (s.setHolder ingot v).latched = s.latched ∧ (s.setHolder ingot v).heldHalf = s.heldHalf ∧
    (s.setHolder ingot v).propReserved = s.propReserved ∧ (s.setHolder ingot v).lines = s.lines ∧
    (s.setHolder ingot v).packets = s.packets ∧ (s.setHolder ingot v).nextPkt = s.nextPkt ∧
    (s.setHolder ingot v).bankUsed = s.bankUsed ∧ (s.setHolder ingot v).fencedBanks = s.fencedBanks ∧
    (s.setHolder ingot v).movedGroup = s.movedGroup ∧ (s.setHolder ingot v).rotor = s.rotor ∧
    (s.setHolder ingot v).granted = s.granted ∧ (s.setHolder ingot v).held = s.held ∧
    (s.setHolder ingot v).queues = s.queues ∧ (s.setHolder ingot v).queueGen = s.queueGen ∧
    (s.setHolder ingot v).mem = s.mem ∧ (s.setHolder ingot v).poison = s.poison ∧
    (s.setHolder ingot v).poisonUsed = s.poisonUsed ∧ (s.setHolder ingot v).storeReqs = s.storeReqs ∧
    (s.setHolder ingot v).chans = s.chans ∧ (s.setHolder ingot v).rowTabs = s.rowTabs ∧
    (s.setHolder ingot v).rowWindow = s.rowWindow ∧ (s.setHolder ingot v).neighbours = s.neighbours ∧
    (s.setHolder ingot v).ranks = s.ranks ∧ (s.setHolder ingot v).homes = s.homes ∧ (s.setHolder ingot v).mig = s.mig ∧
    (s.setHolder ingot v).frozen = s.frozen ∧ (s.setHolder ingot v).calibrated = s.calibrated ∧
    (s.setHolder ingot v).speedChange = s.speedChange ∧ (s.setHolder ingot v).staging = s.staging ∧
    (s.setHolder ingot v).ports = s.ports ∧ (s.setHolder ingot v).funcs = s.funcs ∧ (s.setHolder ingot v).subsys = s.subsys ∧
    (s.setHolder ingot v).sessions = s.sessions ∧ (s.setHolder ingot v).sessionCount = s.sessionCount ∧
    (s.setHolder ingot v).net = s.net ∧ (s.setHolder ingot v).timing = s.timing ∧ (s.setHolder ingot v).flash = s.flash ∧
    (s.setHolder ingot v).journal = s.journal ∧ (s.setHolder ingot v).fw = s.fw ∧ (s.setHolder ingot v).health = s.health ∧
    (s.setHolder ingot v).testing = s.testing := by
  cases s; simp only [State.setHolder, and_self]

@[simp] theorem State.bump_el (s : State) (o : ObjInfo) (e : Nat) (p : ObjInfo) (j : Nat) : (s.bump o e).el p j = s.el p j := by
  simp only [State.el, State.bump_frame]

@[simp] theorem State.drawn_el (s : State) (p : ObjInfo) (j : Nat) : (s.drawn).el p j = s.el p j := by
  simp only [State.el, State.drawn_frame]

@[simp] theorem State.send_el (s : State) (m : Out) (p : ObjInfo) (j : Nat) : (s.send m).el p j = s.el p j := by
  simp only [State.el, State.send_frame]

@[simp] theorem State.setLane_el (s : State) (k : Nat) (x : Lane) (p : ObjInfo) (j : Nat) : (s.setLane k x).el p j = s.el p j := by
  simp only [State.el, State.setLane_frame]

@[simp] theorem State.setBench_el (s : State) (k : Nat) (x : Bench) (p : ObjInfo) (j : Nat) : (s.setBench k x).el p j = s.el p j := by
  simp only [State.el, State.setBench_frame]

@[simp] theorem State.setSeqx_el (s : State) (k : Nat) (x : SeqX) (p : ObjInfo) (j : Nat) : (s.setSeqx k x).el p j = s.el p j := by
  simp only [State.el, State.setSeqx_frame]

@[simp] theorem State.setPin_el (s : State) (k : Nat) (x : Pin) (p : ObjInfo) (j : Nat) : (s.setPin k x).el p j = s.el p j := by
  simp only [State.el, State.setPin_frame]

@[simp] theorem State.setStream_el (s : State) (k : Nat) (x : Stream) (p : ObjInfo) (j : Nat) : (s.setStream k x).el p j = s.el p j := by
  simp only [State.el, State.setStream_frame]

@[simp] theorem State.setDir_el (s : State) (k : Nat) (x : List DirEntry) (p : ObjInfo) (j : Nat) : (s.setDir k x).el p j = s.el p j := by
  simp only [State.el, State.setDir_frame]

@[simp] theorem State.setEngine_el (s : State) (k : Nat) (x : Engine) (p : ObjInfo) (j : Nat) : (s.setEngine k x).el p j = s.el p j := by
  simp only [State.el, State.setEngine_frame]

@[simp] theorem State.setLock_el (s : State) (k : Nat) (x : Lock) (p : ObjInfo) (j : Nat) : (s.setLock k x).el p j = s.el p j := by
  simp only [State.el, State.setLock_frame]

@[simp] theorem State.setLine_el (s : State) (k : Nat) (x : Line) (p : ObjInfo) (j : Nat) : (s.setLine k x).el p j = s.el p j := by
  simp only [State.el, State.setLine_frame]

@[simp] theorem State.setPacket_el (s : State) (k : Nat) (x : Packet) (p : ObjInfo) (j : Nat) : (s.setPacket k x).el p j = s.el p j := by
  simp only [State.el, State.setPacket_frame]

@[simp] theorem State.setQueue_el (s : State) (k : Nat) (x : Queue) (p : ObjInfo) (j : Nat) : (s.setQueue k x).el p j = s.el p j := by
  simp only [State.el, State.setQueue_frame]

@[simp] theorem State.setChan_el (s : State) (k : Nat) (x : Chan) (p : ObjInfo) (j : Nat) : (s.setChan k x).el p j = s.el p j := by
  simp only [State.el, State.setChan_frame]

@[simp] theorem State.setRank_el (s : State) (k : Nat) (x : Rank) (p : ObjInfo) (j : Nat) : (s.setRank k x).el p j = s.el p j := by
  simp only [State.el, State.setRank_frame]

@[simp] theorem State.setStage_el (s : State) (k : Nat) (x : Option Staging) (p : ObjInfo) (j : Nat) : (s.setStage k x).el p j = s.el p j := by
  simp only [State.el, State.setStage_frame]

@[simp] theorem State.setPort_el (s : State) (k : Nat) (x : Port) (p : ObjInfo) (j : Nat) : (s.setPort k x).el p j = s.el p j := by
  simp only [State.el, State.setPort_frame]

@[simp] theorem State.setFunc_el (s : State) (k : Nat) (x : Func) (p : ObjInfo) (j : Nat) : (s.setFunc k x).el p j = s.el p j := by
  simp only [State.el, State.setFunc_frame]

@[simp] theorem State.setSession_el (s : State) (k : Nat) (x : Option Session) (p : ObjInfo) (j : Nat) : (s.setSession k x).el p j = s.el p j := by
  simp only [State.el, State.setSession_frame]

@[simp] theorem State.setNetCfg_el (s : State) (k : Nat) (x : NetCfg) (p : ObjInfo) (j : Nat) : (s.setNetCfg k x).el p j = s.el p j := by
  simp only [State.el, State.setNetCfg_frame]

@[simp] theorem State.setRef_el (s : State) (k : Nat) (x : Ref) (p : ObjInfo) (j : Nat) : (s.setRef k x).el p j = s.el p j := by
  simp only [State.el, State.setRef_frame]

@[simp] theorem State.writeBytes_el (s : State) (a : Nat) (bs : List Byte) (p : ObjInfo) (j : Nat) : (s.writeBytes a bs).el p j = s.el p j := by
  simp only [State.el, State.writeBytes_frame]

@[simp] theorem State.setPoison_el (s : State) (ingot cell : Nat) (v : Bool) (p : ObjInfo) (j : Nat) : (s.setPoison ingot cell v).el p j = s.el p j := by
  simp only [State.el, State.setPoison_frame]

@[simp] theorem State.setHolder_el (s : State) (ingot v : Nat) (p : ObjInfo) (j : Nat) : (s.setHolder ingot v).el p j = s.el p j := by
  simp only [State.el, State.setHolder_frame]

@[simp] theorem State.setLane_lane (s : State) (k : Nat) (x : Lane) : (s.setLane k x).lane k = x := Tab.get_set_self _ _ _ _

theorem State.setLane_lane_ne (s : State) (k j : Nat) (x : Lane) (h : j ≠ k) : (s.setLane k x).lane j = s.lane j := Tab.get_set_ne _ _ _ h

@[simp] theorem State.setBench_bench (s : State) (k : Nat) (x : Bench) : (s.setBench k x).bench k = x := Tab.get_set_self _ _ _ _

theorem State.setBench_bench_ne (s : State) (k j : Nat) (x : Bench) (h : j ≠ k) : (s.setBench k x).bench j = s.bench j := Tab.get_set_ne _ _ _ h

@[simp] theorem State.setSeqx_seqx (s : State) (k : Nat) (x : SeqX) : (s.setSeqx k x).seqx k = x := Tab.get_set_self _ _ _ _

theorem State.setSeqx_seqx_ne (s : State) (k j : Nat) (x : SeqX) (h : j ≠ k) : (s.setSeqx k x).seqx j = s.seqx j := Tab.get_set_ne _ _ _ h

@[simp] theorem State.setPin_pin (s : State) (k : Nat) (x : Pin) : (s.setPin k x).pin k = x := Tab.get_set_self _ _ _ _

theorem State.setPin_pin_ne (s : State) (k j : Nat) (x : Pin) (h : j ≠ k) : (s.setPin k x).pin j = s.pin j := Tab.get_set_ne _ _ _ h

@[simp] theorem State.setStream_stream (s : State) (k : Nat) (x : Stream) : (s.setStream k x).stream k = x := Tab.get_set_self _ _ _ _

theorem State.setStream_stream_ne (s : State) (k j : Nat) (x : Stream) (h : j ≠ k) : (s.setStream k x).stream j = s.stream j := Tab.get_set_ne _ _ _ h

@[simp] theorem State.setDir_dir (s : State) (k : Nat) (x : List DirEntry) : (s.setDir k x).dir k = x := Tab.get_set_self _ _ _ _

theorem State.setDir_dir_ne (s : State) (k j : Nat) (x : List DirEntry) (h : j ≠ k) : (s.setDir k x).dir j = s.dir j := Tab.get_set_ne _ _ _ h

@[simp] theorem State.setEngine_engine (s : State) (k : Nat) (x : Engine) : (s.setEngine k x).engine k = x := Tab.get_set_self _ _ _ _

theorem State.setEngine_engine_ne (s : State) (k j : Nat) (x : Engine) (h : j ≠ k) : (s.setEngine k x).engine j = s.engine j := Tab.get_set_ne _ _ _ h

@[simp] theorem State.setLock_lock (s : State) (k : Nat) (x : Lock) : (s.setLock k x).lock k = x := Tab.get_set_self _ _ _ _

theorem State.setLock_lock_ne (s : State) (k j : Nat) (x : Lock) (h : j ≠ k) : (s.setLock k x).lock j = s.lock j := Tab.get_set_ne _ _ _ h

@[simp] theorem State.setLine_line (s : State) (k : Nat) (x : Line) : (s.setLine k x).line k = x := Tab.get_set_self _ _ _ _

theorem State.setLine_line_ne (s : State) (k j : Nat) (x : Line) (h : j ≠ k) : (s.setLine k x).line j = s.line j := Tab.get_set_ne _ _ _ h

@[simp] theorem State.setPacket_packet (s : State) (k : Nat) (x : Packet) : (s.setPacket k x).packet k = x := Tab.get_set_self _ _ _ _

theorem State.setPacket_packet_ne (s : State) (k j : Nat) (x : Packet) (h : j ≠ k) : (s.setPacket k x).packet j = s.packet j := Tab.get_set_ne _ _ _ h

@[simp] theorem State.setQueue_queue (s : State) (k : Nat) (x : Queue) : (s.setQueue k x).queue k = x := Tab.get_set_self _ _ _ _

theorem State.setQueue_queue_ne (s : State) (k j : Nat) (x : Queue) (h : j ≠ k) : (s.setQueue k x).queue j = s.queue j := Tab.get_set_ne _ _ _ h

@[simp] theorem State.setChan_chan (s : State) (k : Nat) (x : Chan) : (s.setChan k x).chan k = x := Tab.get_set_self _ _ _ _

theorem State.setChan_chan_ne (s : State) (k j : Nat) (x : Chan) (h : j ≠ k) : (s.setChan k x).chan j = s.chan j := Tab.get_set_ne _ _ _ h

@[simp] theorem State.setRank_rank (s : State) (k : Nat) (x : Rank) : (s.setRank k x).rank k = x := Tab.get_set_self _ _ _ _

theorem State.setRank_rank_ne (s : State) (k j : Nat) (x : Rank) (h : j ≠ k) : (s.setRank k x).rank j = s.rank j := Tab.get_set_ne _ _ _ h

@[simp] theorem State.setStage_stage (s : State) (k : Nat) (x : Option Staging) : (s.setStage k x).stage k = x := Tab.get_set_self _ _ _ _

theorem State.setStage_stage_ne (s : State) (k j : Nat) (x : Option Staging) (h : j ≠ k) : (s.setStage k x).stage j = s.stage j := Tab.get_set_ne _ _ _ h

@[simp] theorem State.setPort_port (s : State) (k : Nat) (x : Port) : (s.setPort k x).port k = x := Tab.get_set_self _ _ _ _

theorem State.setPort_port_ne (s : State) (k j : Nat) (x : Port) (h : j ≠ k) : (s.setPort k x).port j = s.port j := Tab.get_set_ne _ _ _ h

@[simp] theorem State.setFunc_func (s : State) (k : Nat) (x : Func) : (s.setFunc k x).func k = x := Tab.get_set_self _ _ _ _

theorem State.setFunc_func_ne (s : State) (k j : Nat) (x : Func) (h : j ≠ k) : (s.setFunc k x).func j = s.func j := Tab.get_set_ne _ _ _ h

@[simp] theorem State.setSession_session (s : State) (k : Nat) (x : Option Session) : (s.setSession k x).session k = x := Tab.get_set_self _ _ _ _

theorem State.setSession_session_ne (s : State) (k j : Nat) (x : Option Session) (h : j ≠ k) : (s.setSession k x).session j = s.session j := Tab.get_set_ne _ _ _ h

@[simp] theorem State.setNetCfg_netCfg (s : State) (k : Nat) (x : NetCfg) : (s.setNetCfg k x).netCfg k = x := Tab.get_set_self _ _ _ _

theorem State.setNetCfg_netCfg_ne (s : State) (k j : Nat) (x : NetCfg) (h : j ≠ k) : (s.setNetCfg k x).netCfg j = s.netCfg j := Tab.get_set_ne _ _ _ h

@[simp] theorem State.setRef_ref (s : State) (k : Nat) (x : Ref) : (s.setRef k x).ref k = x := Tab.get_set_self _ _ _ _

theorem State.setRef_ref_ne (s : State) (k j : Nat) (x : Ref) (h : j ≠ k) : (s.setRef k x).ref j = s.ref j := Tab.get_set_ne _ _ _ h

/-! ## The dictionary's elements and change counters -/

@[simp] theorem State.put_el (s : State) (o : ObjInfo) (e : Nat) (v : W64) : (s.put o e v).el o e = v := Tab.get_set_self _ _ _ _

theorem State.put_el_ne (s : State) (o p : ObjInfo) (e j : Nat) (v : W64) (h : p.key j ≠ o.key e) : (s.put o e v).el p j = s.el p j :=
  Tab.get_set_ne _ _ _ h

@[simp] theorem State.setEl_el (s : State) (o : ObjInfo) (e : Nat) (v : W64) : (s.setEl o e v).el o e = v := Tab.get_set_self _ _ _ _

theorem State.setEl_el_ne (s : State) (o p : ObjInfo) (e j : Nat) (v : W64) (h : p.key j ≠ o.key e) :
    (s.setEl o e v).el p j = s.el p j :=
  Tab.get_set_ne _ _ _ h

@[simp] theorem State.bump_counter (s : State) (o : ObjInfo) (e : Nat) : (s.bump o e).counter o e = s.counter o e + 1#32 :=
  Tab.get_set_self _ _ _ _

theorem State.bump_counter_ne (s : State) (o p : ObjInfo) (e j : Nat) (h : p.ccKey j ≠ o.ccKey e) :
    (s.bump o e).counter p j = s.counter p j :=
  Tab.get_set_ne _ _ _ h

/-- A change by the module advances the change counter of its own object alone. -/
theorem State.setEl_counter_ne (s : State) (o p : ObjInfo) (e j : Nat) (v : W64) (h : p.ccKey j ≠ o.ccKey e) :
    (s.setEl o e v).counter p j = s.counter p j := by
  unfold State.setEl State.counter State.ccTouched
  dsimp only
  split
  · rfl
  · split
    · rfl
    · exact Tab.get_set_ne _ _ _ h

/-! ## Memory -/

/-- A write of bytes leaves every byte outside them alone. -/
theorem memWrite_other (m : List Host.Cell) (a : Nat) (bs : List Byte) (j : Nat) (h : j < a ∨ a + bs.length ≤ j) :
    Tab.get unwritten (memWrite m a bs) j = Tab.get unwritten m j := by
  induction bs generalizing m a with
  | nil => rfl
  | cons b t ih =>
    rw [List.length_cons] at h
    rw [memWrite, ih _ _ (by omega), Tab.get_set_ne _ _ _ (by omega)]

/-- A byte just written reads back. -/
theorem memWrite_byte (m : List Host.Cell) (a : Nat) (bs : List Byte) (i : Nat) (h : i < bs.length) :
    Tab.get unwritten (memWrite m a bs) (a + i) = bs[i] := by
  induction bs generalizing m a i with
  | nil => exact absurd h (Nat.not_lt_zero _)
  | cons b t ih =>
    cases i with
    | zero => rw [memWrite]; exact (memWrite_other _ (a + 1) _ _ (Or.inl (Nat.lt_succ_self a))).trans (Tab.get_set_self _ _ _ _)
    | succ i =>
      rw [memWrite, show a + (i + 1) = a + 1 + i by omega, ih _ _ _ (by simpa using h)]; rfl

theorem State.byteAt_writeBytes_other (s : State) (a : Nat) (bs : List Byte) (j : Nat) (h : j < a ∨ a + bs.length ≤ j) :
    (s.writeBytes a bs).byteAt j = s.byteAt j :=
  memWrite_other _ _ _ _ h

theorem State.byteAt_writeBytes (s : State) (a : Nat) (bs : List Byte) (i : Nat) (h : i < bs.length) :
    (s.writeBytes a bs).byteAt (a + i) = bs[i] :=
  memWrite_byte _ _ _ _ h

/-! ## Time -/

/-- Time never runs backwards. -/
theorem advance_clock (d : Nat) (s : State) : (advance d s).clock = s.clock + d := by cases s; rfl

theorem advanceTo_clock (t : Nat) (s : State) : (advanceTo t s).clock = max s.clock t := by
  rw [advanceTo, advance_clock]; omega

end Sys2Proof.Machine
end

