-- ==== Sys2Proof/Laws/Elements.lean ====
section
/-! SUPPORT. Elements and lanes after the operations most commands share: which keys differ, what a write of one element, a change of a
lane, the passing of time and a lane's change of state leave, and the frames of `sameElems`. -/

namespace Sys2Proof.Machine

/-! ## Keys -/

theorem ObjInfo.key_ne {o p : ObjInfo} {e f : Nat} (h : o.base ≠ p.base) (he : e < 2 ^ 28) (hf : f < 2 ^ 28) : o.key e ≠ p.key f := by
  unfold ObjInfo.key; omega

theorem ObjInfo.key_ne_elem {o : ObjInfo} {e f : Nat} (h : e ≠ f) : o.key e ≠ o.key f := by
  unfold ObjInfo.key; omega

/-! ## Elements by number -/

theorem State.setEl_elems (s : State) (o : ObjInfo) (e : Nat) (v : W64) : (s.setEl o e v).elems = Tab.set elemDefault s.elems (o.key e) v := by
  cases s; rfl
theorem State.setN_elems (s : State) (o : ObjInfo) (e n : Nat) :
    (s.setN o e n).elems = Tab.set elemDefault s.elems (o.key e) (BitVec.ofNat 64 n) := by
  cases s; rfl
theorem State.put_elems (s : State) (o : ObjInfo) (e : Nat) (v : W64) : (s.put o e v).elems = Tab.set elemDefault s.elems (o.key e) v := by
  cases s; rfl

@[simp] theorem State.setN_el (s : State) (o : ObjInfo) (e n : Nat) : (s.setN o e n).el o e = BitVec.ofNat 64 n := by simp [State.setN]

theorem State.setN_el_ne (s : State) (o p : ObjInfo) (e j n : Nat) (h : p.key j ≠ o.key e) : (s.setN o e n).el p j = s.el p j :=
  State.setEl_el_ne _ _ _ _ _ _ h

@[simp] theorem State.setN_lane (s : State) (o : ObjInfo) (e n l : Nat) : (s.setN o e n).lane l = s.lane l := by
  simp [State.setN, State.lane]
@[simp] theorem State.setN_clock (s : State) (o : ObjInfo) (e n : Nat) : (s.setN o e n).clock = s.clock := by simp [State.setN]
@[simp] theorem State.setN_out (s : State) (o : ObjInfo) (e n : Nat) : (s.setN o e n).out = s.out := by simp [State.setN]
@[simp] theorem State.setEl_lane (s : State) (o : ObjInfo) (e : Nat) (v : W64) (l : Nat) : (s.setEl o e v).lane l = s.lane l := by
  simp [State.lane]
@[simp] theorem State.put_lane (s : State) (o : ObjInfo) (e : Nat) (v : W64) (l : Nat) : (s.put o e v).lane l = s.lane l := by
  simp [State.lane]
@[simp] theorem State.inc_el (s : State) (o : ObjInfo) (e : Nat) : (s.inc o e).el o e = satAdd (s.el o e) 1 := by
  simp [State.inc, State.count]
theorem State.inc_el_ne (s : State) (o p : ObjInfo) (e j : Nat) (h : p.key j ≠ o.key e) : (s.inc o e).el p j = s.el p j :=
  State.setEl_el_ne _ _ _ _ _ _ h
@[simp] theorem State.inc_lane (s : State) (o : ObjInfo) (e l : Nat) : (s.inc o e).lane l = s.lane l := by
  simp [State.inc, State.count]
@[simp] theorem State.inc_out (s : State) (o : ObjInfo) (e : Nat) : (s.inc o e).out = s.out := by simp [State.inc, State.count]
@[simp] theorem State.inc_clock (s : State) (o : ObjInfo) (e : Nat) : (s.inc o e).clock = s.clock := by simp [State.inc, State.count]
@[simp] theorem State.send_lane (s : State) (m : Out) (l : Nat) : (s.send m).lane l = s.lane l := by simp [State.lane]
@[simp] theorem State.send_out (s : State) (m : Out) : (s.send m).out = s.out ++ [m] := by cases s; rfl

/-! ## Time -/

@[simp] theorem advance_elems (d : Nat) (s : State) : (advance d s).elems = s.elems := by cases s; rfl
@[simp] theorem advanceTo_elems (d : Nat) (s : State) : (advanceTo d s).elems = s.elems := by cases s; rfl
@[simp] theorem advanceMod_elems (d : Nat) (s : State) : (advanceMod d s).elems = s.elems := by cases s; rfl
@[simp] theorem advanceTo_el (d : Nat) (s : State) (o : ObjInfo) (e : Nat) : (advanceTo d s).el o e = s.el o e := by cases s; rfl
@[simp] theorem advanceMod_el (d : Nat) (s : State) (o : ObjInfo) (e : Nat) : (advanceMod d s).el o e = s.el o e := by cases s; rfl
@[simp] theorem advanceTo_elN (d : Nat) (s : State) (o : ObjInfo) (e : Nat) : (advanceTo d s).elN o e = s.elN o e := by cases s; rfl
@[simp] theorem advanceMod_elN (d : Nat) (s : State) (o : ObjInfo) (e : Nat) : (advanceMod d s).elN o e = s.elN o e := by cases s; rfl
@[simp] theorem advanceTo_elB (d : Nat) (s : State) (o : ObjInfo) (e : Nat) : (advanceTo d s).elB o e = s.elB o e := by cases s; rfl
@[simp] theorem advanceMod_elB (d : Nat) (s : State) (o : ObjInfo) (e : Nat) : (advanceMod d s).elB o e = s.elB o e := by cases s; rfl
@[simp] theorem advanceTo_lane (d : Nat) (s : State) (l : Nat) : (advanceTo d s).lane l = s.lane l := by cases s; rfl
@[simp] theorem advanceMod_lane (d : Nat) (s : State) (l : Nat) : (advanceMod d s).lane l = s.lane l := by cases s; rfl
@[simp] theorem advanceTo_mode (d : Nat) (s : State) : (advanceTo d s).mode = s.mode := by cases s; rfl
@[simp] theorem advanceMod_mode (d : Nat) (s : State) : (advanceMod d s).mode = s.mode := by cases s; rfl
@[simp] theorem advanceTo_out (d : Nat) (s : State) : (advanceTo d s).out = s.out := by cases s; rfl
@[simp] theorem advanceMod_out (d : Nat) (s : State) : (advanceMod d s).out = s.out := by cases s; rfl
@[simp] theorem advanceTo_laneState (d : Nat) (s : State) (l : Nat) : (advanceTo d s).laneState l = s.laneState l := by cases s; rfl
@[simp] theorem advanceMod_laneState (d : Nat) (s : State) (l : Nat) : (advanceMod d s).laneState l = s.laneState l := by cases s; rfl
@[simp] theorem advanceTo_isUp (d : Nat) (s : State) (l : Nat) : (advanceTo d s).isUp l = s.isUp l := by cases s; rfl
@[simp] theorem advanceMod_isUp (d : Nat) (s : State) (l : Nat) : (advanceMod d s).isUp l = s.isUp l := by cases s; rfl
@[simp] theorem advanceMod_isLocked (d : Nat) (s : State) (l : Nat) : (advanceMod d s).isLocked l = s.isLocked l := by cases s; rfl
@[simp] theorem advanceMod_isAligned (d : Nat) (s : State) (l : Nat) : (advanceMod d s).isAligned l = s.isAligned l := by cases s; rfl
@[simp] theorem advanceMod_alignState (d : Nat) (s : State) (l : Nat) : (advanceMod d s).alignState l = s.alignState l := by cases s; rfl
@[simp] theorem advanceTo_mtime_le (d : Nat) (s : State) (h : d ≤ s.clock) : advanceTo d s = advance 0 s := by
  rw [advanceTo, Nat.sub_eq_zero_of_le h]

/-! ## Lanes -/

@[simp] theorem State.modLane_el (s : State) (l : Nat) (f : Lane → Lane) (o : ObjInfo) (e : Nat) : (s.modLane l f).el o e = s.el o e := by
  simp [State.modLane]
@[simp] theorem State.modLane_clock (s : State) (l : Nat) (f : Lane → Lane) : (s.modLane l f).clock = s.clock := by simp [State.modLane]
@[simp] theorem State.modLane_mode (s : State) (l : Nat) (f : Lane → Lane) : (s.modLane l f).mode = s.mode := by simp [State.modLane]
@[simp] theorem State.modLane_out (s : State) (l : Nat) (f : Lane → Lane) : (s.modLane l f).out = s.out := by simp [State.modLane]
@[simp] theorem State.modLane_elems (s : State) (l : Nat) (f : Lane → Lane) : (s.modLane l f).elems = s.elems := by simp [State.modLane]
@[simp] theorem State.modLane_lane (s : State) (l : Nat) (f : Lane → Lane) : (s.modLane l f).lane l = f (s.lane l) := by
  simp [State.modLane]
theorem State.modLane_lane_ne (s : State) (l k : Nat) (f : Lane → Lane) (h : k ≠ l) : (s.modLane l f).lane k = s.lane k := by
  simp [State.modLane, State.setLane_lane_ne _ _ _ _ h]
@[simp] theorem State.modLane_laneState (s : State) (l k : Nat) (f : Lane → Lane) : (s.modLane l f).laneState k = s.laneState k := by
  simp [State.laneState, State.elN]
@[simp] theorem State.modLane_alignState (s : State) (l k : Nat) (f : Lane → Lane) : (s.modLane l f).alignState k = s.alignState k := by
  simp [State.alignState, State.elN]

@[simp] theorem State.setLaneState_laneState (s : State) (l : Nat) (x : LaneState) : (s.setLaneState l x).laneState l = x := by
  unfold State.setLaneState State.laneState State.elN
  rw [State.modLane_el, State.setN_el]
  cases x <;> rfl

theorem State.setLaneState_laneState_ne (s : State) (l k : Nat) (x : LaneState) (h : k ≠ l) :
    (s.setLaneState l x).laneState k = s.laneState k := by
  unfold State.setLaneState State.laneState State.elN
  rw [State.modLane_el, State.setN_el_ne _ _ _ _ _ _ (ObjInfo.key_ne_elem h)]

@[simp] theorem State.setLaneState_out (s : State) (l : Nat) (x : LaneState) : (s.setLaneState l x).out = s.out := by
  simp [State.setLaneState]

@[simp] theorem State.setLaneState_clock (s : State) (l : Nat) (x : LaneState) : (s.setLaneState l x).clock = s.clock := by
  simp [State.setLaneState]

/-- A lane that is not `UP` leaves nothing. -/
theorem leaveUp_idle {s : State} {l : Nat} (h : s.isUp l = false) : leaveUp l s = s := by
  unfold leaveUp; rw [h]; rfl

theorem State.isUp_of_laneState {s : State} {l : Nat} {x : LaneState} (h : s.laneState l = x) (hx : x ≠ .up) : s.isUp l = false := by
  simp [State.isUp, h, hx]

/-! ## Every element but some -/

theorem sameElems.refl (but : List (ObjInfo × Nat)) (s : State) : sameElems but s s := fun _ _ _ => rfl

theorem sameElems.trans {but : List (ObjInfo × Nat)} {s t u : State} (h : sameElems but s t) (k : sameElems but t u) :
    sameElems but s u :=
  fun o e n => (k o e n).trans (h o e n)

theorem sameElems.mono {but more : List (ObjInfo × Nat)} {s t : State} (h : sameElems but s t) (hs : ∀ p ∈ but, p ∈ more) :
    sameElems more s t :=
  fun o e n => h o e (fun p hp => n p (hs p hp))

theorem sameElems.of_elems {but : List (ObjInfo × Nat)} {s t : State} (h : t.elems = s.elems) : sameElems but s t :=
  fun o e _ => by unfold State.el; rw [h]

theorem sameElems.setEl {but : List (ObjInfo × Nat)} {s t : State} {o : ObjInfo} {e : Nat} (v : W64) (h : sameElems but s t)
    (m : (o, e) ∈ but) : sameElems but s (t.setEl o e v) :=
  fun p j n => (State.setEl_el_ne _ _ _ _ _ _ (n _ m)).trans (h p j n)

theorem sameElems.setN {but : List (ObjInfo × Nat)} {s t : State} {o : ObjInfo} {e n : Nat} (h : sameElems but s t)
    (m : (o, e) ∈ but) : sameElems but s (t.setN o e n) :=
  h.setEl _ m

theorem sameElems.put {but : List (ObjInfo × Nat)} {s t : State} {o : ObjInfo} {e : Nat} {v : W64} (h : sameElems but s t)
    (m : (o, e) ∈ but) : sameElems but s (t.put o e v) :=
  fun p j n => (State.put_el_ne _ _ _ _ _ _ (n _ m)).trans (h p j n)

theorem sameElems.same {but : List (ObjInfo × Nat)} {s t u : State} (h : sameElems but s t) (k : u.elems = t.elems) :
    sameElems but s u :=
  h.trans (.of_elems k)

end Sys2Proof.Machine
end

