-- ==== Sys2Proof/Laws/Memory.lean ====
section
/-! SUPPORT. The bytes of the trace ingots under every operation of the model: what an operation that stores nothing leaves unchanged
(`…_mem`), and that one that stores keeps the canonical form of the memory (`…_memOk`). -/

namespace Sys2Proof.Machine

/-! ## Base -/

@[simp] theorem ite_mem (c : Prop) [Decidable c] (a b : State) : (if c then a else b).mem = if c then a.mem else b.mem := by
  split <;> rfl
@[simp] theorem ite_fst_mem {α : Type} (c : Prop) [Decidable c] (a b : State × α) :
    (if c then a else b).1.mem = if c then a.1.mem else b.1.mem := by
  split <;> rfl
@[simp] theorem ite_snd_mem {α : Type} (c : Prop) [Decidable c] (a b : α × State) :
    (if c then a else b).2.mem = if c then a.2.mem else b.2.mem := by
  split <;> rfl
@[simp] theorem foldl_mem {α : Type} (g : State → α → State) (l : List α) (s : State)
    (h : ∀ s a, (g s a).mem = s.mem) : (l.foldl g s).mem = s.mem := by
  induction l generalizing s with
  | nil => rfl
  | cons a t ih => rw [List.foldl_cons, ih, h]
@[simp] theorem foldl_snd_mem {α β : Type} (g : β × State → α → β × State) (l : List α) (p : β × State)
    (h : ∀ p a, (g p a).2.mem = p.2.mem) : (l.foldl g p).2.mem = p.2.mem := by
  induction l generalizing p with
  | nil => rfl
  | cons a t ih => rw [List.foldl_cons, ih, h]
@[simp] theorem foldl_fst_mem {α β : Type} (g : State × β → α → State × β) (l : List α) (p : State × β)
    (h : ∀ p a, (g p a).1.mem = p.1.mem) : (l.foldl g p).1.mem = p.1.mem := by
  induction l generalizing p with
  | nil => rfl
  | cons a t ih => rw [List.foldl_cons, ih, h]

/-! ## Ops -/

@[simp] theorem State.put_mem (s : State) (o : ObjInfo) (e : Nat) (v : W64) :
    (State.put s o e v).mem = s.mem := by cases s; rfl
@[simp] theorem State.bump_mem (s : State) (o : ObjInfo) (e : Nat) :
    (State.bump s o e).mem = s.mem := by cases s; rfl
@[simp] theorem State.touchIf_mem (s : State) (changed : Bool) (o : ObjInfo) (e : Nat) :
    (State.touchIf s changed o e).mem = s.mem := by cases s; rfl
@[simp] theorem State.setEl_mem (s : State) (o : ObjInfo) (e : Nat) (v : W64) :
    (State.setEl s o e v).mem = s.mem := by cases s; rfl
@[simp] theorem State.setN_mem (s : State) (o : ObjInfo) (e : Nat) (n : Nat) :
    (State.setN s o e n).mem = s.mem := by simp only [State.setN, State.setEl_mem]
@[simp] theorem State.count_mem (s : State) (o : ObjInfo) (e : Nat) (k : Nat) :
    (State.count s o e k).mem = s.mem := by simp only [State.count, State.setEl_mem]
@[simp] theorem State.inc_mem (s : State) (o : ObjInfo) (e : Nat) :
    (State.inc s o e).mem = s.mem := by simp only [State.inc, State.count_mem]
@[simp] theorem State.clearEls_mem (s : State) (o : ObjInfo) (e n : Nat) : (s.clearEls o e n).mem = s.mem := by
  induction n with
  | zero => rfl
  | succ n ih => rw [State.clearEls, State.setEl_mem, ih]
@[simp] theorem State.dropKeys_mem (s : State) (lo hi : Nat) :
    (State.dropKeys s lo hi).mem = s.mem := by cases s; rfl
@[simp] theorem State.drawn_mem (s : State) :
    (State.drawn s).mem = s.mem := by cases s; rfl
@[simp] theorem State.send_mem (s : State) (o : Out) :
    (State.send s o).mem = s.mem := by cases s; rfl
@[simp] theorem State.setLane_mem (s : State) (l : Nat) (x : Lane) :
    (State.setLane s l x).mem = s.mem := by cases s; rfl
@[simp] theorem State.modLane_mem (s : State) (l : Nat) (f : Lane → Lane) :
    (State.modLane s l f).mem = s.mem := by simp only [State.modLane, State.setLane_mem]
@[simp] theorem State.setBench_mem (s : State) (b : Nat) (x : Bench) :
    (State.setBench s b x).mem = s.mem := by cases s; rfl
@[simp] theorem State.modBench_mem (s : State) (b : Nat) (f : Bench → Bench) :
    (State.modBench s b f).mem = s.mem := by simp only [State.modBench, State.setBench_mem]
@[simp] theorem noteSeg_mem (s : State) (b : Nat) (t : State) :
    (noteSeg s b t).mem = t.mem := by cases t; rfl
@[simp] theorem State.setSeqx_mem (s : State) (q : Nat) (x : SeqX) :
    (State.setSeqx s q x).mem = s.mem := by cases s; rfl
@[simp] theorem State.setPin_mem (s : State) (n : Nat) (x : Pin) :
    (State.setPin s n x).mem = s.mem := by cases s; rfl
@[simp] theorem State.setStream_mem (s : State) (n : Nat) (x : Stream) :
    (State.setStream s n x).mem = s.mem := by cases s; rfl
@[simp] theorem State.modStream_mem (s : State) (n : Nat) (f : Stream → Stream) :
    (State.modStream s n f).mem = s.mem := by simp only [State.modStream, State.setStream_mem]
@[simp] theorem State.setDir_mem (s : State) (b : Nat) (x : List DirEntry) :
    (State.setDir s b x).mem = s.mem := by cases s; rfl
@[simp] theorem State.setEngine_mem (s : State) (a : Nat) (x : Engine) :
    (State.setEngine s a x).mem = s.mem := by cases s; rfl
@[simp] theorem State.modEngine_mem (s : State) (a : Nat) (f : Engine → Engine) :
    (State.modEngine s a f).mem = s.mem := by simp only [State.modEngine, State.setEngine_mem]
@[simp] theorem State.setLock_mem (s : State) (k : Nat) (x : Lock) :
    (State.setLock s k x).mem = s.mem := by cases s; rfl
@[simp] theorem State.setLine_mem (s : State) (k : Nat) (x : Line) :
    (State.setLine s k x).mem = s.mem := by cases s; rfl
@[simp] theorem State.setPacket_mem (s : State) (p : Nat) (x : Packet) :
    (State.setPacket s p x).mem = s.mem := by cases s; rfl
@[simp] theorem State.setQueue_mem (s : State) (q : Nat) (x : Queue) :
    (State.setQueue s q x).mem = s.mem := by cases s; rfl
@[simp] theorem State.modQueue_mem (s : State) (q : Nat) (f : Queue → Queue) :
    (State.modQueue s q f).mem = s.mem := by simp only [State.modQueue, State.setQueue_mem]
@[simp] theorem State.setChan_mem (s : State) (c : Nat) (x : Chan) :
    (State.setChan s c x).mem = s.mem := by cases s; rfl
@[simp] theorem State.setRank_mem (s : State) (r : Nat) (x : Rank) :
    (State.setRank s r x).mem = s.mem := by cases s; rfl
@[simp] theorem State.setStage_mem (s : State) (f : Nat) (x : Option Staging) :
    (State.setStage s f x).mem = s.mem := by cases s; rfl
@[simp] theorem State.setPort_mem (s : State) (h : Nat) (x : Port) :
    (State.setPort s h x).mem = s.mem := by cases s; rfl
@[simp] theorem State.modPort_mem (s : State) (h : Nat) (f : Port → Port) :
    (State.modPort s h f).mem = s.mem := by simp only [State.modPort, State.setPort_mem]
@[simp] theorem State.setFunc_mem (s : State) (f : Nat) (x : Func) :
    (State.setFunc s f x).mem = s.mem := by cases s; rfl
@[simp] theorem State.modFunc_mem (s : State) (i : Nat) (f : Func → Func) :
    (State.modFunc s i f).mem = s.mem := by simp only [State.modFunc, State.setFunc_mem]
@[simp] theorem State.setSession_mem (s : State) (k : Nat) (x : Option Session) :
    (State.setSession s k x).mem = s.mem := by cases s; rfl
@[simp] theorem State.setNetCfg_mem (s : State) (m : Nat) (x : NetCfg) :
    (State.setNetCfg s m x).mem = s.mem := by cases s; rfl
@[simp] theorem State.setRef_mem (s : State) (r : Nat) (x : Ref) :
    (State.setRef s r x).mem = s.mem := by cases s; rfl
@[simp] theorem advance_mem (d : Nat) (s : State) :
    (advance d s).mem = s.mem := by cases s; rfl
@[simp] theorem advanceTo_mem (t : Nat) (s : State) :
    (advanceTo t s).mem = s.mem := by simp only [advanceTo, advance_mem]
@[simp] theorem advanceMod_mem (t : Nat) (s : State) :
    (advanceMod t s).mem = s.mem := by simp only [advanceMod, advance_mem]
@[simp] theorem tick_mem (s : State) :
    (tick s).mem = s.mem := by simp only [tick, advance_mem]
@[simp] theorem State.setVec_mem (s : State) (f vec : Nat) (v : Vec) :
    (State.setVec s f vec v).mem = s.mem := by simp only [State.setVec, State.modFunc_mem]
@[simp] theorem sendVec_mem (f vec : Nat) (s : State) :
    (sendVec f vec s).mem = s.mem := by simp only [sendVec, State.send_mem, State.setVec_mem]
@[simp] theorem raiseVec_mem (f vec : Nat) (s : State) :
    (raiseVec f vec s).mem = s.mem := by simp only [raiseVec, State.setVec_mem, sendVec_mem, ite_mem, ite_self]
@[simp] theorem intUpdate_mem (h : Nat) (s : State) :
    (intUpdate h s).mem = s.mem := by simp only [intUpdate, State.send_mem, State.setPort_mem, raiseVec_mem, ite_mem, ite_self]
@[simp] theorem setInt1_mem (src h : Nat) (s : State) :
    (setInt1 src h s).mem = s.mem := by simp only [setInt1, State.setEl_mem, intUpdate_mem]
@[simp] theorem setInt_mem (src : Nat) (s : State) :
    (setInt src s).mem = s.mem := by simp only [setInt, setInt1_mem]
@[simp] theorem notice_mem (f vec : Nat) (s : State) :
    (notice f vec s).mem = s.mem := by simp only [notice, raiseVec_mem, setInt1_mem, ite_mem, ite_self]
@[simp] theorem refreshJournal_mem (s : State) :
    (refreshJournal s).mem = s.mem := by simp only [refreshJournal, State.setEl_mem]
@[simp] theorem journalAdd_mem (j : JEntry) (s : State) :
    (journalAdd j s).mem = s.mem := by simp only [journalAdd, refreshJournal_mem]
@[simp] theorem noteAlert_mem (before : Mode) (s : State) :
    (noteAlert before s).mem = s.mem := by simp only [noteAlert, State.send_mem, ite_mem, ite_self]
@[simp] theorem State.setMode_mem (s : State) (m : Mode) :
    (State.setMode s m).mem = s.mem := by simp only [State.setMode, State.setEl_mem, State.setN_mem, setInt_mem, noteAlert_mem, ite_mem, ite_self]
@[simp] theorem toService_mem (s : State) :
    (toService s).mem = s.mem := by simp only [toService, State.setMode_mem, ite_mem, ite_self]
@[simp] theorem State.setBenchState_mem (s : State) (b : Nat) (x : BenchState) :
    (State.setBenchState s b x).mem = s.mem := by simp only [State.setBenchState, State.setN_mem, setInt_mem, ite_mem, ite_self]
@[simp] theorem faultBench_mem (b : Nat) (c : FaultCause) (s : State) :
    (faultBench b c s).mem = s.mem := by simp only [faultBench, State.modBench_mem, ite_mem, ite_self]
@[simp] theorem faultAll_mem (s : State) :
    (faultAll s).mem = s.mem := by simp only [faultAll, faultBench_mem, foldl_mem, implies_true]
@[simp] theorem enterRecovery_mem (cls : Nat) (s : State) :
    (enterRecovery cls s).mem = s.mem := by simp only [enterRecovery, State.setMode_mem, faultAll_mem]
@[simp] theorem gateAllTiles_mem (s : State) :
    (gateAllTiles s).mem = s.mem := by simp only [gateAllTiles, State.setN_mem, ite_mem, ite_self, foldl_mem, implies_true]
@[simp] theorem enterSafe_mem (s : State) :
    (enterSafe s).mem = s.mem := by simp only [enterSafe, State.setN_mem, State.setMode_mem, faultAll_mem, gateAllTiles_mem]
@[simp] theorem safeTrigger_mem (s : State) :
    (safeTrigger s).mem = s.mem := by simp only [safeTrigger, enterSafe_mem, ite_mem, ite_self]
@[simp] theorem putRecord_mem (o : ObjInfo) (src : Nat) (w0 w1 w2 : W64) (s : State) :
    (putRecord o src w0 w1 w2 s).mem = s.mem := by simp only [putRecord, State.setEl_mem]
@[simp] theorem refreshSummary_mem (s : State) :
    (refreshSummary s).mem = s.mem := by simp only [refreshSummary, State.setEl_mem]
@[simp] theorem notifyError_mem (sev src : Nat) (w0 w1 w2 : W64) (s : State) :
    (notifyError sev src w0 w1 w2 s).mem = s.mem := by simp only [notifyError, State.setN_mem, setInt_mem, journalAdd_mem, putRecord_mem, ite_mem, ite_self]
@[simp] theorem placeError_mem (cls sev src : Nat) (w0 detail : W64) (s : State) :
    (placeError cls sev src w0 detail s).mem = s.mem := by simp only [placeError, State.setN_mem, State.send_mem, putRecord_mem, refreshSummary_mem, notifyError_mem, ite_mem, ite_self]
@[simp] theorem raiseError_mem (cls sev src unit bench : Nat) (detail : W64) (s : State) :
    (raiseError cls sev src unit bench detail s).mem = s.mem := by simp only [raiseError, State.drawn_mem, placeError_mem, ite_mem, ite_self]

/-! ## Wire -/

@[simp] theorem sendMessage_mem (slot : Nat) (out : List Byte → Out) (msg : Session → List Byte) (s : State) :
    (sendMessage slot out msg s).mem = s.mem := by unfold sendMessage; (repeat' split) <;> (try simp only [State.send_mem, State.setSession_mem])
@[simp] theorem respond_mem (slot : Nat) (id : BitVec 32) (ref : W64) (st orig : Status) (counter : BitVec 32) (sub : Nat) (vals : List W64) (s : State) :
    (respond slot id ref st orig counter sub vals s).mem = s.mem := by simp only [respond, sendMessage_mem]
@[simp] theorem sendNotify_mem (slot sub : Nat) (ref : W64) (denied : Bool) (counter : BitVec 32) (vals : List W64) (s : State) :
    (sendNotify slot sub ref denied counter vals s).mem = s.mem := by unfold sendNotify; (repeat' split) <;> (try simp only [State.setSession_mem, sendMessage_mem])

/-! ## Lanes -/

@[simp] theorem State.setLaneState_mem (s : State) (l : Nat) (x : LaneState) :
    (State.setLaneState s l x).mem = s.mem := by simp only [State.setLaneState, State.setN_mem, State.modLane_mem]
@[simp] theorem State.setAlign_mem (s : State) (l : Nat) (x : AlignState) :
    (State.setAlign s l x).mem = s.mem := by simp only [State.setAlign, State.setN_mem]
@[simp] theorem State.setLaneFlag_mem (s : State) (l i : Nat) (b : Bool) :
    (State.setLaneFlag s l i b).mem = s.mem := by simp only [State.setLaneFlag, State.setEl_mem]
@[simp] theorem benchEvent_mem (b kind : Nat) (sq level : Nat) (arg : W40) (s : State) :
    (benchEvent b kind sq level arg s).mem = s.mem := by simp only [benchEvent, State.modBench_mem]
@[simp] theorem laneTrouble1_mem (l cause b : Nat) (s : State) :
    (laneTrouble1 l cause b s).mem = s.mem := by simp only [laneTrouble1, State.modBench_mem, faultBench_mem, State.setLaneFlag_mem, benchEvent_mem, ite_mem, ite_self]
@[simp] theorem laneTrouble_mem (l cause : Nat) (s : State) :
    (laneTrouble l cause s).mem = s.mem := by simp only [laneTrouble, laneTrouble1_mem, foldl_mem, implies_true]
@[simp] theorem laneRejoin_mem (l : Nat) (s : State) :
    (laneRejoin l s).mem = s.mem := by simp only [laneRejoin, State.modBench_mem, ite_mem, ite_self, foldl_mem, implies_true]
@[simp] theorem clearForeign_mem (b : Nat) (s : State) :
    (clearForeign b s).mem = s.mem := by simp only [clearForeign, State.modBench_mem, State.setLaneFlag_mem, ite_mem, ite_self, foldl_mem, implies_true]
@[simp] theorem refreshConflict1_mem (l : Nat) (s : State) :
    (refreshConflict1 l s).mem = s.mem := by simp only [refreshConflict1, State.setLaneFlag_mem, laneTrouble_mem, laneRejoin_mem, ite_mem, ite_self]
@[simp] theorem refreshConflicts_mem (s : State) :
    (refreshConflicts s).mem = s.mem := by simp only [refreshConflicts, refreshConflict1_mem, foldl_mem, implies_true]
@[simp] theorem sendDescReq_mem (l : Nat) (s : State) :
    (sendDescReq l s).mem = s.mem := by simp only [sendDescReq, State.send_mem, State.modLane_mem, ite_mem, ite_self]
@[simp] theorem countWait_mem (l : Nat) (s : State) :
    (countWait l s).mem = s.mem := by cases s; rfl
@[simp] theorem raiseLimit_mem (l : Nat) (s : State) :
    (raiseLimit l s).mem = s.mem := by simp only [raiseLimit, State.modLane_mem, countWait_mem, ite_mem, ite_self]
@[simp] theorem sendCredit_mem (l : Nat) (s : State) :
    (sendCredit l s).mem = s.mem := by simp only [sendCredit, State.send_mem, State.modLane_mem]
@[simp] theorem creditAfterFree_mem (l : Nat) (s : State) :
    (creditAfterFree l s).mem = s.mem := by simp only [creditAfterFree, raiseLimit_mem, sendCredit_mem, ite_mem, ite_self]
@[simp] theorem startCalibration_mem (l : Nat) (s : State) :
    (startCalibration l s).mem = s.mem := by simp only [startCalibration, State.modLane_mem, State.setAlign_mem]
@[simp] theorem admitOrRefuse_mem (l : Nat) (s : State) :
    (admitOrRefuse l s).mem = s.mem := by unfold admitOrRefuse; (repeat' split) <;> (try simp only [State.setN_mem, State.modLane_mem, raiseError_mem, State.setAlign_mem])
@[simp] theorem reevaluate_mem (design : W64) (s : State) :
    (reevaluate design s).mem = s.mem := by simp only [reevaluate, admitOrRefuse_mem, ite_mem, ite_self, foldl_mem, implies_true]
@[simp] theorem leaveAligned_mem (l : Nat) (next : AlignState) (s : State) :
    (leaveAligned l next s).mem = s.mem := by unfold leaveAligned; (repeat' split) <;> (try simp only [State.modLane_mem, State.setAlign_mem, creditAfterFree_mem, reevaluate_mem])
@[simp] theorem leaveUp_mem (l : Nat) (s : State) :
    (leaveUp l s).mem = s.mem := by simp only [leaveUp, State.modLane_mem, State.setLaneFlag_mem, laneTrouble_mem, countWait_mem, leaveAligned_mem, ite_mem, ite_self]
@[simp] theorem enterHunt_mem (l : Nat) (s : State) :
    (enterHunt l s).mem = s.mem := by simp only [enterHunt, State.modLane_mem, State.setLaneState_mem, leaveUp_mem]
@[simp] theorem laneFault_mem (l : Nat) (c : LaneCause) (s : State) :
    (laneFault l c s).mem = s.mem := by simp only [laneFault, State.setN_mem, raiseError_mem, State.setLaneState_mem, leaveUp_mem]
@[simp] theorem enterFramed_mem (l : Nat) (s : State) :
    (enterFramed l s).mem = s.mem := by simp only [enterFramed, State.setLaneState_mem, sendDescReq_mem]
@[simp] theorem enterUp_mem (l : Nat) (s : State) :
    (enterUp l s).mem = s.mem := by simp only [enterUp, State.modLane_mem, State.setLaneState_mem, laneRejoin_mem, sendCredit_mem, startCalibration_mem]
@[simp] theorem laneOff_mem (l : Nat) (s : State) :
    (laneOff l s).mem = s.mem := by simp only [laneOff, State.setN_mem, State.dropKeys_mem, State.modLane_mem, State.setLaneState_mem, leaveUp_mem]
@[simp] theorem frameError_mem (l : Nat) (s : State) :
    (frameError l s).mem = s.mem := by simp only [frameError, State.inc_mem, State.modLane_mem, laneFault_mem, ite_mem, ite_self]
@[simp] theorem stampError_mem (l : Nat) (s : State) :
    (stampError l s).mem = s.mem := by simp only [stampError, State.inc_mem, laneFault_mem]
@[simp] theorem countMissing_mem (l d : Nat) (stamp : W40) (s : State) :
    (countMissing l d stamp s).mem = s.mem := by simp only [countMissing, State.inc_mem, State.modLane_mem, ite_mem, ite_self]
@[simp] theorem dropClocks_mem (l : Nat) (which : Nat → Bool) (s : State) :
    (dropClocks l which s).mem = s.mem := by simp only [dropClocks, State.modLane_mem, countMissing_mem, foldl_mem, implies_true]
@[simp] theorem uncorrectable_mem (l : Nat) (s : State) :
    (uncorrectable l s).mem = s.mem := by simp only [uncorrectable, State.inc_mem, State.modLane_mem, laneFault_mem, ite_mem, ite_self]

/-! ## Dict -/

@[simp] theorem setPropStatus_mem (w : W64) (s : State) :
    (setPropStatus w s).mem = s.mem := by simp only [setPropStatus, State.setEl_mem, setInt_mem, ite_mem, ite_self]
@[simp] theorem setPropState_mem (st cause : Nat) (s : State) :
    (setPropState st cause s).mem = s.mem := by simp only [setPropState, setPropStatus_mem]
@[simp] theorem propRefuse_mem (st : Status) (s : State) :
    (propRefuse st s).1.mem = s.mem := by simp only [propRefuse, setPropStatus_mem]
@[simp] theorem noteRefusal_mem (via : Via) (o : ObjInfo) (e : Nat) (st : Status) (s : State) :
    (noteRefusal via o e st s).1.mem = s.mem := by simp only [noteRefusal, propRefuse_mem, ite_fst_mem, ite_self]
@[simp] theorem setAct_mem (o : ObjInfo) (e : Nat) (v : W64) (s : State) : (setAct o e v s).1.mem = s.mem := by
  rw [setAct, State.put_mem]
theorem dictWrite_mem (via : Via) (expect : Option (BitVec 32)) (o : ObjInfo) (e : Nat) (v : W64) (act : State → State × Status)
    (s : State) (h : (act s).1.mem = s.mem) : (dictWrite via expect o e v act s).1.mem = s.mem := by
  unfold dictWrite
  split
  · dsimp only; split
    · rw [State.bump_mem, h]
    · exact h
  · split
    · exact h
    · exact noteRefusal_mem ..
@[simp] theorem disarmCas_mem (via : Via) (s : State) :
    (disarmCas via s).mem = s.mem := by unfold disarmCas; (repeat' split) <;> (try simp only [State.setEl_mem, ite_mem, ite_self])
@[simp] theorem relaySpends_mem (via : Via) (o : ObjInfo) (s : State) :
    (relaySpends via o s).mem = s.mem := by simp only [relaySpends, disarmCas_mem, ite_mem, ite_self]
@[simp] theorem spendCas_mem (via : Via) (obj : Nat) (s : State) :
    (spendCas via obj s).mem = s.mem := by simp only [spendCas, disarmCas_mem, ite_mem, ite_self]
@[simp] theorem takeCas_mem (via : Via) (o : ObjInfo) (s : State) :
    (takeCas via o s).2.mem = s.mem := by unfold takeCas; (repeat' split) <;> (try simp only [State.setEl_mem, ite_snd_mem, ite_self])
@[simp] theorem relayAdvance_mem (c : Nat) (s : State) :
    (relayAdvance c s).mem = s.mem := by simp only [relayAdvance, State.setEl_mem]
@[simp] theorem answerWrite_mem (via : Via) (ref : W64) (counter : BitVec 32) (st : Status) (s : State) :
    (answerWrite via ref counter st s).mem = s.mem := by unfold answerWrite; (repeat' split) <;> (try simp only [State.setEl_mem, State.send_mem, respond_mem])
@[simp] theorem recordWrite_mem (via : Via) (o : ObjInfo) (e : Nat) (st : Status) (s : State) :
    (recordWrite via o e st s).mem = s.mem := by simp only [recordWrite, answerWrite_mem]
@[simp] theorem holdOp_mem (f b : Nat) (op : HeldOp) (s : State) :
    (holdOp f b op s).mem = s.mem := by cases s; rfl
theorem postedWrite_mem (f : Nat) (a : HostAccess) (now : State → State) (s : State) (h : (now s).mem = s.mem) :
    (postedWrite f a now s).mem = s.mem := by
  unfold postedWrite
  split
  · rfl
  · split
    · exact holdOp_mem ..
    · exact h
theorem windowRead_mem (f : Nat) (a : HostAccess) (now : State → State) (s : State) (h : (now s).mem = s.mem) :
    (windowRead f a now s).mem = s.mem := by
  unfold windowRead
  split
  · rfl
  · split
    · exact State.send_mem ..
    · split
      · exact holdOp_mem ..
      · exact h
theorem writeNow_mem (via : Via) (o : ObjInfo) (e : Nat) (v : W64) (act : State → State × Status) (s : State)
    (h : ∀ t, (act t).1.mem = t.mem) : (writeNow via o e v act s).mem = s.mem := by
  unfold writeNow
  dsimp only
  rw [recordWrite_mem, relaySpends_mem]
  split
  · split
    · rw [relayAdvance_mem, dictWrite_mem _ _ _ _ _ _ _ (h _), takeCas_mem]
    · rw [dictWrite_mem _ _ _ _ _ _ _ (h _), takeCas_mem]
  · rw [dictWrite_mem _ _ _ _ _ _ _ (h _), takeCas_mem]
theorem cmdWrite_mem (via : Via) (o : ObjInfo) (e : Nat) (v : W64) (act : State → State × Status) (s : State)
    (h : ∀ t, (act t).1.mem = t.mem) : (cmdWrite via o e v act s).mem = s.mem := by
  unfold cmdWrite
  split
  · exact writeNow_mem _ _ _ _ _ _ h
  · exact postedWrite_mem _ _ _ _ (writeNow_mem _ _ _ _ _ _ h)
@[simp] theorem answerRead_mem (via : Via) (ref : W64) (counter : BitVec 32) (st : Status) (v : W64) (s : State) :
    (answerRead via ref counter st v s).mem = s.mem := by unfold answerRead; (repeat' split) <;> (try simp only [State.setEl_mem, State.send_mem, respond_mem])
@[simp] theorem recordRead_mem (via : Via) (o : ObjInfo) (e : Nat) (st : Status) (v : W64) (s : State) :
    (recordRead via o e st v s).mem = s.mem := by simp only [recordRead, answerRead_mem]
theorem cmdRead_mem (via : Via) (o : ObjInfo) (e : Nat) (act : State → State × Status × W64) (s : State)
    (h : ∀ t, (act t).1.mem = t.mem) : (cmdRead via o e act s).mem = s.mem := by
  unfold cmdRead
  split
  · dsimp only; rw [recordRead_mem]
    split
    · split
      · rw [relayAdvance_mem, h]
      · rw [h]
    · rw [h]
  · rw [recordRead_mem]
@[simp] theorem refuse_mem (st : Status) (s : State) :
    (refuse st s).1.mem = s.mem := by cases s; rfl
theorem guardAct_mem (c : Bool) (st : Status) (act : State → State × Status) (s : State) (h : (act s).1.mem = s.mem) :
    (guardAct c st act s).1.mem = s.mem := by
  unfold guardAct; split <;> first | rfl | exact h

/-! ## Cond -/

@[simp] theorem State.setShadow_mem (s : State) (o : ObjInfo) (e : Nat) (v : W64) :
    (State.setShadow s o e v).mem = s.mem := by cases s; rfl
@[simp] theorem refreshDirty_mem (b : Nat) (s : State) :
    (refreshDirty b s).mem = s.mem := by simp only [refreshDirty, State.setEl_mem]
@[simp] theorem writeShadowed_mem (o : ObjInfo) (e : Nat) (v : W64) (s : State) :
    (writeShadowed o e v s).1.mem = s.mem := by unfold writeShadowed; (repeat' split) <;> (try simp only [State.put_mem, State.setShadow_mem, refreshDirty_mem])
@[simp] theorem applyCopies_mem (l : List (ObjInfo × Nat × W64)) (s : State) :
    (applyCopies l s).mem = s.mem := by simp only [applyCopies, State.setEl_mem, foldl_mem, implies_true]
@[simp] theorem cuConfigAct_mem (c : Nat) (v : W64) (s : State) :
    (cuConfigAct c v s).1.mem = s.mem := by simp only [cuConfigAct, writeShadowed_mem, ite_fst_mem, ite_self]
@[simp] theorem cuGroupAct_mem (c : Nat) (v : W64) (s : State) :
    (cuGroupAct c v s).1.mem = s.mem := by simp only [cuGroupAct, writeShadowed_mem, ite_fst_mem, ite_self]
@[simp] theorem cuExportAct_mem (c : Nat) (v : W64) (s : State) :
    (cuExportAct c v s).1.mem = s.mem := by simp only [cuExportAct, writeShadowed_mem, ite_fst_mem, ite_self]
@[simp] theorem State.setCuPrev_mem (s : State) (c : Nat) (w : Option W40) :
    (State.setCuPrev s c w).mem = s.mem := by cases s; rfl
@[simp] theorem cuEvaluate_mem (c : Nat) (w : W40) (s : State) :
    (cuEvaluate c w s).mem = s.mem := by simp only [cuEvaluate, State.setEl_mem, State.inc_mem, State.setCuPrev_mem, ite_mem, ite_self]
@[simp] theorem cuHold_mem (c : Nat) (s : State) :
    (cuHold c s).mem = s.mem := by simp only [cuHold, State.setEl_mem]
@[simp] theorem cuReset_mem (c : Nat) (s : State) :
    (cuReset c s).mem = s.mem := by simp only [cuReset, State.setEl_mem, State.setCuPrev_mem]
@[simp] theorem cuRow_mem (r : Row) (c : Nat) (s : State) :
    (cuRow r c s).mem = s.mem := by unfold cuRow; (repeat' split) <;> (try simp only [State.inc_mem, cuEvaluate_mem, cuHold_mem, ite_mem, ite_self])
@[simp] theorem cuRows_mem (r : Row) (s : State) :
    (cuRows r s).mem = s.mem := by simp only [cuRows, cuRow_mem, foldl_mem, implies_true]

/-! ## Mem -/

@[simp] theorem State.setPoison_mem (s : State) (ingot cell : Nat) (v : Bool) :
    (State.setPoison s ingot cell v).mem = s.mem := by cases s; rfl
@[simp] theorem poisonCell_mem (ingot cell : Nat) (s : State) :
    (poisonCell ingot cell s).mem = s.mem := by simp only [poisonCell, State.setEl_mem, State.inc_mem, State.setPoison_mem, ite_mem, ite_self]
@[simp] theorem State.setHolder_mem (s : State) (ingot v : Nat) :
    (State.setHolder s ingot v).mem = s.mem := by cases s; rfl
@[simp] theorem notePoison_mem (ingot : Nat) (s : State) :
    (notePoison ingot s).mem = s.mem := by simp only [notePoison, State.setDir_mem, ite_mem, ite_self]
@[simp] theorem readCell_mem (ingot cell : Nat) (s : State) :
    (readCell ingot cell s).2.mem = s.mem := by simp only [readCell, notePoison_mem, ite_mem, ite_self]
@[simp] theorem State.setHomeRanks_mem (s : State) (st : Nat) (l : List Nat) :
    (State.setHomeRanks s st l).mem = s.mem := by cases s; rfl
@[simp] theorem noteRequest_mem (s : State) (r : Nat) :
    (noteRequest s r).mem = s.mem := by simp only [noteRequest, State.setRank_mem]
@[simp] theorem acceptReq_mem (r : StoreReq) (s : State) :
    (acceptReq r s).mem = s.mem := by simp only [acceptReq, toService_mem, noteRequest_mem, foldl_mem, implies_true]

/-! ## Pool -/

@[simp] theorem takeCell_mem (k : Nat) (s : State) :
    (takeCell k s).mem = s.mem := by cases s; rfl
@[simp] theorem takeCells_mem (bank : Option Nat) (n : Nat) (held : List Nat) (s : State) : (takeCells bank n held s).2.mem = s.mem := by
  induction n generalizing held s with
  | zero => rfl
  | succ n ih => rw [takeCells]; dsimp only; rw [ih, takeCell_mem]
@[simp] theorem State.setHeld_mem (s : State) (b : Option Nat) (n : Nat) :
    (State.setHeld s b n).mem = s.mem := by unfold State.setHeld; (repeat' split) <;> (try simp only [State.setN_mem])
@[simp] theorem grantPacket_mem (p : Packet) (cls : AllocClass) (tile k : Nat) (s : State) :
    (grantPacket p cls tile k s).2.mem = s.mem := by
  have h (t : State) (n : Nat) : ({ t with nextPkt := n } : State).mem = t.mem := by cases t; rfl
  unfold grantPacket; dsimp only
  rw [State.setHeld_mem, State.setPacket_mem, h, takeCells_mem]
@[simp] theorem State.setRotor_mem (s : State) (cls : AllocClass) (b : Nat) :
    (State.setRotor s cls b).mem = s.mem := by cases s; rfl
@[simp] theorem refusedCell_mem (b : Option Nat) (s : State) :
    (refusedCell b s).mem = s.mem := by unfold refusedCell; (repeat' split) <;> (try simp only [State.inc_mem])
@[simp] theorem useGrant_mem (id : Nat) (p : Packet) (s : State) :
    (useGrant id p s).mem = s.mem := by simp only [useGrant, State.setPacket_mem]
@[simp] theorem allocPacket_mem (p : Packet) (cls : AllocClass) (tile k : Nat) (s : State) :
    (allocPacket p cls tile k s).2.mem = s.mem := by unfold allocPacket; (repeat' split) <;> (try simp only [grantPacket_mem, State.setRotor_mem, refusedCell_mem, useGrant_mem])
@[simp] theorem leaveExclusive_mem (s : State) :
    (leaveExclusive s).mem = s.mem := by simp only [leaveExclusive, State.setN_mem, State.setMode_mem, ite_mem, ite_self]
@[simp] theorem freeCells_mem (p : Packet) (s : State) :
    (freeCells p s).mem = s.mem := by unfold freeCells; (repeat' split) <;> (try simp only [State.setN_mem, foldl_mem, implies_true])
@[simp] theorem releaseLink_mem (id : Nat) (s : State) :
    (releaseLink id s).mem = s.mem := by simp only [releaseLink, State.setPacket_mem, freeCells_mem, ite_mem, ite_self]
@[simp] theorem dropGrants_mem (b : Nat) (s : State) :
    (dropGrants b s).mem = s.mem := by simp only [dropGrants, releaseLink_mem, foldl_mem, implies_true]
@[simp] theorem noteQueue_mem (s : State) (q : Nat) (t : State) :
    (noteQueue s q t).mem = t.mem := by cases t; rfl
@[simp] theorem advIndex_mem (o : ObjInfo) (q k : Nat) (s : State) :
    (advIndex o q k s).mem = s.mem := by simp only [advIndex, State.setN_mem]
@[simp] theorem postNotice_mem (q : Nat) (vec : Option Nat) (s : State) :
    (postNotice q vec s).mem = s.mem := by unfold postNotice; (repeat' split) <;> (try simp only [notice_mem])
@[simp] theorem dropAt_mem (q i : Nat) (s : State) :
    (dropAt q i s).mem = s.mem := by unfold dropAt; dsimp only; (repeat' split) <;> (try simp only [State.setQueue_mem, releaseLink_mem, advIndex_mem])
@[simp] theorem enterQueue_mem (q id : Nat) (s : State) :
    (enterQueue q id s).mem = s.mem := by simp only [enterQueue, State.setPacket_mem, State.modQueue_mem, advIndex_mem, postNotice_mem, ite_mem, ite_self]
@[simp] theorem discardNew_mem (q id : Nat) (s : State) :
    (discardNew q id s).mem = s.mem := by simp only [discardNew, State.inc_mem, releaseLink_mem, advIndex_mem]
@[simp] theorem offerPacket_mem (q id : Nat) (s : State) :
    (offerPacket q id s).2.mem = s.mem := by simp only [offerPacket, State.inc_mem, State.setQueue_mem, releaseLink_mem, dropAt_mem, enterQueue_mem, discardNew_mem, ite_snd_mem, ite_self]
@[simp] theorem postEvent_mem (b sq level code dclk : Nat) (stamp : W40) (s : State) :
    (postEvent b sq level code dclk stamp s).mem = s.mem := by
  unfold postEvent
  split
  · exact State.inc_mem ..
  · rename_i q _
    have ha := allocPacket_mem { kind := .event, bench := some b, cells := [], words := eventWords sq level code dclk stamp }
      .acquisition (sq / 8) 1 s
    dsimp only
    split <;> rename_i h <;> rw [h] at ha
    · rw [State.inc_mem]; exact ha
    · rename_i id s1
      have ho := offerPacket_mem q id s1
      split <;> rename_i h2 <;> rw [h2] at ho
      · exact ho.trans ha
      · rw [State.inc_mem]; exact ho.trans ha
@[simp] theorem discardAll_mem (q : Nat) (count keepHead : Bool) (s : State) :
    (discardAll q count keepHead s).mem = s.mem := by simp only [discardAll, State.count_mem, State.setQueue_mem, releaseLink_mem, advIndex_mem, ite_mem, ite_self, foldl_mem, implies_true]
@[simp] theorem flushQueue_mem (q : Nat) (s : State) :
    (flushQueue q s).mem = s.mem := by unfold flushQueue; (repeat' split) <;> (try simp only [State.modQueue_mem, discardAll_mem])
@[simp] theorem unlinkFilling_mem (q : Nat) (s : State) :
    (unlinkFilling q s).mem = s.mem := by simp only [unlinkFilling, State.inc_mem, State.modStream_mem, ite_mem, ite_self]
@[simp] theorem resetQueue_mem (q : Nat) (forced : Bool) (s : State) :
    (resetQueue q forced s).mem = s.mem := by simp only [resetQueue, State.setEl_mem, State.modQueue_mem, discardAll_mem, unlinkFilling_mem]
@[simp] theorem defaultQueue_mem (q : Nat) (s : State) :
    (defaultQueue q s).mem = s.mem := by simp only [defaultQueue, State.setEl_mem, foldl_mem, implies_true]
@[simp] theorem freeQueue_mem (q : Nat) (s : State) :
    (freeQueue q s).mem = s.mem := by simp only [freeQueue, State.setN_mem, State.setQueue_mem, discardAll_mem, defaultQueue_mem, ite_mem, ite_self]

/-! ## Pins -/

@[simp] theorem drivePin_mem (n : Nat) (s : State) :
    (drivePin n s).mem = s.mem := by simp only [drivePin, State.send_mem, State.setPin_mem, ite_mem, ite_self]
@[simp] theorem setPinState_mem (n : Nat) (v : Bool) (s : State) :
    (setPinState n v s).mem = s.mem := by simp only [setPinState, State.setPin_mem, drivePin_mem]
@[simp] theorem pulsePin_mem (n : Nat) (s : State) :
    (pulsePin n s).mem = s.mem := by simp only [pulsePin, State.setPin_mem, drivePin_mem]
@[simp] theorem applyPinOps_mem (n : Nat) (ops : List Nat) (s : State) :
    (applyPinOps n ops s).mem = s.mem := by simp only [applyPinOps, setPinState_mem, pulsePin_mem, ite_mem, ite_self]
@[simp] theorem clearPins_mem (b : Nat) (s : State) :
    (clearPins b s).mem = s.mem := by simp only [clearPins, setPinState_mem, ite_mem, ite_self, foldl_mem, implies_true]
@[simp] theorem pulseEnds_mem (n : Nat) (s : State) :
    (pulseEnds n s).mem = s.mem := by unfold pulseEnds; (repeat' split) <;> (try simp only [State.setPin_mem, advanceTo_mem, drivePin_mem])

/-! ## Quench -/

@[simp] theorem asyncEvent_mem (b kind : Nat) (arg : W40) (s : State) :
    (asyncEvent b kind arg s).mem = s.mem := by simp only [asyncEvent, benchEvent_mem, ite_mem, ite_self]
@[simp] theorem setSkid_mem (l skid : Nat) (s : State) :
    (setSkid l skid s).mem = s.mem := by cases s; rfl
@[simp] theorem recordReport_mem (b : Nat) (q : Quench) (s : State) :
    (recordReport b q s).2.mem = s.mem := by simp only [recordReport, State.setEl_mem, setSkid_mem, foldl_mem, implies_true]
@[simp] theorem reportAsync_mem (b : Nat) (q : Quench) (s : State) :
    (reportAsync b q s).mem = s.mem := by simp only [reportAsync, asyncEvent_mem, recordReport_mem]
@[simp] theorem endWindow_mem (b : Nat) (s : State) :
    (endWindow b s).mem = s.mem := by simp only [endWindow, State.modBench_mem]
@[simp] theorem sendQuench_mem (l : Nat) (q : Quench) (leave : Nat) (s : State) :
    (sendQuench l q leave s).mem = s.mem := by cases s; rfl
@[simp] theorem requestQuench_mem (b src dclk : Nat) (stamp : W40) (s : State) :
    (requestQuench b src dclk stamp s).2.mem = s.mem := by unfold requestQuench; (repeat' split) <;> (try simp only [State.modBench_mem, recordReport_mem, endWindow_mem, sendQuench_mem, ite_snd_mem, ite_self, foldl_mem, implies_true])
@[simp] theorem recallQuench_mem (l b : Nat) (s : State) :
    (recallQuench l b s).mem = s.mem := by unfold recallQuench; (repeat' split) <;> (try simp only [State.modBench_mem, reportAsync_mem, endWindow_mem, ite_mem, ite_self])
@[simp] theorem recallQuenches_mem (l : Nat) (s : State) :
    (recallQuenches l s).mem = s.mem := by simp only [recallQuenches, recallQuench_mem, foldl_mem, implies_true]
@[simp] theorem quenchCmdAct_mem (b : Nat) (v : W64) (s : State) :
    (quenchCmdAct b v s).1.mem = s.mem := by simp only [quenchCmdAct, asyncEvent_mem, requestQuench_mem, ite_fst_mem, ite_self, foldl_mem, implies_true]
@[simp] theorem resumeCmdAct_mem (b : Nat) (v : W64) (s : State) :
    (resumeCmdAct b v s).1.mem = s.mem := by unfold resumeCmdAct; (repeat' split) <;> (try simp only [State.setEl_mem, State.send_mem, State.modBench_mem, foldl_mem, implies_true])
@[simp] theorem takeReport_mem (l b : Nat) (q : Quench) (es : List (Nat × Nat × W40)) (s : State) :
    (takeReport l b q es s).mem = s.mem := by simp only [takeReport, State.modBench_mem, setSkid_mem, reportAsync_mem, ite_mem, ite_self]
@[simp] theorem quenchReport_mem (l : Nat) (hdr : W40) (pay : List W40) (s : State) :
    (quenchReport l hdr pay s).mem = s.mem := by unfold quenchReport; dsimp only; (repeat' split) <;> (try simp only [frameError_mem, setSkid_mem, takeReport_mem])
@[simp] theorem windowCloses_mem (b : Nat) (s : State) :
    (windowCloses b s).mem = s.mem := by unfold windowCloses; (repeat' split) <;> (try simp only [advanceTo_mem, reportAsync_mem, endWindow_mem])
@[simp] theorem takeAck_mem (l : Nat) (req : BitVec 16) (st b : Nat) (s : State) :
    (takeAck l req st b s).mem = s.mem := by simp only [takeAck, State.setEl_mem, State.modBench_mem, ite_mem, ite_self]
@[simp] theorem ackFrame_mem (l : Nat) (hdr : W40) (s : State) :
    (ackFrame l hdr s).mem = s.mem := by simp only [ackFrame, frameError_mem, takeAck_mem, ite_mem, ite_self, foldl_mem, implies_true]

/-! ## Sequencer -/

@[simp] theorem sqConfigAct_mem (q : Nat) (v : W64) (s : State) :
    (sqConfigAct q v s).1.mem = s.mem := by simp only [sqConfigAct, writeShadowed_mem, ite_fst_mem, ite_self]
@[simp] theorem sqInputsAct_mem (e : Nat) (v : W64) (s : State) :
    (sqInputsAct e v s).1.mem = s.mem := by unfold sqInputsAct; dsimp only; (repeat' split) <;> (try simp only [writeShadowed_mem])
@[simp] theorem sqLevelAct_mem (e : Nat) (v : W64) (s : State) :
    (sqLevelAct e v s).1.mem = s.mem := by simp only [sqLevelAct, writeShadowed_mem, ite_fst_mem, ite_self]
@[simp] theorem sqActionAct_mem (e : Nat) (v : W64) (s : State) :
    (sqActionAct e v s).1.mem = s.mem := by simp only [sqActionAct, writeShadowed_mem, ite_fst_mem, ite_self]
@[simp] theorem sqCntConfigAct_mem (e : Nat) (v : W64) (s : State) :
    (sqCntConfigAct e v s).1.mem = s.mem := by unfold sqCntConfigAct; dsimp only; (repeat' split) <;> (try simp only [writeShadowed_mem])
@[simp] theorem holdoffSelAct_mem (b : Nat) (v : W64) (s : State) :
    (holdoffSelAct b v s).1.mem = s.mem := by unfold holdoffSelAct; (repeat' split) <;> (try simp only [writeShadowed_mem])
@[simp] theorem trigPulseAct_mem (n : Nat) (v : W64) (s : State) :
    (trigPulseAct n v s).1.mem = s.mem := by simp only [trigPulseAct, State.put_mem, ite_fst_mem, ite_self]
@[simp] theorem setCounters_mem (q : Nat) (cs : List Nat) (s : State) :
    (setCounters q cs s).mem = s.mem := by simp only [setCounters, State.setN_mem, foldl_mem, implies_true]
@[simp] theorem setMark_mem (q m : Nat) (r : Row) (s : State) :
    (setMark q m r s).mem = s.mem := by cases s; rfl
@[simp] theorem setLine_mem (k : Nat) (v : Bool) (t : Int) (s : State) :
    (setLine k v t s).mem = s.mem := by cases s; rfl
@[simp] theorem xsActions_mem (q : Nat) (a : W64) (t : Int) (s : State) :
    (xsActions q a t s).mem = s.mem := by simp only [xsActions, setLine_mem, ite_mem, ite_self, foldl_mem, implies_true]
@[simp] theorem doActions_mem (b q level : Nat) (r : Row) (a : W64) (s : State) :
    (doActions b q level r a s).2.mem = s.mem := by simp only [doActions, State.inc_mem, postEvent_mem, requestQuench_mem, setMark_mem, xsActions_mem, ite_mem, ite_snd_mem, ite_self]
@[simp] theorem sqStep_mem (b q : Nat) (r : Row) (s : State) :
    (sqStep b q r s).2.mem = s.mem := by unfold sqStep; dsimp only; (repeat' split) <;> (try simp only [State.setEl_mem, State.inc_mem, State.setSeqx_mem, setCounters_mem, doActions_mem])
@[simp] theorem clearLines_mem (q : Nat) (s : State) :
    (clearLines q s).mem = s.mem := by cases s; rfl
@[simp] theorem sqArm_mem (q : Nat) (s : State) :
    (sqArm q s).mem = s.mem := by cases s; rfl
@[simp] theorem sqStop_mem (q : Nat) (s : State) :
    (sqStop q s).mem = s.mem := by simp only [sqStop, State.setEl_mem]
@[simp] theorem stepBench_mem (b : Nat) (r : Row) (s : State) : (stepBench b r s).2.mem = s.mem := by
  unfold stepBench
  exact foldl_snd_mem _ _ _ (fun p q => sqStep_mem ..)

/-! ## Segment -/

@[simp] theorem State.modSeg_mem (s : State) (b : Nat) (f : Seg → Seg) :
    (State.modSeg s b f).mem = s.mem := by simp only [State.modSeg, State.modBench_mem]
@[simp] theorem State.setTrigState_mem (s : State) (b : Nat) (x : TrigState) :
    (State.setTrigState s b x).mem = s.mem := by simp only [State.setTrigState, State.setN_mem]
@[simp] theorem refreshGate_mem (b : Nat) (s : State) :
    (refreshGate b s).mem = s.mem := by simp only [refreshGate, State.setEl_mem]
@[simp] theorem takeTrigger_mem (b : Nat) (r : Row) (sq level rank : Nat) (engine : Bool) (post : W40) (s : State) :
    (takeTrigger b r sq level rank engine post s).2.mem = s.mem := by simp only [takeTrigger, State.modSeg_mem, State.setTrigState_mem, ite_snd_mem, ite_self]
@[simp] theorem takeResolve_mem (b : Nat) (r : Row) (sq level m : Nat) (mark : Option (W40 × Int)) (s : State) :
    (takeResolve b r sq level m mark s).2.mem = s.mem := by simp only [takeResolve, State.drawn_mem, State.modSeg_mem, ite_mem, ite_snd_mem, ite_self]
@[simp] theorem takeAct_mem (b : Nat) (r : Row) (lead : Nat × Nat) (post : W40) (a : Act) (s : State) :
    (takeAct b r lead post a s).2.mem = s.mem := by unfold takeAct; (repeat' split) <;> (try simp only [takeTrigger_mem, takeResolve_mem])
@[simp] theorem takeActs_mem (b : Nat) (r : Row) (lead : Nat × Nat) (post : W40) (l : List Act) (s : State) :
    (takeActs b r lead post l s).2.mem = s.mem := by
  induction l generalizing s with
  | nil => rfl
  | cons a t ih => rw [takeActs]; dsimp only; rw [ih, takeAct_mem]
@[simp] theorem takeStore_mem (b : Nat) (r : Row) (inside start : Bool) (acc : SlotRows) (s : State) :
    (takeStore b r inside start acc s).2.mem = s.mem := by simp only [takeStore, State.modSeg_mem, ite_snd_mem, ite_self]
@[simp] theorem takeStores_mem (b : Nat) (r : Row) (inside : Bool) (l : List Act) (acc : SlotRows) (s : State) :
    (takeStores b r inside l acc s).2.mem = s.mem := by
  induction l generalizing acc s with
  | nil => rfl
  | cons a t ih =>
    unfold takeStores; dsimp only; rw [ih]
    split <;> simp only [takeStore_mem]
@[simp] theorem openSegment_mem (b : Nat) (r : Row) (hist : List (Nat × W40 × Int)) (s : State) :
    (openSegment b r hist s).mem = s.mem := by cases s; rfl
@[simp] theorem closeSegment_mem (b : Nat) (r : Row) (lead : Nat × Nat) (hold : Nat × Nat) (s : State) :
    (closeSegment b r lead hold s).2.mem = s.mem := by simp only [closeSegment, State.setN_mem, State.modSeg_mem, State.setTrigState_mem, ite_snd_mem, ite_self]
@[simp] theorem holdoffRow_mem (b : Nat) (d : RowDec) (s : State) :
    (holdoffRow b d s).2.mem = s.mem := by simp only [holdoffRow, State.modSeg_mem, State.setTrigState_mem, ite_snd_mem, ite_self]
@[simp] theorem decideRow_mem (b : Nat) (d : RowDec) (before : SlotRows) (s : State) :
    (decideRow b d before s).2.mem = s.mem := by simp only [decideRow, State.modBench_mem, State.modSeg_mem, takeActs_mem, takeStores_mem, openSegment_mem, closeSegment_mem, holdoffRow_mem, ite_mem, ite_snd_mem, ite_self]
@[simp] theorem decideRows_mem (b : Nat) (l : List RowDec) (acc : SlotRows) (s : State) :
    (decideRows b l acc s).2.mem = s.mem := by
  induction l generalizing acc s with
  | nil => rfl
  | cons d t ih => rw [decideRows, ih, decideRow_mem]
@[simp] theorem decideSlot_mem (b : Nat) (ds : List RowDec) (s : State) :
    (decideSlot b ds s).mem = s.mem := by simp only [decideSlot, State.modBench_mem, State.modSeg_mem, refreshGate_mem, decideRows_mem, ite_mem, ite_self]
@[simp] theorem settleN_mem (b n : Nat) (s : State) : (settleN b n s).mem = s.mem := by
  induction n generalizing s with
  | zero => rfl
  | succ n ih =>
    rw [settleN]; split
    · rfl
    · rw [ih, decideSlot_mem, State.modBench_mem]
@[simp] theorem settle_mem (b : Nat) (s : State) :
    (settle b s).mem = s.mem := by simp only [settle, settleN_mem]

/-! ## Queues -/

@[simp] theorem qClaimAct_mem (b : Nat) (v : W64) (s : State) :
    (qClaimAct b v s).1.mem = s.mem := by simp only [qClaimAct, State.setN_mem, ite_fst_mem, ite_self]
@[simp] theorem qReleaseAct_mem (b : Nat) (v : W64) (s : State) :
    (qReleaseAct b v s).1.mem = s.mem := by simp only [qReleaseAct, freeQueue_mem, ite_fst_mem, ite_self]
@[simp] theorem qFlushAct_mem (q : Nat) (v : W64) (s : State) :
    (qFlushAct q v s).1.mem = s.mem := by simp only [qFlushAct, flushQueue_mem, ite_fst_mem, ite_self]
@[simp] theorem qResetAct_mem (q : Nat) (v : W64) (s : State) :
    (qResetAct q v s).1.mem = s.mem := by simp only [qResetAct, resetQueue_mem, ite_fst_mem, ite_self]
@[simp] theorem qPopAct_mem (q : Nat) (s : State) :
    (qPopAct q s).1.mem = s.mem := by unfold qPopAct; dsimp only; (repeat' split) <;> (try simp only [State.drawn_mem, State.setQueue_mem, releaseLink_mem, advIndex_mem])
@[simp] theorem resetStoreList_mem (stream : Nat) (s : State) :
    (resetStoreList stream s).mem = s.mem := by unfold resetStoreList; (try dsimp only); repeat' (first | rfl | (simp only [releaseLink_mem]; done) | split | (refine (foldl_mem _ _ _ ?_).trans ?_; intro _ _))
@[simp] theorem forceQueue_mem (q : Nat) (s : State) :
    (forceQueue q s).mem = s.mem := by simp only [forceQueue, faultBench_mem, resetQueue_mem]
@[simp] theorem pointerRecord_mem (q : Nat) (s : State) :
    (pointerRecord q s).mem = s.mem := by simp only [pointerRecord, raiseError_mem]
@[simp] theorem forceList_mem (stream : Nat) (s : State) :
    (forceList stream s).mem = s.mem := by simp only [forceList, faultBench_mem, raiseError_mem, resetStoreList_mem]
@[simp] theorem sweepDone_mem (q : Nat) (s : State) :
    (sweepDone q s).mem = s.mem := by simp only [sweepDone, State.modQueue_mem, advanceTo_mem, pointerRecord_mem, ite_mem, ite_self]
@[simp] theorem fenceBank_mem (k : Nat) (s : State) :
    (fenceBank k s).mem = s.mem := by simp only [fenceBank, State.setEl_mem, State.setN_mem, State.setMode_mem]
@[simp] theorem poolError_mem (k : Nat) (s : State) :
    (poolError k s).mem = s.mem := by simp only [poolError, raiseError_mem, forceQueue_mem, forceList_mem, fenceBank_mem, foldl_mem, implies_true]
@[simp] theorem discardDrains_mem (s : State) :
    (discardDrains s).mem = s.mem := by simp only [discardDrains, State.modQueue_mem, discardAll_mem, foldl_mem, implies_true]

/-! ## Planisher -/

@[simp] theorem State.setDirAt_mem (s : State) (b pos : Nat) (e : DirEntry) :
    (State.setDirAt s b pos e).mem = s.mem := by simp only [State.setDirAt, State.setDir_mem]
@[simp] theorem dropHand_mem (k : Nat) (s : State) :
    (dropHand k s).mem = s.mem := by unfold dropHand; (repeat' split) <;> (try simp only [State.modStream_mem, State.modQueue_mem, releaseLink_mem])
@[simp] theorem commitCell_mem (k : Nat) (s : State) :
    (commitCell k s).mem = s.mem := by unfold commitCell; dsimp only; (repeat' split) <;> (try simp only [State.inc_mem, State.setStream_mem, State.setPacket_mem, acceptReq_mem, noteQueue_mem, offerPacket_mem, State.setDirAt_mem])
@[simp] theorem appendWords_mem (k : Nat) (ws : List W40) (s : State) :
    (appendWords k ws s).mem = s.mem := by simp only [appendWords, State.modStream_mem, commitCell_mem, ite_mem, ite_self]
@[simp] theorem padCell_mem (k : Nat) (s : State) :
    (padCell k s).mem = s.mem := by simp only [padCell, appendWords_mem, ite_mem, ite_self]
theorem Put.andThen_mem (p : Put) (f : State → Put) (h : ∀ t, (f t).1.mem = t.mem) : (p.andThen f).1.mem = p.1.mem := by
  obtain ⟨s, c⟩ := p
  cases c with
  | none => exact h s
  | some c => rfl
@[simp] theorem takeHand_mem (k : Nat) (s : State) : (takeHand k s).1.mem = s.mem := by
  unfold takeHand
  split
  · rfl
  · split
    · rfl
    · split
      · exact State.modStream_mem ..
      · have h := allocPacket_mem { kind := .storeCell, bench := some (k / 16), cells := [], complete := false } .acquisition
          (k % 16) 4 s
        split <;> rename_i e <;> rw [e] at h
        · exact h
        · dsimp only
          split
          · rw [State.modStream_mem]; exact h
          · rw [noteQueue_mem, State.modStream_mem]; exact h
@[simp] theorem putOne_mem (k : Nat) (ws : List W40) (s : State) : (putOne k ws s).1.mem = s.mem := by
  unfold putOne
  split
  · exact appendWords_mem ..
  · rw [Put.andThen_mem _ _ (fun t => appendWords_mem k ws t), takeHand_mem, padCell_mem]
@[simp] theorem putVec_mem (k ty n g delta : Nat) (vals : List W40) (s : State) :
    (putVec k ty n g delta vals s).1.mem = s.mem := by
  induction n generalizing g delta vals s with
  | zero => rfl
  | succ n ih =>
    unfold putVec
    split
    · rfl
    · dsimp only
      split
      · rw [ih, appendWords_mem]
      · refine (Put.andThen_mem _ _ (fun t => ?_)).trans ?_
        · rw [ih, appendWords_mem]
        · rw [takeHand_mem, padCell_mem]
@[simp] theorem putRec_mem (k : Nat) (r : Rec) (s : State) : (putRec k r s).1.mem = s.mem := by
  unfold putRec; split
  · exact putOne_mem ..
  · exact putVec_mem ..
@[simp] theorem giveUp_mem (b seg : Nat) (s : State) :
    (giveUp b seg s).mem = s.mem := by cases s; rfl
@[simp] theorem leaveIngot_mem (k : Nat) (s : State) :
    (leaveIngot k s).mem = s.mem := by unfold leaveIngot; (repeat' split) <;> (try simp only [State.modStream_mem, State.setDirAt_mem])
@[simp] theorem openIngot_mem (k pos seg : Nat) (s : State) :
    (openIngot k pos seg s).mem = s.mem := by simp only [openIngot, State.setStream_mem, State.setDirAt_mem]
@[simp] theorem noSpace_mem (k : Nat) (s : State) :
    (noSpace k s).mem = s.mem := by cases s; rfl
@[simp] theorem chooseIngot_mem (k : Nat) (keep : Option Int) (n : Nat) (s : State) : (chooseIngot k keep n s).2.mem = s.mem := by
  induction n generalizing s with
  | zero => rfl
  | succ n ih =>
    unfold chooseIngot
    split
    · rfl
    · split
      · split
        · exact noSpace_mem ..
        · rw [ih, giveUp_mem]
      · rw [State.modStream_mem, State.modSeg_mem, noSpace_mem]
@[simp] theorem afterSync_mem (k d : Nat) (s : State) :
    (afterSync k d s).mem = s.mem := by simp only [afterSync, State.modStream_mem]
@[simp] theorem setCtx_mem (k d : Nat) (st : W40) (s : State) :
    (setCtx k d st s).mem = s.mem := by simp only [setCtx, State.modStream_mem]
@[simp] theorem groupValues_mem (k : Nat) (l : List Nat) (s : State) : (groupValues k l s).2.mem = s.mem := by
  induction l generalizing s with
  | nil => rfl
  | cons g t ih =>
    unfold groupValues; split
    · exact ih s
    · dsimp only; rw [ih, State.drawn_mem]
theorem putThen_mem (k : Nat) (r : Rec) (f : State → State) (s : State) (h : ∀ t, (f t).mem = t.mem) :
    (putThen k r f s).1.mem = s.mem := by
  rw [putThen, Put.andThen_mem _ _ h, putRec_mem]
theorem tryRec_mem (k : Nat) (r : Rec) (f : State → State) (s : State) (h : ∀ t, (f t).mem = t.mem) (p : Put)
    (e : tryRec k r f s = some p) : p.1.mem = s.mem := by
  unfold tryRec at e; split at e
  · cases e; exact putThen_mem _ _ _ _ h
  · cases e
theorem tryAll_mem (k : Nat) (l : List (State → Option (Rec × (State → State)))) (s : State)
    (h : ∀ m ∈ l, ∀ u r f, m u = some (r, f) → ∀ t, (f t).mem = t.mem) :
    (tryAll k l s).2.mem = s.mem ∧ ∀ p, (tryAll k l s).1 = some p → p.1.mem = s.mem := by
  induction l generalizing s with
  | nil => exact ⟨rfl, fun p e => by cases e; rfl⟩
  | cons m t ih =>
    have ht := fun u => ih u (fun m' hm => h m' (List.mem_cons_of_mem _ hm))
    unfold tryAll
    split
    · exact ht s
    · rename_i r f e
      have hf := h m List.mem_cons_self s r f e
      split
      · exact ⟨rfl, fun p e => by cases e⟩
      · rename_i s1 e1
        have h1 : s1.mem = s.mem := tryRec_mem k r f s hf _ e1
        exact ⟨((ht s1).1).trans h1, fun p e => ((ht s1).2 p e).trans h1⟩
      · rename_i s1 c e1
        have h1 : s1.mem = s.mem := tryRec_mem k r f s hf _ e1
        exact ⟨h1, fun p e => by cases e; exact h1⟩
theorem needCtx_mem (k d seg interval : Nat) (u : State) (r : Rec) (f : State → State)
    (e : needCtx k d seg interval u = some (r, f)) (t : State) : (f t).mem = t.mem := by
  unfold needCtx at e
  dsimp only at e
  split at e
  · cases e; exact afterSync_mem ..
  · split at e
    · cases e; exact State.modStream_mem ..
    · cases e
theorem needClock_mem (k d : Nat) (u : State) (r : Rec) (f : State → State)
    (e : needClock k d u = some (r, f)) (t : State) : (f t).mem = t.mem := by
  unfold needClock at e
  split at e
  · cases e; exact State.modStream_mem ..
  · cases e
theorem needDelta_mem (k d seg bits : Nat) (u : State) (r : Rec) (f : State → State)
    (e : needDelta k d seg bits u = some (r, f)) (t : State) : (f t).mem = t.mem := by
  unfold needDelta at e
  dsimp only at e
  split at e
  · cases e
  · split at e
    · cases e; exact setCtx_mem ..
    · cases e; exact afterSync_mem ..
@[simp] theorem ctxNow_mem (k d : Nat) (s : State) :
    (ctxNow k d s).mem = s.mem := by simp only [ctxNow, setCtx_mem]
@[simp] theorem snapRuns_mem (k d : Nat) (s : State) : (snapRuns k d s).2.mem = s.mem := groupValues_mem ..
theorem dataRecs_mem (k d seg : Nat) (full : Bool) (g : Nat) (vals : List W40) (m : State → Option (Rec × (State → State)))
    (h : m ∈ dataRecs k d seg full g vals) (u : State) (r : Rec) (f : State → State) (e : m u = some (r, f)) (t : State) :
    (f t).mem = t.mem := by
  simp only [dataRecs, List.mem_cons, List.not_mem_nil, or_false] at h
  obtain rfl | rfl | rfl := h
  · exact needClock_mem _ _ _ _ _ e t
  · exact needDelta_mem _ _ _ _ _ _ _ e t
  · cases e; exact ctxNow_mem ..
theorem itemRecs_mem (k dr seg interval : Nat) (it : Item) (m : State → Option (Rec × (State → State)))
    (h : m ∈ itemRecs k dr seg interval it) (u : State) (r : Rec) (f : State → State) (e : m u = some (r, f)) (t : State) :
    (f t).mem = t.mem := by
  cases it with
  | gap d c n q =>
    simp only [itemRecs, List.mem_cons, List.not_mem_nil, or_false] at h; subst h; cases e; rfl
  | resync d =>
    simp only [itemRecs, List.mem_cons, List.not_mem_nil, or_false] at h; subst h; cases e; exact afterSync_mem ..
  | snap d g vals => exact dataRecs_mem _ _ _ _ _ _ m h u r f e t
  | ctx d =>
    simp only [itemRecs, List.mem_cons, List.not_mem_nil, or_false] at h; subst h; exact needCtx_mem _ _ _ _ _ _ _ e t
  | data d full g vals => exact dataRecs_mem _ _ _ _ _ _ m h u r f e t
  | event ev =>
    simp only [itemRecs, List.mem_cons, List.not_mem_nil, or_false] at h
    obtain rfl | rfl | rfl := h
    · exact needCtx_mem _ _ _ _ _ _ _ e t
    · exact needDelta_mem _ _ _ _ _ _ _ e t
    · cases e; exact ctxNow_mem ..
  | ending reason =>
    simp only [itemRecs, List.mem_cons, List.not_mem_nil, or_false] at h; subst h; cases e; rfl
@[simp] theorem undo_mem (k cause : Nat) (s : State) :
    (undo k cause s).mem = s.mem := by simp only [undo, State.modStream_mem, refusedCell_mem, ite_mem, ite_self]
theorem startRecs_mem (k seg : Nat) (s : State) :
    (startRecs k seg s).2.mem = s.mem ∧
    ∀ m ∈ (startRecs k seg s).1, ∀ u r f, m u = some (r, f) → ∀ t, (f t).mem = t.mem := by
  unfold startRecs
  dsimp only
  split
  · refine ⟨rfl, fun m hm u r f e t => ?_⟩
    simp only [List.mem_cons, List.not_mem_nil, or_false] at hm; subst hm; cases e; exact State.modStream_mem ..
  · split
    · exact ⟨rfl, fun m hm => nomatch hm⟩
    · split
      · refine ⟨rfl, fun m hm u r f e t => ?_⟩
        simp only [List.mem_cons, List.not_mem_nil, or_false] at hm; subst hm; cases e
        rw [State.modStream_mem, afterSync_mem]
      · split
        · exact ⟨State.modStream_mem .., fun m hm => nomatch hm⟩
        · refine ⟨?_, fun m hm u r f e t => dataRecs_mem _ _ _ _ _ _ m hm u r f e t⟩
          rw [State.modStream_mem, groupValues_mem]
@[simp] theorem writeStarts_mem (k seg n : Nat) (s : State) : (writeStarts k seg n s).1.mem = s.mem := by
  induction n generalizing s with
  | zero => rfl
  | succ n ih =>
    have hs := startRecs_mem k seg s
    have ha := tryAll_mem k (startRecs k seg s).1 (startRecs k seg s).2 hs.2
    unfold writeStarts
    split
    · rfl
    · dsimp only
      split
      · rename_i t _ e; rw [e] at ha; rw [ih]; exact (ha.2 _ rfl).trans hs.1
      · exact undo_mem ..
      · rfl
@[simp] theorem startIngot_mem (k seg : Nat) (keep : Option Int) (s : State) : (startIngot k seg keep s).1.mem = s.mem := by
  unfold startIngot
  split
  · rfl
  · dsimp only
    split
    · rw [chooseIngot_mem, leaveIngot_mem, padCell_mem]
    · rw [writeStarts_mem, openIngot_mem, chooseIngot_mem, leaveIngot_mem, padCell_mem]
@[simp] theorem noteSpan_mem (k : Nat) (t : Int) (s : State) :
    (noteSpan k t s).mem = s.mem := by unfold noteSpan; (repeat' split) <;> (try simp only [State.modStream_mem])
@[simp] theorem writeHere_mem (k : Nat) (pr : PlanRow) (interval : Nat) (its : List Item) (s : State) :
    (writeHere k pr interval its s).2.1.mem = s.mem := by
  induction its generalizing s with
  | nil => rfl
  | cons it rest ih =>
    have ha := tryAll_mem k (itemRecs k pr.row.dclk pr.segment interval it) s
      (fun m hm u r f e t => itemRecs_mem k _ _ _ it m hm u r f e t)
    unfold writeHere
    split
    · rename_i t _ e; rw [e] at ha; rw [ih]; exact ha.2 _ rfl
    · rename_i t c _ e; rw [e] at ha; exact ha.2 _ rfl
    · rename_i t e; rw [e] at ha; exact ha.1
@[simp] theorem writeItems_mem (k : Nat) (pr : PlanRow) (interval n : Nat) (its : List Item) (s : State) :
    (writeItems k pr interval n its s).1.mem = s.mem := by
  induction n generalizing its s with
  | zero => rfl
  | succ n ih =>
    unfold writeItems
    dsimp only
    split
    · rw [noteSpan_mem, writeHere_mem]
    · rw [writeHere_mem]
    · refine (Put.andThen_mem _ _ (fun u => ih _ u)).trans ?_
      rw [startIngot_mem]
      split
      · rw [noteSpan_mem, writeHere_mem]
      · rw [writeHere_mem]
@[simp] theorem placeRow_mem (k : Nat) (pr : PlanRow) (interval : Nat) (its : List Item) (s : State) :
    (placeRow k pr interval its s).1.mem = s.mem := by
  unfold placeRow
  split
  · rfl
  · refine (Put.andThen_mem _ _ (fun t => ?_)).trans (writeStarts_mem ..)
    dsimp only
    split
    · exact writeItems_mem ..
    · split
      · dsimp only; split
        · rw [undo_mem, startIngot_mem]
        · exact startIngot_mem ..
      · exact undo_mem ..
@[simp] theorem keepWords_mem (k : Nat) (ws : List (Nat × Option W40)) (s : State) :
    (keepWords k ws s).mem = s.mem := by simp only [keepWords, State.modStream_mem]
@[simp] theorem noteGapped_mem (b seg : Nat) (s : State) :
    (noteGapped b seg s).mem = s.mem := by cases s; rfl
@[simp] theorem loseRow_mem (k : Nat) (pr : PlanRow) (cause events : Nat) (s : State) :
    (loseRow k pr cause events s).mem = s.mem := by simp only [loseRow, State.count_mem, State.inc_mem, State.modStream_mem, noteGapped_mem, ite_mem, ite_self]
@[simp] theorem growLaneGap_mem (k : Nat) (r : Row) (missing : List Nat) (s : State) :
    (growLaneGap k r missing s).mem = s.mem := by simp only [growLaneGap, State.modStream_mem]
@[simp] theorem dataItems_mem (k : Nat) (pr : PlanRow) (changed : List (Nat × W40)) (hidden : List Nat) (s : State) :
    (dataItems k pr changed hidden s).2.mem = s.mem := by simp only [dataItems, groupValues_mem]
@[simp] theorem laneGapItems_mem (k dr : Nat) (g : LaneGap) (s : State) : (laneGapItems k dr g s).2.mem = s.mem := by
  unfold laneGapItems; dsimp only; split
  · rfl
  · exact groupValues_mem ..
@[simp] theorem lostGapItems_mem (k : Nat) (g : Gap) (s : State) :
    (lostGapItems k g s).2.mem = s.mem := by simp only [lostGapItems, snapRuns_mem]
theorem gather_mem {α : Type} (f : α → State → List Item × State) (h : ∀ a s, (f a s).2.mem = s.mem) (l : List α) (s : State) :
    (gather f l s).2.mem = s.mem := by
  induction l generalizing s with
  | nil => rfl
  | cons a t ih => unfold gather; dsimp only; rw [ih, h]
@[simp] theorem finishRow_mem (k : Nat) (pr : PlanRow) (evs : List Event) (r : Put) : (finishRow k pr evs r).mem = r.1.mem := by
  unfold finishRow
  split
  · rw [State.modStream_mem]
  · rw [loseRow_mem]
@[simp] theorem storedRow_mem (k : Nat) (pr : PlanRow) (changed : List (Nat × W40)) (evs : List Event) (s : State) :
    (storedRow k pr changed evs s).mem = s.mem := by
  unfold storedRow
  dsimp only
  rw [finishRow_mem, placeRow_mem]
  split
  · rw [gather_mem _ (fun g u => laneGapItems_mem ..), gather_mem _ (fun g u => lostGapItems_mem ..)]
  · rw [dataItems_mem, gather_mem _ (fun g u => laneGapItems_mem ..), gather_mem _ (fun g u => lostGapItems_mem ..)]
@[simp] theorem unstoredRow_mem (k : Nat) (pr : PlanRow) (evs : List Event) (s : State) :
    (unstoredRow k pr evs s).mem = s.mem := by simp only [unstoredRow, placeRow_mem, finishRow_mem]
@[simp] theorem laneGapsOn_mem (k : Nat) (pr : PlanRow) (missing : List Nat) (off : Bool) (s : State) :
    (laneGapsOn k pr missing off s).mem = s.mem := by simp only [laneGapsOn, State.modStream_mem, growLaneGap_mem, ite_mem, ite_self]
@[simp] theorem reachRow_mem (k : Nat) (pr : PlanRow) (s : State) :
    (reachRow k pr s).mem = s.mem := by cases s; rfl
@[simp] theorem foreignRow_mem (k : Nat) (pr : PlanRow) (evs : List Event) (s0 : State) :
    (foreignRow k pr evs s0).mem = s0.mem := by simp only [foreignRow, placeRow_mem, laneGapItems_mem, gather_mem, finishRow_mem, unstoredRow_mem, laneGapsOn_mem, reachRow_mem, ite_mem, ite_self, implies_true]
@[simp] theorem streamRow_mem (k : Nat) (pr : PlanRow) (es : List Event) (s : State) :
    (streamRow k pr es s).mem = s.mem := by simp only [streamRow, State.modStream_mem, keepWords_mem, loseRow_mem, storedRow_mem, unstoredRow_mem, laneGapsOn_mem, reachRow_mem, foreignRow_mem, ite_mem, ite_self]
@[simp] theorem endStream_mem (k reason : Nat) (pr : PlanRow) (s : State) : (endStream k reason pr s).mem = s.mem := by
  unfold endStream; split
  · dsimp only; rw [State.setEl_mem, State.modStream_mem, placeRow_mem]
  · rfl
@[simp] theorem closeCell_mem (k : Nat) (s : State) :
    (closeCell k s).mem = s.mem := by simp only [closeCell, padCell_mem]
@[simp] theorem sealStream_mem (k seg : Nat) (start : Int) (s : State) :
    (sealStream k seg start s).mem = s.mem := by simp only [sealStream, State.setDirAt_mem, foldl_mem, implies_true]
@[simp] theorem writeEntry_mem (b seg : Nat) (e : SegEntry) (s : State) :
    (writeEntry b seg e s).mem = s.mem := by cases s; rfl
@[simp] theorem segmentClose_mem (b seg : Nat) (c : Closing) (reason : Nat) (s : State) :
    (segmentClose b seg c reason s).mem = s.mem := by simp only [segmentClose, State.modStream_mem, sealStream_mem, writeEntry_mem, ite_mem, ite_self, foldl_mem, implies_true]
@[simp] theorem endForSpace_mem (b seg : Nat) (pr : PlanRow) (s : State) :
    (endForSpace b seg pr s).mem = s.mem := by simp only [endForSpace, State.setN_mem, State.modBench_mem, State.setTrigState_mem, endStream_mem, ite_mem, ite_self, foldl_mem, implies_true]
@[simp] theorem snapAll_mem (k : Nat) (s : State) :
    (snapAll k s).mem = s.mem := by simp only [snapAll, State.modStream_mem]
@[simp] theorem planRow_mem (b : Nat) (pr : PlanRow) (s : State) :
    (planRow b pr s).mem = s.mem := by unfold planRow; (repeat' split) <;> (try simp only [State.modBench_mem, streamRow_mem, endStream_mem, segmentClose_mem, endForSpace_mem, snapAll_mem, ite_mem, ite_self, foldl_mem, implies_true])
@[simp] theorem planNext_mem (b : Nat) (s : State) :
    (planNext b s).mem = s.mem := by unfold planNext; (repeat' split) <;> (try simp only [State.modBench_mem, planRow_mem])
@[simp] theorem planAll_mem (b n : Nat) (s : State) : (planAll b n s).mem = s.mem := by
  induction n generalizing s with
  | zero => rfl
  | succ n ih =>
    rw [planAll]; split
    · rfl
    · rw [ih, planNext_mem]

/-! ## Journal -/

@[simp] theorem refreshMig_mem (s : State) :
    (refreshMig s).mem = s.mem := by unfold refreshMig; (repeat' split) <;> (try simp only [State.setEl_mem])
@[simp] theorem checkpointSealed_mem (src tgt chunks : Nat) (s : State) : (checkpointSealed src tgt chunks s).mem = s.mem := by
  have h (t : State) (m : Option Mig) : ({ t with mig := m } : State).mem = t.mem := by cases t; rfl
  unfold checkpointSealed
  split
  · rfl
  · split
    · dsimp only
      split
      · rw [journalAdd_mem, refreshMig_mem, h]
      · rw [refreshMig_mem, h]
    · rfl
@[simp] theorem sealEffect_mem (e : JEntry) (s : State) : (sealEffect e s).mem = s.mem := by
  unfold sealEffect
  split
  · cases s; rfl
  · dsimp only
    split
    · rw [State.setN_mem, State.setN_mem]
    · rw [State.setN_mem]
  · exact checkpointSealed_mem ..
  · rfl
@[simp] theorem sealFirst_mem (s : State) :
    (sealFirst s).mem = s.mem := by unfold sealFirst; (repeat' split) <;> (try simp only [State.setEl_mem, refreshJournal_mem, sealEffect_mem])
@[simp] theorem sealAll_mem (n : Nat) (s : State) : (sealAll n s).mem = s.mem := by
  induction n generalizing s with
  | zero => rfl
  | succ n ih =>
    rw [sealAll]; split
    · rfl
    · rw [ih, sealFirst_mem]
@[simp] theorem programOver_mem (s : State) :
    (programOver s).mem = s.mem := by simp only [programOver, enterSafe_mem, ite_mem, ite_self]
@[simp] theorem journalSealed_mem (s : State) :
    (journalSealed s).mem = s.mem := by simp only [journalSealed, sealFirst_mem, programOver_mem, ite_mem, ite_self]
@[simp] theorem blockRetired_mem (bad : Bool) (s : State) :
    (blockRetired bad s).mem = s.mem := by simp only [blockRetired, raiseError_mem, ite_mem, ite_self]
@[simp] theorem contentProgram_mem (s : State) :
    (contentProgram s).mem = s.mem := by simp only [contentProgram, State.drawn_mem, programOver_mem, blockRetired_mem, ite_mem, ite_self]

/-! ## Ranks -/

@[simp] theorem refreshStore_mem (s : State) :
    (refreshStore s).mem = s.mem := by simp only [refreshStore, State.setN_mem]
@[simp] theorem startMig_mem (src tgt : Nat) (s : State) :
    (startMig src tgt s).mem = s.mem := by simp only [startMig, State.setN_mem, State.setRank_mem, State.setMode_mem, toService_mem, refreshMig_mem]
@[simp] theorem noSpare_mem (r : Nat) (s : State) :
    (noSpare r s).mem = s.mem := by simp only [noSpare, State.setN_mem, State.setRank_mem, State.setMode_mem, raiseError_mem]
@[simp] theorem beginRetire_mem (r : Nat) (s : State) :
    (beginRetire r s).mem = s.mem := by unfold beginRetire; (repeat' split) <;> (try simp only [startMig_mem, noSpare_mem])
@[simp] theorem targetLost_mem (m : Mig) (s : State) :
    (targetLost m s).mem = s.mem := by simp only [targetLost, State.setN_mem, State.setRank_mem, State.setMode_mem, refreshMig_mem, beginRetire_mem, ite_mem, ite_self]
@[simp] theorem nextRetire_mem (s : State) :
    (nextRetire s).mem = s.mem := by unfold nextRetire; (repeat' split) <;> (try simp only [beginRetire_mem, targetLost_mem])
@[simp] theorem retireRank_mem (r : Nat) (s : State) :
    (retireRank r s).mem = s.mem := by unfold retireRank; (repeat' split) <;> (try simp only [State.setRank_mem, nextRetire_mem])
@[simp] theorem migDone_mem (m : Mig) (s : State) :
    (migDone m s).mem = s.mem := by simp only [migDone, State.setN_mem, State.setMode_mem, raiseError_mem, State.setHomeRanks_mem, refreshMig_mem, nextRetire_mem, foldl_mem, implies_true]
@[simp] theorem checkpoint_mem (m : Mig) (s : State) :
    (checkpoint m s).mem = s.mem := by simp only [checkpoint, journalAdd_mem, ite_mem, ite_self]
@[simp] theorem chunkCopied_mem (m : Mig) (s : State) :
    (chunkCopied m s).mem = s.mem := by simp only [chunkCopied, State.setMode_mem, refreshMig_mem, migDone_mem, checkpoint_mem, ite_mem, ite_self]
@[simp] theorem rankRetireAct_mem (v : W64) (s : State) :
    (rankRetireAct v s).1.mem = s.mem := by unfold rankRetireAct; (repeat' split) <;> (try simp only [retireRank_mem])
@[simp] theorem allSelfRefresh_mem (v : Bool) (s : State) :
    (allSelfRefresh v s).mem = s.mem := by simp only [allSelfRefresh, State.setRank_mem, foldl_mem, implies_true]
@[simp] theorem storeSpeedAct_mem (v : W64) (s : State) :
    (storeSpeedAct v s).1.mem = s.mem := by simp only [storeSpeedAct, State.put_mem, refreshStore_mem, allSelfRefresh_mem, ite_fst_mem, ite_self]
@[simp] theorem speedDone_mem (s : State) :
    (speedDone s).mem = s.mem := by simp only [speedDone, refreshStore_mem, allSelfRefresh_mem, ite_mem, ite_self]
@[simp] theorem loadDelays_mem (s : State) :
    (loadDelays s).mem = s.mem := by simp only [loadDelays, State.setEl_mem, State.drawn_mem, State.setChan_mem, refreshStore_mem, foldl_mem, implies_true]
@[simp] theorem delayLoadAct_mem (s : State) :
    (delayLoadAct s).1.mem = s.mem := by simp only [delayLoadAct, loadDelays_mem]
@[simp] theorem bandChange_mem (stack band : Nat) (s : State) :
    (bandChange stack band s).mem = s.mem := by simp only [bandChange, State.setChan_mem, ite_mem, ite_self, foldl_mem, implies_true]

/-! ## Golden -/

@[simp] theorem setAeCause_mem (a cause cell : Nat) (s : State) :
    (setAeCause a cause cell s).mem = s.mem := by simp only [setAeCause, State.setEl_mem]
@[simp] theorem trimAhead_mem (a lo : Nat) (s : State) :
    (trimAhead a lo s).mem = s.mem := by simp only [trimAhead, State.modEngine_mem, releaseLink_mem, foldl_mem, implies_true]
@[simp] theorem dropAhead_mem (a : Nat) (s : State) :
    (dropAhead a s).mem = s.mem := by unfold dropAhead; (try dsimp only); repeat' (first | rfl | (simp only [releaseLink_mem, trimAhead_mem]; done) | split | (refine (foldl_mem _ _ _ ?_).trans ?_; intro _ _))
@[simp] theorem finishEngine_mem (a : Nat) (failed : Bool) (s : State) :
    (finishEngine a failed s).mem = s.mem := by simp only [finishEngine, State.setN_mem, State.modEngine_mem, dropAhead_mem]

/-! ## Store -/

@[simp] theorem State.setRowTab_mem (s : State) (k : Nat) (t : List (Nat × Nat)) :
    (State.setRowTab s k t).mem = s.mem := by cases s; rfl
@[simp] theorem activateRows_mem (l : List (Nat × Nat)) (s : State) :
    (activateRows l s).mem = s.mem := by cases s; rfl
@[simp] theorem accessAt_mem (write : Bool) (c bk row : Nat) (s : State) (r : Nat) :
    (accessAt write c bk row s r).mem = s.mem := by cases s; rfl
@[simp] theorem accessRank_mem (write : Bool) (ingot cell : Nat) (s : State) (r : Nat) :
    (accessRank write ingot cell s r).mem = s.mem := by cases s; rfl
@[simp] theorem jobAccesses_mem (ranks : List Nat) (rows : List (Nat × Nat)) (s : State) :
    (jobAccesses ranks rows s).mem = s.mem := by cases s; rfl
@[simp] theorem correctedAt_mem (r bench : Nat) (detail : W64) (s : State) :
    (correctedAt r bench detail s).mem = s.mem := by simp only [correctedAt, State.inc_mem, State.setRank_mem, raiseError_mem, retireRank_mem, ite_mem, ite_self]
@[simp] theorem correctedError_mem (r ingot cell : Nat) (s : State) :
    (correctedError r ingot cell s).mem = s.mem := by simp only [correctedError, correctedAt_mem]
@[simp] theorem freezeAt_mem (r bench : Nat) (s : State) :
    (freezeAt r bench s).mem = s.mem := by simp only [freezeAt, State.drawn_mem, enterRecovery_mem, raiseError_mem, refreshStore_mem]
@[simp] theorem writeBackCell_mem (ingot cell : Nat) (s : State) :
    (writeBackCell ingot cell s).mem = s.mem := by simp only [writeBackCell, poisonCell_mem, accessRank_mem, foldl_mem, implies_true]
@[simp] theorem uncorrectableError_mem (r ingot cell : Nat) (s : State) :
    (uncorrectableError r ingot cell s).mem = s.mem := by simp only [uncorrectableError, State.inc_mem, raiseError_mem, retireRank_mem, freezeAt_mem, writeBackCell_mem, ite_mem, ite_self]
@[simp] theorem reserveAccess_mem (c r : Nat) (errs : List Nat) (s : State) :
    (reserveAccess c r errs s).mem = s.mem := by simp only [reserveAccess, State.inc_mem, State.drawn_mem, enterRecovery_mem, raiseError_mem, accessAt_mem, correctedAt_mem, ite_mem, ite_self, foldl_mem, implies_true]
@[simp] theorem State.dropReq_mem (s : State) (i : Nat) :
    (State.dropReq s i).mem = s.mem := by cases s; rfl
@[simp] theorem goldArrives_mem (r : StoreReq) (a pkt : Nat) (s : State) :
    (goldArrives r a pkt s).mem = s.mem := by simp only [goldArrives, State.modEngine_mem, State.setPacket_mem, readCell_mem, finishEngine_mem, ite_mem, ite_self]
@[simp] theorem refreshBank_mem (c bk : Nat) (s : State) :
    (refreshBank c bk s).mem = s.mem := by simp only [refreshBank, State.setChan_mem, State.setRowTab_mem]
@[simp] theorem poisonClearAct_mem (s : State) :
    (poisonClearAct s).1.mem = s.mem := by simp only [poisonClearAct, State.clearEls_mem]
@[simp] theorem commitStage_mem (f : Nat) (s : State) :
    (commitStage f s).mem = s.mem := by unfold commitStage; (repeat' split) <;> (try simp only [State.setStage_mem, acceptReq_mem])
@[simp] theorem commitStages_mem (cells : Nat → Nat → Bool) (s : State) :
    (commitStages cells s).mem = s.mem := by simp only [commitStages, commitStage_mem, foldl_mem, implies_true]
@[simp] theorem targetFails_mem (m : Mig) (s : State) :
    (targetFails m s).mem = s.mem := by simp only [targetFails, State.inc_mem, State.drawn_mem, raiseError_mem, refreshStore_mem, targetLost_mem, freezeAt_mem, ite_mem, ite_self]

/-! ## Assay -/

@[simp] theorem goldSealAct_mem (a : Nat) (v : W64) (s : State) :
    (goldSealAct a v s).1.mem = s.mem := by simp only [goldSealAct, State.setN_mem, toService_mem, ite_fst_mem, ite_self]
@[simp] theorem judgeTrace_mem (a : Nat) (s : State) :
    (judgeTrace a s).mem = s.mem := by unfold judgeTrace; (repeat' split) <;> (try simp only [State.setN_mem, State.modEngine_mem, setAeCause_mem])
@[simp] theorem unsealTrace_mem (a : Nat) (s : State) :
    (unsealTrace a s).mem = s.mem := by simp only [unsealTrace, State.setN_mem, ite_mem, ite_self]
@[simp] theorem unsealCell_mem (b pos cell : Nat) (s : State) :
    (unsealCell b pos cell s).mem = s.mem := by simp only [unsealCell, unsealTrace_mem, ite_mem, ite_self, foldl_mem, implies_true]
@[simp] theorem aeSetAct_mem (o : ObjInfo) (a e : Nat) (v : W64) (s : State) :
    (aeSetAct o a e v s).1.mem = s.mem := by simp only [aeSetAct, State.put_mem, ite_fst_mem, ite_self]
@[simp] theorem aeTraceAct_mem (o : ObjInfo) (a e : Nat) (v : W64) (s : State) :
    (aeTraceAct o a e v s).1.mem = s.mem := by simp only [aeTraceAct, State.put_mem, unsealTrace_mem, ite_fst_mem, ite_self]
@[simp] theorem aeConfigAct_mem (a : Nat) (v : W64) (s : State) :
    (aeConfigAct a v s).1.mem = s.mem := by simp only [aeConfigAct, aeSetAct_mem, ite_fst_mem, ite_self]
@[simp] theorem aeListAct_mem (e : Nat) (v : W64) (s : State) :
    (aeListAct e v s).1.mem = s.mem := by simp only [aeListAct, aeTraceAct_mem, ite_fst_mem, ite_self]
@[simp] theorem goldFirstAct_mem (a : Nat) (v : W64) (s : State) :
    (goldFirstAct a v s).1.mem = s.mem := by simp only [goldFirstAct, aeTraceAct_mem, ite_fst_mem, ite_self]
@[simp] theorem goldCellsAct_mem (a : Nat) (v : W64) (s : State) :
    (goldCellsAct a v s).1.mem = s.mem := by simp only [goldCellsAct, aeTraceAct_mem, ite_fst_mem, ite_self]
@[simp] theorem aeArm_mem (a : Nat) (s : State) :
    (aeArm a s).mem = s.mem := by simp only [aeArm, State.setEl_mem, State.setN_mem, State.clearEls_mem, State.setEngine_mem, dropAhead_mem, ite_mem, ite_self, foldl_mem, implies_true]
@[simp] theorem stopEngine_mem (a : Nat) (s : State) :
    (stopEngine a s).mem = s.mem := by simp only [stopEngine, State.setN_mem, State.modEngine_mem, dropAhead_mem, ite_mem, ite_self]
@[simp] theorem stopEngines_mem (b : Nat) (s : State) :
    (stopEngines b s).mem = s.mem := by simp only [stopEngines, stopEngine_mem, foldl_mem, implies_true]
@[simp] theorem addActs_mem (b a : Nat) (r : Row) (acts : List Act) (s : State) :
    (addActs b a r acts s).mem = s.mem := by simp only [addActs, State.modBench_mem]
@[simp] theorem abortEngine_mem (b a cause cell : Nat) (r : Row) (s : State) :
    (abortEngine b a cause cell r s).mem = s.mem := by simp only [abortEngine, State.setN_mem, State.modEngine_mem, raiseError_mem, setAeCause_mem, dropAhead_mem, addActs_mem]
@[simp] theorem writeReport_mem (k : Nat) (l : List W64) (s : State) : (writeReport k l s).mem = s.mem := by
  induction l generalizing k s with
  | nil => rfl
  | cons w t ih => rw [writeReport, ih, State.setEl_mem]
@[simp] theorem giveVerdict_mem (b a : Nat) (r : Row) (e : Engine) (ps : List Probe) (s : State) :
    (giveVerdict b a r e ps s).mem = s.mem := by simp only [giveVerdict, requestQuench_mem, addActs_mem, writeReport_mem, ite_snd_mem, ite_self]
@[simp] theorem compareRow_mem (b a : Nat) (r : Row) (e : Engine) (words : Nat) (s : State) :
    (compareRow b a r e words s).mem = s.mem := by simp only [compareRow, State.setEl_mem, State.count_mem, State.inc_mem, State.setEngine_mem, State.modEngine_mem, trimAhead_mem, abortEngine_mem, giveVerdict_mem, finishEngine_mem, ite_mem, ite_self]
@[simp] theorem countGap_mem (a rows : Nat) (s : State) :
    (countGap a rows s).mem = s.mem := by cases s; rfl
@[simp] theorem engineRow_mem (b a : Nat) (r : Row) (k : Nat) (s : State) :
    (engineRow b a r k s).mem = s.mem := by unfold engineRow; dsimp only; (repeat' split) <;> (try simp only [State.setN_mem, finishEngine_mem, abortEngine_mem, compareRow_mem, countGap_mem])
@[simp] theorem assayCompare_mem (a : Nat) (inHand : Bool) (s : State) :
    (assayCompare a inHand s).mem = s.mem := by unfold assayCompare; dsimp only; (repeat' split) <;> (try simp only [State.modEngine_mem, settle_mem, abortEngine_mem, countGap_mem, engineRow_mem])

/-! ## Ends -/

@[simp] theorem endCommit_mem (b : Nat) (s : State) :
    (endCommit b s).mem = s.mem := by simp only [endCommit, State.setEl_mem, State.modBench_mem, ite_mem, ite_self]
@[simp] theorem endShadows_mem (b : Nat) (s : State) :
    (endShadows b s).mem = s.mem := by simp only [endShadows, refreshDirty_mem, applyCopies_mem]
@[simp] theorem pendingGaps_mem (k : Nat) (s : State) : (pendingGaps k s).2.mem = s.mem :=
  gather_mem _ (fun g s => lostGapItems_mem ..) _ _
@[simp] theorem finishStream_mem (seg record : Nat) (gaps : Bool) (lead : Nat × Nat) (es : List Event) (row : Option RowKey) (s0 : State) (k : Nat) :
    (finishStream seg record gaps lead es row s0 k).mem = s0.mem := by
  unfold finishStream
  split
  · rfl
  · have hg (t : State) : (if gaps then pendingGaps k t else ([], t)).2.mem = t.mem := by
      split
      · exact pendingGaps_mem ..
      · rfl
    have hr (c : Bool) (pr : PlanRow) : (if c then s0 else reachRow k pr s0).mem = s0.mem := by
      split
      · rfl
      · exact reachRow_mem ..
    dsimp only
    rw [endStream_mem]
    split
    · rw [placeRow_mem, hg, hr]
    · rw [State.count_mem, placeRow_mem, hg, hr]
@[simp] theorem endSegment_mem (b reason : Nat) (s : State) : (endSegment b reason s).mem = s.mem := by
  unfold endSegment
  split
  · exact segmentClose_mem ..
  · rfl
@[simp] theorem finishStreams_mem (b record reason : Nat) (gaps : Bool) (row : Option RowKey) (s : State) :
    (finishStreams b record reason gaps row s).mem = s.mem := by
  unfold finishStreams
  rw [endSegment_mem, foldl_mem _ _ _ (fun t k => finishStream_mem ..), planAll_mem, settle_mem, stopEngines_mem]
@[simp] theorem endAcquisition_mem (b record reason cause : Nat) (gaps commitCells : Bool) (row : Option RowKey) (next : BenchState) (s : State) :
    (endAcquisition b record reason cause gaps commitCells row next s).mem = s.mem := by simp only [endAcquisition, State.setN_mem, State.modBench_mem, State.setBenchState_mem, clearForeign_mem, clearPins_mem, sqStop_mem, State.setTrigState_mem, refreshGate_mem, closeCell_mem, endCommit_mem, endShadows_mem, finishStreams_mem, ite_mem, ite_self, foldl_mem, implies_true]
@[simp] theorem disarmBench_mem (b : Nat) (s : State) :
    (disarmBench b s).mem = s.mem := by simp only [disarmBench, endAcquisition_mem]
@[simp] theorem quiesceBench_mem (b : Nat) (s : State) :
    (quiesceBench b s).mem = s.mem := by simp only [quiesceBench, endAcquisition_mem]
@[simp] theorem benchFaults_mem (b : Nat) (cause : FaultCause) (row : Option RowKey) (s : State) :
    (benchFaults b cause row s).mem = s.mem := by simp only [benchFaults, State.setEl_mem, raiseError_mem, endAcquisition_mem]
@[simp] theorem faultAtRow_mem (b : Nat) (row : RowKey) (s : State) :
    (faultAtRow b row s).mem = s.mem := by unfold faultAtRow; (repeat' split) <;> (try simp only [benchFaults_mem])
@[simp] theorem quiesceAfterRow_mem (b : Nat) (s : State) :
    (quiesceAfterRow b s).mem = s.mem := by simp only [quiesceAfterRow, quiesceBench_mem, ite_mem, ite_self]
@[simp] theorem disarmNow_mem (b : Nat) (s : State) :
    (disarmNow b s).mem = s.mem := by unfold disarmNow; (repeat' split) <;> (try simp only [disarmBench_mem, benchFaults_mem])

/-! ## Locks -/

@[simp] theorem beginDraft_mem (princ : Nat) (s : State) :
    (beginDraft princ s).mem = s.mem := by simp only [beginDraft, setPropStatus_mem]
@[simp] theorem lockRefuse_mem (k : Nat) (st : Status) (s : State) :
    (lockRefuse k st s).1.mem = s.mem := by simp only [lockRefuse, propRefuse_mem, ite_fst_mem, ite_self]
@[simp] theorem voidProposal_mem (cause : Nat) (s : State) :
    (voidProposal cause s).mem = s.mem := by simp only [voidProposal, setPropState_mem, ite_mem, ite_self]
@[simp] theorem startLease_mem (k lease : Nat) (s : State) :
    (startLease k lease s).mem = s.mem := by simp only [startLease, State.setLock_mem]
@[simp] theorem renewLease_mem (k lease : Nat) (s : State) :
    (renewLease k lease s).mem = s.mem := by cases s; rfl
@[simp] theorem takeLock_mem (k lease : Nat) (who : Nat × Nat) (s : State) :
    (takeLock k lease who s).mem = s.mem := by simp only [takeLock, State.setEl_mem, startLease_mem]
@[simp] theorem freeLock_mem (k : Nat) (broken : Bool) (s : State) :
    (freeLock k broken s).mem = s.mem := by simp only [freeLock, State.setEl_mem, State.setLock_mem]
@[simp] theorem breakLock_mem (cause k : Nat) (s : State) :
    (breakLock cause k s).mem = s.mem := by simp only [breakLock, voidProposal_mem, freeLock_mem, ite_mem, ite_self]
@[simp] theorem breakLocksOf_mem (who : Nat × Nat) (s : State) :
    (breakLocksOf who s).mem = s.mem := by simp only [breakLocksOf, breakLock_mem, foldl_mem, implies_true]
@[simp] theorem breakAllLocks_mem (s : State) :
    (breakAllLocks s).mem = s.mem := by simp only [breakAllLocks, breakLock_mem, foldl_mem, implies_true]
@[simp] theorem lockAcquireAct_mem (via : Via) (k : Nat) (v : W64) (s : State) :
    (lockAcquireAct via k v s).1.mem = s.mem := by simp only [lockAcquireAct, beginDraft_mem, lockRefuse_mem, renewLease_mem, takeLock_mem, ite_mem, ite_fst_mem, ite_self]
@[simp] theorem cancelLapsed_mem (s : State) :
    (cancelLapsed s).mem = s.mem := by simp only [cancelLapsed, setPropState_mem, ite_mem, ite_self]
@[simp] theorem lockReleaseAct_mem (via : Via) (k : Nat) (s : State) :
    (lockReleaseAct via k s).1.mem = s.mem := by simp only [lockReleaseAct, voidProposal_mem, freeLock_mem, cancelLapsed_mem, ite_mem, ite_fst_mem, ite_self]
@[simp] theorem lockRenewAct_mem (via : Via) (k : Nat) (s : State) :
    (lockRenewAct via k s).1.mem = s.mem := by simp only [lockRenewAct, renewLease_mem, ite_fst_mem, ite_self]
@[simp] theorem lockBreakAct_mem (k : Nat) (s : State) :
    (lockBreakAct k s).1.mem = s.mem := by simp only [lockBreakAct, breakLock_mem]
@[simp] theorem leaseExpires_mem (k : Nat) (s : State) :
    (leaseExpires k s).mem = s.mem := by simp only [leaseExpires, State.setLock_mem, advanceTo_mem, breakLock_mem, ite_mem, ite_self]

/-! ## Loss -/

@[simp] theorem resetCopy_mem (c : Nat) (s : State) :
    (resetCopy c s).mem = s.mem := by simp only [resetCopy, State.dropKeys_mem, foldl_mem, implies_true]
@[simp] theorem setReadout_mem (q v : Nat) (s : State) :
    (setReadout q v s).mem = s.mem := by simp only [setReadout, State.setEl_mem]
@[simp] theorem queueLosesFunc_mem (s : State) (q : Nat) :
    (queueLosesFunc s q).mem = s.mem := by unfold queueLosesFunc; (try dsimp only); repeat' (first | rfl | (simp only [State.setEl_mem, State.modQueue_mem, setReadout_mem, readAt_mem, ite_mem, ite_fst_mem, ite_snd_mem, ite_self, foldl_mem, implies_true]; done) | split | (refine (foldl_mem _ _ _ ?_).trans ?_; intro _ _))
@[simp] theorem setFill_mem (f v : Nat) (s : State) :
    (setFill f v s).mem = s.mem := by simp only [setFill, State.setEl_mem]
@[simp] theorem endFill_mem (f v : Nat) (s : State) :
    (endFill f v s).mem = s.mem := by simp only [endFill, State.modFunc_mem, setFill_mem, ite_mem, ite_self]
@[simp] theorem loseFunc_mem (s : State) (f : Nat) :
    (loseFunc s f).mem = s.mem := by simp only [loseFunc, State.modFunc_mem, breakLocksOf_mem, resetCopy_mem, queueLosesFunc_mem, endFill_mem, foldl_mem, implies_true]
@[simp] theorem lossPolicy_mem (lost : List Nat) (s : State) (b : Nat) :
    (lossPolicy lost s b).mem = s.mem := by simp only [lossPolicy, faultBench_mem, ite_mem, ite_self]
@[simp] theorem functionsLost_mem (l : List (Nat × Option Nat)) (gone : List Nat) (s : State) :
    (functionsLost l gone s).mem = s.mem := by simp only [functionsLost, loseFunc_mem, lossPolicy_mem, foldl_mem, implies_true]
@[simp] theorem noteLocals_mem (s t : State) :
    (noteLocals s t).mem = t.mem := by simp only [noteLocals, State.touchIf_mem, foldl_mem, implies_true]
@[simp] theorem refreshSessions_mem (s : State) :
    (refreshSessions s).mem = s.mem := by simp only [refreshSessions, State.setN_mem]
@[simp] theorem closeSession_mem (k : Nat) (s : State) :
    (closeSession k s).mem = s.mem := by unfold closeSession; (repeat' split) <;> (try simp only [State.setEl_mem, State.setSession_mem, breakLocksOf_mem, refreshSessions_mem])
@[simp] theorem closeAllSessions_mem (s : State) :
    (closeAllSessions s).mem = s.mem := by simp only [closeAllSessions, closeSession_mem, foldl_mem, implies_true]

/-! ## Arm -/

@[simp] theorem writeLaneReport_mem (b : Nat) (ls : List Nat) (s : State) :
    (writeLaneReport b ls s).mem = s.mem := by simp only [writeLaneReport, State.setEl_mem, foldl_mem, implies_true]
@[simp] theorem openStream_mem (b t first n : Nat) (s : State) :
    (openStream b t first n s).mem = s.mem := by simp only [openStream, State.setEl_mem, State.setStream_mem, dropHand_mem]
@[simp] theorem openStreams_mem (b first : Nat) (l : List (Nat × Nat)) (s : State) :
    (openStreams b first l s).mem = s.mem := by
  induction l generalizing first s with
  | nil => rw [openStreams]
  | cons p t ih => rw [openStreams, ih, openStream_mem]
@[simp] theorem clearStreamCounters_mem (b : Nat) (s : State) :
    (clearStreamCounters b s).mem = s.mem := by simp only [clearStreamCounters, State.clearEls_mem, foldl_mem, implies_true]
@[simp] theorem clearDir_mem (b : Nat) (s : State) :
    (clearDir b s).mem = s.mem := by simp only [clearDir, State.setDir_mem]
@[simp] theorem abortFills_mem (b : Nat) (s : State) :
    (abortFills b s).mem = s.mem := by simp only [abortFills, endFill_mem, ite_mem, ite_self, foldl_mem, implies_true]
@[simp] theorem armBench_mem (b kind : Nat) (start : Option Int) (s : State) :
    (armBench b kind start s).mem = s.mem := by simp only [armBench, State.setN_mem, State.modBench_mem, noteSeg_mem, toService_mem, State.setBenchState_mem, cuReset_mem, clearLines_mem, sqArm_mem, State.setTrigState_mem, refreshGate_mem, aeArm_mem, writeLaneReport_mem, openStreams_mem, clearStreamCounters_mem, clearDir_mem, abortFills_mem, foldl_mem, implies_true]
@[simp] theorem tryArm_mem (b kind : Nat) (start : Option Int) (s : State) :
    (tryArm b kind start s).1.mem = s.mem := by unfold tryArm; (repeat' split) <;> (try simp only [writeLaneReport_mem, armBench_mem])
theorem notFree_mem (b : Nat) (act : State → State × Status) (s : State) (h : (act s).1.mem = s.mem) :
    (notFree b act s).1.mem = s.mem := by
  unfold notFree
  split
  · rfl
  · exact h
@[simp] theorem disarmAct_mem (b : Nat) (s : State) :
    (disarmAct b s).1.mem = s.mem := by simp only [disarmAct, disarmNow_mem]
@[simp] theorem clearFaultAct_mem (b : Nat) (s : State) :
    (clearFaultAct b s).1.mem = s.mem := by simp only [clearFaultAct, State.setEl_mem, State.setBenchState_mem, ite_fst_mem, ite_self]
@[simp] theorem resetEls_mem (o : ObjInfo) (e n : Nat) (s : State) :
    (resetEls o e n s).mem = s.mem := by simp only [resetEls, State.clearEls_mem]
@[simp] theorem dropEls_mem (o : ObjInfo) (e n : Nat) (s : State) :
    (dropEls o e n s).mem = s.mem := by simp only [dropEls, State.dropKeys_mem]
@[simp] theorem defaultUnit_mem (c : Nat) (s : State) :
    (defaultUnit c s).mem = s.mem := by simp only [defaultUnit, resetEls_mem, foldl_mem, implies_true]
@[simp] theorem defaultSq_mem (q : Nat) (s : State) :
    (defaultSq q s).mem = s.mem := by simp only [defaultSq, resetEls_mem, foldl_mem, implies_true]
@[simp] theorem defaultEngine_mem (a : Nat) (s : State) :
    (defaultEngine a s).mem = s.mem := by simp only [defaultEngine, unsealTrace_mem, resetEls_mem, dropEls_mem, foldl_mem, implies_true]
@[simp] theorem resetBench_mem (b : Nat) (s : State) :
    (resetBench b s).mem = s.mem := by simp only [resetBench, State.setN_mem, State.modBench_mem, noteSeg_mem, State.setBenchState_mem, dropGrants_mem, discardAll_mem, resetEls_mem, defaultUnit_mem, defaultSq_mem, defaultEngine_mem, foldl_mem, implies_true]
@[simp] theorem resetAct_mem (b : Nat) (s : State) :
    (resetAct b s).1.mem = s.mem := by simp only [resetAct, benchFaults_mem, resetBench_mem, ite_mem, ite_fst_mem, ite_self]
@[simp] theorem benchCmdAct_mem (b : Nat) (v : W64) (s : State) :
    (benchCmdAct b v s).1.mem = s.mem := by unfold benchCmdAct; (repeat' split) <;> (try simp only [tryArm_mem, notFree_mem, disarmAct_mem, clearFaultAct_mem, resetAct_mem])
@[simp] theorem setArmSched_mem (b v : Nat) (s : State) :
    (setArmSched b v s).mem = s.mem := by simp only [setArmSched, State.setEl_mem]
@[simp] theorem setDisarmSched_mem (b v : Nat) (s : State) :
    (setDisarmSched b v s).mem = s.mem := by simp only [setDisarmSched, State.setEl_mem]
@[simp] theorem armAtAct_mem (b : Nat) (v : W64) (s : State) :
    (armAtAct b v s).1.mem = s.mem := by unfold armAtAct; (repeat' split) <;> (try simp only [State.put_mem, writeLaneReport_mem, armBench_mem, setArmSched_mem])
@[simp] theorem disarmAtAct_mem (b : Nat) (v : W64) (s : State) :
    (disarmAtAct b v s).1.mem = s.mem := by simp only [disarmAtAct, State.put_mem, State.modBench_mem, disarmNow_mem, setDisarmSched_mem, ite_fst_mem, ite_self]
@[simp] theorem scheduledArm_mem (b : Nat) (s : State) :
    (scheduledArm b s).mem = s.mem := by simp only [scheduledArm, State.setEl_mem, advanceMod_mem, tryArm_mem, setArmSched_mem, ite_mem, ite_self]
@[simp] theorem scheduledDisarmNow_mem (b : Nat) (s : State) :
    (scheduledDisarmNow b s).mem = s.mem := by simp only [scheduledDisarmNow, State.modBench_mem, disarmNow_mem, setDisarmSched_mem]
@[simp] theorem scheduledDisarm_mem (b : Nat) (s : State) :
    (scheduledDisarm b s).mem = s.mem := by simp only [scheduledDisarm, advanceMod_mem, scheduledDisarmNow_mem, ite_mem, ite_self]
@[simp] theorem setCommitState_mem (b v : Nat) (s : State) :
    (setCommitState b v s).mem = s.mem := by simp only [setCommitState, State.setEl_mem]
@[simp] theorem commitAct_mem (b : Nat) (s : State) :
    (commitAct b s).1.mem = s.mem := by simp only [commitAct, State.modBench_mem, setCommitState_mem, ite_fst_mem, ite_self]
@[simp] theorem commitCancelAct_mem (b : Nat) (s : State) :
    (commitCancelAct b s).1.mem = s.mem := by simp only [commitCancelAct, State.modBench_mem, setCommitState_mem, ite_fst_mem, ite_self]
@[simp] theorem commitWriteAct_mem (b : Nat) (v : W64) (s : State) :
    (commitWriteAct b v s).1.mem = s.mem := by simp only [commitWriteAct, commitAct_mem, commitCancelAct_mem, ite_fst_mem, ite_self]
@[simp] theorem commitBroadcast_mem (b : Nat) (s : State) :
    (commitBroadcast b s).mem = s.mem := by
  unfold commitBroadcast; split
  · rfl
  · exact State.modBench_mem ..

/-! ## Swage -/

@[simp] theorem partMissing_mem (l d : Nat) (stamp : W40) (s : State) :
    (partMissing l d stamp s).mem = s.mem := by unfold partMissing; dsimp only; (repeat' split) <;> (try simp only [countMissing_mem])
@[simp] theorem countParts_mem (design : W64) (d : Nat) (stamp : W40) (t : Int) (s : State) :
    (countParts design d stamp t s).mem = s.mem := by simp only [countParts, State.modLane_mem, countMissing_mem, ite_mem, ite_self, foldl_mem, implies_true]
@[simp] theorem dropNotes_mem (design : W64) (d : Nat) (stamp : W40) (l : Nat) (s : State) :
    (dropNotes design d stamp l s).mem = s.mem := by simp only [dropNotes, State.modLane_mem, ite_mem, ite_self]
@[simp] theorem freeParts_mem (design : W64) (d : Nat) (stamp : W40) (s : State) :
    (freeParts design d stamp s).mem = s.mem := by simp only [freeParts, State.modLane_mem, creditAfterFree_mem, dropNotes_mem, ite_mem, ite_self, foldl_mem, implies_true]
@[simp] theorem refuseEngines_mem (g owner : Nat) (s : State) :
    (refuseEngines g owner s).mem = s.mem := by unfold refuseEngines; (try dsimp only); repeat' (first | rfl | (simp only [State.inc_mem, ite_mem, ite_self]; done) | split | (refine (foldl_mem _ _ _ ?_).trans ?_; intro _ _))
@[simp] theorem countRow_mem (r : Row) (s : State) :
    (countRow r s).mem = s.mem := by simp only [countRow, State.inc_mem, refuseEngines_mem, ite_mem, ite_self, foldl_mem, implies_true]
@[simp] theorem noteRow_mem (r : Row) (s : State) :
    (noteRow r s).mem = s.mem := by cases s; rfl
@[simp] theorem endsBefore_mem (row : RowKey) (s : State) (b : Nat) :
    (endsBefore row s b).mem = s.mem := by unfold endsBefore; dsimp only; (repeat' split) <;> (try simp only [faultAtRow_mem, scheduledDisarmNow_mem])
@[simp] theorem commitUnits_mem (b : Nat) (s : State) :
    (commitUnits b s).mem = s.mem := by simp only [commitUnits, applyCopies_mem, cuReset_mem, foldl_mem, implies_true]
@[simp] theorem commitRest_mem (b : Nat) (r : Row) (s : State) :
    (commitRest b r s).mem = s.mem := by simp only [commitRest, State.setEl_mem, State.modBench_mem, refreshDirty_mem, applyCopies_mem]
@[simp] theorem takeUnits_mem (b : Nat) (src s : State) :
    (takeUnits b src s).mem = s.mem := by cases s; rfl
@[simp] theorem slotUnits_mem (design : W64) (l : List Row) (s : State) : (slotUnits design l s).mem = s.mem := by
  induction l generalizing s with
  | nil => rfl
  | cons r t ih => rw [slotUnits, ih, cuRows_mem, foldl_mem _ _ _ (fun u b => commitUnits_mem b u)]
@[simp] theorem oldUnits_mem (design : W64) (rows : List Row) (before s : State) :
    (oldUnits design rows before s).mem = s.mem := by simp only [oldUnits, takeUnits_mem, ite_mem, ite_self, foldl_mem, implies_true]
@[simp] theorem engineTakes_mem (b : Nat) (r : Row) (taken : Bool) (s : State) (a : Nat) :
    (engineTakes b r taken s a).mem = s.mem := by unfold engineTakes; (repeat' split) <;> (try simp only [State.setN_mem, State.setEngine_mem, dropAhead_mem, ite_mem, ite_self])
@[simp] theorem benchRow_mem (b : Nat) (r : Row) (first : Bool) (s : State) : (benchRow b r first s).2.mem = s.mem := by
  unfold benchRow
  dsimp only
  rw [foldl_mem _ _ _ (fun t a => engineTakes_mem ..), State.modBench_mem, stepBench_mem]
@[simp] theorem slotRow_mem (new : State) (r : Row) (first : Bool) (p : List (Nat × Nat) × State) :
    (slotRow new r first p).2.mem = p.2.mem := by
  unfold slotRow
  refine foldl_snd_mem _ _ _ (fun q b => ?_)
  have go (u : State) : (if u.takesRow b r then (let x := benchRow b r first u; (q.1 ++ x.1, x.2))
      else (q.1, (u.enabledEngines b).foldl (engineTakes b r false) u)).2.mem = u.mem := by
    split
    · exact benchRow_mem ..
    · exact foldl_mem _ _ _ (fun t a => engineTakes_mem ..)
  refine (go _).trans ?_
  split
  · rw [commitRest_mem, takeUnits_mem]
  · rfl
@[simp] theorem slotBenches_mem (new : State) (l : List Row) (first : Bool) (p : List (Nat × Nat) × State) :
    (slotBenches new l first p).2.mem = p.2.mem := by
  induction l generalizing first p with
  | nil => rw [slotBenches]
  | cons r t ih => rw [slotBenches, ih, slotRow_mem]
@[simp] theorem runSlot_mem (design : W64) (rows : List Row) (s : State) :
    (runSlot design rows s).mem = s.mem := by simp only [runSlot, applyPinOps_mem, settle_mem, quiesceAfterRow_mem, slotUnits_mem, oldUnits_mem, slotBenches_mem, ite_mem, ite_self, foldl_mem, implies_true]
@[simp] theorem setSlot_mem (design : W64) (rows : List Row) (s : State) :
    (setSlot design rows s).mem = s.mem := by cases s; rfl
@[simp] theorem closeSlot_mem (design : W64) (s : State) :
    (closeSlot design s).mem = s.mem := by simp only [closeSlot, runSlot_mem, setSlot_mem]
@[simp] theorem rowEmit_mem (design : W64) (d : Nat) (stamp : W40) (s : State) :
    (rowEmit design d stamp s).mem = s.mem := by unfold rowEmit; (repeat' split) <;> (try simp only [countParts_mem, freeParts_mem, countRow_mem, noteRow_mem, endsBefore_mem, setSlot_mem, closeSlot_mem, ite_mem, ite_self, foldl_mem, implies_true])
@[simp] theorem stalled_mem (l : Nat) (s : State) :
    (stalled l s).mem = s.mem := by simp only [stalled, advanceTo_mem, leaveAligned_mem, ite_mem, ite_self]
@[simp] theorem gateTile_mem (t : Nat) (s : State) :
    (gateTile t s).mem = s.mem := by simp only [gateTile, State.setN_mem, ite_mem, ite_self]
@[simp] theorem ungateTile_mem (t : Nat) (s : State) :
    (ungateTile t s).mem = s.mem := by simp only [ungateTile, State.setN_mem, ite_mem, ite_self]
@[simp] theorem tilePowerAct_mem (t : Nat) (v : W64) (s : State) :
    (tilePowerAct t v s).1.mem = s.mem := by simp only [tilePowerAct, State.put_mem, gateTile_mem, ungateTile_mem, ite_mem, ite_fst_mem, ite_self]
@[simp] theorem tileGated_mem (t : Nat) (s : State) :
    (tileGated t s).mem = s.mem := by simp only [tileGated, State.setN_mem, ite_mem, ite_self]
@[simp] theorem tileIsOn_mem (t : Nat) (s : State) :
    (tileIsOn t s).mem = s.mem := by simp only [tileIsOn, State.setN_mem, ite_mem, ite_self]

/-! ## Link -/

@[simp] theorem portEnableAct_mem (p : Nat) (v : W64) (s : State) :
    (portEnableAct p v s).1.mem = s.mem := by simp only [portEnableAct, State.put_mem, State.modLane_mem, refreshConflicts_mem, enterHunt_mem, laneOff_mem, recallQuenches_mem, ite_mem, ite_fst_mem, ite_self, foldl_mem, implies_true]
@[simp] theorem clearLaneCounters_mem (l : Nat) (s0 : State) :
    (clearLaneCounters l s0).mem = s0.mem := by cases s0; rfl
@[simp] theorem clearCountersAct_mem (p : Nat) (s : State) :
    (clearCountersAct p s).1.mem = s.mem := by simp only [clearCountersAct, clearLaneCounters_mem, foldl_mem, implies_true]
@[simp] theorem sendDescReqAct_mem (p : Nat) (s : State) :
    (sendDescReqAct p s).1.mem = s.mem := by simp only [sendDescReqAct, sendDescReq_mem, ite_mem, ite_self, foldl_mem, implies_true]
@[simp] theorem realignAct_mem (p : Nat) (s : State) :
    (realignAct p s).1.mem = s.mem := by simp only [realignAct, startCalibration_mem, leaveAligned_mem, ite_mem, ite_fst_mem, ite_self, foldl_mem, implies_true]
@[simp] theorem signalDetect_mem (l : Nat) (s : State) :
    (signalDetect l s).mem = s.mem := by simp only [signalDetect, State.modLane_mem, enterHunt_mem, ite_mem, ite_self]
@[simp] theorem huntCodeword_mem (l : Nat) (ok : Bool) (cwSeq : BitVec 10) (inverted : Bool) (s : State) :
    (huntCodeword l ok cwSeq inverted s).mem = s.mem := by simp only [huntCodeword, State.modLane_mem, enterFramed_mem, ite_mem, ite_self]
@[simp] theorem corrected_mem (l n : Nat) (s : State) :
    (corrected l n s).mem = s.mem := by simp only [corrected, State.count_mem, State.modLane_mem, raiseError_mem, State.setLaneFlag_mem, ite_mem, ite_self]
@[simp] theorem goodCodeword_mem (l t badSyms : Nat) (cwSeq : BitVec 10) (txState : BitVec 2) (s : State) :
    (goodCodeword l t badSyms cwSeq txState s).mem = s.mem := by
  have h (c : Bool) (a b : State) (e : a.mem = b.mem) : (if c then a else b).mem = b.mem := by
    split
    · exact e
    · rfl
  have h' (c : Prop) [Decidable c] (a b : State) (e : b.mem = a.mem) : (if c then a else b).mem = a.mem := by
    split
    · rfl
    · exact e
  unfold goodCodeword; dsimp only
  rw [h _ _ _ (startCalibration_mem ..), h' _ _ _ (frameError_mem ..), h' _ _ _ (corrected_mem ..), State.modLane_mem]
@[simp] theorem codewordDecode_mem (l t badSyms : Nat) (cwSeq : BitVec 10) (txState : BitVec 2) (inverted : Bool) (s0 : State) :
    (codewordDecode l t badSyms cwSeq txState inverted s0).mem = s0.mem := by simp only [codewordDecode, State.modLane_mem, advanceMod_mem, uncorrectable_mem, huntCodeword_mem, goodCodeword_mem, ite_mem, ite_self]
@[simp] theorem codewordPeriodMissed_mem (l : Nat) (s : State) :
    (codewordPeriodMissed l s).mem = s.mem := by simp only [codewordPeriodMissed, State.modLane_mem, uncorrectable_mem, ite_mem, ite_self]
@[simp] theorem writeGroupMap_mem (l : Nat) (m : LaneMap) (s : State) :
    (writeGroupMap l m s).mem = s.mem := by simp only [writeGroupMap, State.put_mem, State.bump_mem, State.dropKeys_mem, foldl_mem, implies_true]
@[simp] theorem adopt_mem (l : Nat) (d : Descr) (m : LaneMap) (s : State) :
    (adopt l d m s).mem = s.mem := by simp only [adopt, State.setEl_mem, State.setN_mem, State.modLane_mem, laneTrouble1_mem, laneRejoin_mem, refreshConflicts_mem, startCalibration_mem, leaveAligned_mem, dropClocks_mem, writeGroupMap_mem, ite_mem, ite_self, foldl_mem, implies_true]
@[simp] theorem deliverPart_mem (l : Nat) (p : Part) (s : State) :
    (deliverPart l p s).mem = s.mem := by simp only [deliverPart, State.modLane_mem, freeParts_mem, ite_mem, ite_self]
@[simp] theorem takeWord_mem (l d : Nat) (gs : List Nat) (design : W64) (stamp : W40) (pos : Nat) (w : W40) (time : Int) (s : State) :
    (takeWord l d gs design stamp pos w time s).mem = s.mem := by unfold takeWord; dsimp only; (repeat' split) <;> (try simp only [State.modLane_mem, countMissing_mem, deliverPart_mem])
@[simp] theorem takeWords_mem (l d : Nat) (gs : List Nat) (design : W64) (t : Nat) (lat : Int) (stamp : W40) (off i : Nat) (ws : List W40)
    (s : State) : (takeWords l d gs design t lat stamp off i ws s).mem = s.mem := by
  induction ws generalizing i s with
  | nil => rw [takeWords]
  | cons w ws ih => rw [takeWords, ih, takeWord_mem]
@[simp] theorem dataWords_mem (l t : Nat) (hdr : W40) (pay : List W40) (s : State) :
    (dataWords l t hdr pay s).mem = s.mem := by unfold dataWords; dsimp only; (repeat' split) <;> (try simp only [State.modLane_mem, frameError_mem, stampError_mem, takeWords_mem])
@[simp] theorem dataFrame_mem (l t : Nat) (hdr : W40) (pay : List W40) (s0 : State) :
    (dataFrame l t hdr pay s0).mem = s0.mem := by unfold dataFrame; dsimp only; (repeat' split) <;> (try simp only [State.inc_mem, State.modLane_mem, advanceMod_mem, creditAfterFree_mem, laneFault_mem, frameError_mem, adopt_mem, dataWords_mem])
@[simp] theorem setSuspect_mem (l : Nat) (offset : Int) (s : State) :
    (setSuspect l offset s).mem = s.mem := by simp only [setSuspect, State.modLane_mem, raiseError_mem, State.setLaneFlag_mem, benchEvent_mem, ite_mem, ite_self, foldl_mem, implies_true]
@[simp] theorem goodEcho_mem (l : Nat) (s : State) :
    (goodEcho l s).mem = s.mem := by simp only [goodEcho, State.modLane_mem, State.setLaneFlag_mem, ite_mem, ite_self]
@[simp] theorem markerEpoch_mem (l epoch : Nat) (s : State) :
    (markerEpoch l epoch s).mem = s.mem := by simp only [markerEpoch, State.modLane_mem, setSuspect_mem, ite_mem, ite_self]
@[simp] theorem setHeld_mem (l : Nat) (es : List (Nat × W40)) (s : State) :
    (setHeld l es s).mem = s.mem := by simp only [setHeld, State.modLane_mem]
@[simp] theorem updateFreq_mem (l : Nat) (core : Int) (es : List (Nat × W40)) (s : State) :
    (updateFreq l core es s).mem = s.mem := by unfold updateFreq; (try dsimp only); repeat' (first | rfl | (simp only [State.setN_mem, State.modLane_mem, ite_mem, ite_self]; done) | split | (refine (foldl_mem _ _ _ ?_).trans ?_; intro _ _))
@[simp] theorem measure_mem (l : Nat) (lat : Int) (s : State) :
    (measure l lat s).mem = s.mem := by simp only [measure, State.setEl_mem, State.setN_mem, State.modLane_mem, admitOrRefuse_mem, ite_mem, ite_self]
@[simp] theorem alignMarker_mem (l : Nat) (lat core : Int) (es : List (Nat × W40)) (s : State) :
    (alignMarker l lat core es s).mem = s.mem := by simp only [alignMarker, State.modLane_mem, State.setAlign_mem, measure_mem, ite_mem, ite_self]
@[simp] theorem markerFrame_mem (l t slot : Nat) (hdr : W40) (pay : List W40) (s0 : State) :
    (markerFrame l t slot hdr pay s0).mem = s0.mem := by unfold markerFrame; (repeat' split) <;> (try simp only [advanceMod_mem, frameError_mem, stampError_mem, markerEpoch_mem, setHeld_mem, updateFreq_mem, alignMarker_mem, ite_mem, ite_self])
@[simp] theorem groupMap_mem (l : Nat) (hdr : W40) (pay : List W40) (s : State) :
    (groupMap l hdr pay s).mem = s.mem := by simp only [groupMap, State.modLane_mem, frameError_mem, ite_mem, ite_self]
@[simp] theorem descriptorFrame_mem (l : Nat) (hdr : W40) (pay : List W40) (s : State) :
    (descriptorFrame l hdr pay s).mem = s.mem := by simp only [descriptorFrame, State.modLane_mem, State.setLaneState_mem, sendDescReq_mem, frameError_mem, adopt_mem, ite_mem, ite_self]
@[simp] theorem recordOffset_mem (l : Nat) (offset : Int) (s : State) :
    (recordOffset l offset s).mem = s.mem := by simp only [recordOffset, State.setEl_mem, State.drawn_mem, ite_mem, ite_self]
@[simp] theorem recordDelay_mem (l : Nat) (d : Int) (s : State) :
    (recordDelay l d s).mem = s.mem := by simp only [recordDelay, State.setEl_mem, State.setN_mem, State.drawn_mem, ite_mem, ite_self]
@[simp] theorem timeEcho_mem (l t : Nat) (hdr : W40) (pay : List W40) (s0 : State) :
    (timeEcho l t hdr pay s0).mem = s0.mem := by unfold timeEcho; dsimp only; (repeat' split) <;> (try simp only [State.modLane_mem, advanceMod_mem, enterUp_mem, frameError_mem, setSuspect_mem, goodEcho_mem, recordOffset_mem, recordDelay_mem])
@[simp] theorem sendTime_mem (l : Nat) (s0 : State) :
    (sendTime l s0).mem = s0.mem := by simp only [sendTime, State.send_mem, State.modLane_mem, advanceTo_mem, ite_mem, ite_self]
@[simp] theorem creditMessage_mem (l : Nat) (s : State) :
    (creditMessage l s).mem = s.mem := by simp only [creditMessage, raiseLimit_mem, sendCredit_mem, ite_mem, ite_self]
@[simp] theorem descReqRetry_mem (l : Nat) (s : State) :
    (descReqRetry l s).mem = s.mem := by simp only [descReqRetry, advanceTo_mem, sendDescReq_mem, ite_mem, ite_self]
@[simp] theorem huntTimeout_mem (l : Nat) (s : State) :
    (huntTimeout l s).mem = s.mem := by simp only [huntTimeout, advanceTo_mem, laneFault_mem, ite_mem, ite_self]
@[simp] theorem framedTimeout_mem (l : Nat) (s : State) :
    (framedTimeout l s).mem = s.mem := by simp only [framedTimeout, advanceTo_mem, laneFault_mem, ite_mem, ite_self]
@[simp] theorem describedTimeout_mem (l : Nat) (s : State) :
    (describedTimeout l s).mem = s.mem := by simp only [describedTimeout, advanceTo_mem, laneFault_mem, ite_mem, ite_self]
@[simp] theorem faultRetry_mem (l : Nat) (s : State) :
    (faultRetry l s).mem = s.mem := by simp only [faultRetry, advanceTo_mem, enterHunt_mem, ite_mem, ite_self]
@[simp] theorem absentTimeout_mem (l : Nat) (s : State) :
    (absentTimeout l s).mem = s.mem := by simp only [absentTimeout, advanceTo_mem, State.setLaneState_mem, ite_mem, ite_self]
@[simp] theorem degradedWindow_mem (l : Nat) (s0 : State) :
    (degradedWindow l s0).mem = s0.mem := by simp only [degradedWindow, State.modLane_mem, advanceTo_mem, State.setLaneFlag_mem]

/-! ## Staging -/

@[simp] theorem stageBytes_mem (f : Nat) (x : Staging) (bs : List (Nat × Byte)) (s : State) :
    (stageBytes f x bs s).mem = s.mem := by simp only [stageBytes, State.setStage_mem, commitStage_mem, ite_mem, ite_self]
@[simp] theorem fillRead_mem (f : Nat) (s : State) :
    (fillRead f s).mem = s.mem := by unfold fillRead; (repeat' split) <;> (try simp only [State.send_mem, State.modFunc_mem])
@[simp] theorem fillCellWritten_mem (f : Nat) (s : State) :
    (fillCellWritten f s).mem = s.mem := by unfold fillCellWritten; (repeat' split) <;> (try simp only [State.setEl_mem, State.modFunc_mem, endFill_mem, fillRead_mem, ite_mem, ite_self])
@[simp] theorem stagePiece_mem (f b ingot cell pos : Nat) (bs : List (Nat × Byte)) (fill : Bool) (pkt : Option Nat) (s : State) :
    (stagePiece f b ingot cell pos bs fill pkt s).mem = s.mem := by unfold stagePiece; dsimp only; (repeat' split) <;> (try simp only [commitStage_mem, unsealCell_mem, stageBytes_mem, fillCellWritten_mem])
@[simp] theorem arrivePiece_mem (f b ingot cell pos : Nat) (bs : List (Nat × Byte)) (fill : Bool) (s : State) :
    (arrivePiece f b ingot cell pos bs fill s).mem = s.mem := by
  unfold arrivePiece
  dsimp only
  split
  · rw [holdOp_mem]
  · split
    · have h := allocPacket_mem (stagingPacket b) .hostStaging 0 4 (commitStage f s)
      rw [commitStage_mem] at h
      split <;> rename_i e <;> rw [e] at h
      · rw [holdOp_mem]; exact h
      · rw [stagePiece_mem]; exact h
    · rw [stagePiece_mem]
@[simp] theorem arrivePieces_mem (f b : Nat) (l : List Piece) (s : State) :
    (arrivePieces f b l s).mem = s.mem := by unfold arrivePieces; repeat' (first | rfl | (simp only [arrivePiece_mem]; done) | split | (refine (foldl_mem _ _ _ ?_).trans ?_; intro _ _))
@[simp] theorem storeWriteNow_mem (f off : Nat) (bs : List Byte) (s : State) :
    (storeWriteNow f off bs s).mem = s.mem := by unfold storeWriteNow; dsimp only; (repeat' split) <;> (try simp only [State.inc_mem, arrivePieces_mem])
@[simp] theorem storeWrite_mem (f off : Nat) (bs : List Byte) (s : State) : (storeWrite f off bs s).mem = s.mem :=
  postedWrite_mem _ _ _ _ (storeWriteNow_mem ..)
@[simp] theorem stageTimeout_mem (f : Nat) (s : State) :
    (stageTimeout f s).mem = s.mem := by unfold stageTimeout; (repeat' split) <;> (try simp only [advanceTo_mem, commitStage_mem])
@[simp] theorem enabledBytes_mem (len : Nat) (enables : List Bool) (bs : List Byte) (s : State) :
    (enabledBytes len enables bs s).2.mem = s.mem := by simp only [enabledBytes, State.drawn_mem, ite_snd_mem, ite_self]
@[simp] theorem State.dropHeld_mem (s : State) (h : Held) :
    (State.dropHeld s h).mem = s.mem := by cases s; rfl
@[simp] theorem selfRefresh_mem (r : Nat) (s : State) :
    (selfRefresh r s).mem = s.mem := by simp only [selfRefresh, State.setRank_mem, advanceTo_mem, refreshStore_mem, ite_mem, ite_self]
@[simp] theorem keepGrant_mem (x : AllocReq) (id : Nat) (s : State) :
    (keepGrant x id s).mem = s.mem := by cases s; rfl
@[simp] theorem goldAsk_mem (x : AllocReq) (id : Nat) (s : State) :
    (goldAsk x id s).mem = s.mem := by unfold goldAsk; dsimp only; (repeat' split) <;> (try simp only [State.setEngine_mem, acceptReq_mem, commitStages_mem, keepGrant_mem])
@[simp] theorem postService_mem (x : AllocReq) (id : Nat) (s : State) :
    (postService x id s).mem = s.mem := by unfold postService; (repeat' split) <;> (try simp only [State.setPacket_mem, offerPacket_mem, keepGrant_mem, ite_mem, ite_self])
@[simp] theorem noteRefused_mem (x : Bid) (s : State) :
    (noteRefused x s).mem = s.mem := by unfold noteRefused; (repeat' split) <;> (try simp only [State.modStream_mem, ite_mem, ite_self])

/-! ## Ports -/

@[simp] theorem refreshLink_mem (h : Nat) (s : State) :
    (refreshLink h s).mem = s.mem := by simp only [refreshLink, State.setEl_mem]
@[simp] theorem refreshFunc_mem (s : State) (f : Nat) :
    (refreshFunc s f).mem = s.mem := by simp only [refreshFunc, State.setEl_mem]
@[simp] theorem fillCompletion_mem (f : Nat) (ok : Bool) (bytes : List Byte) (s : State) :
    (fillCompletion f ok bytes s).mem = s.mem := by unfold fillCompletion; dsimp only; (repeat' split) <;> (try simp only [State.modFunc_mem, endFill_mem, fillRead_mem, arrivePiece_mem])
@[simp] theorem fillStartAct_mem (f : Nat) (s : State) :
    (fillStartAct f s).1.mem = s.mem := by simp only [fillStartAct, State.setEl_mem, State.modFunc_mem, setFill_mem, fillRead_mem, ite_fst_mem, ite_self]
@[simp] theorem fillAbortAct_mem (f : Nat) (s : State) :
    (fillAbortAct f s).1.mem = s.mem := by unfold fillAbortAct; (repeat' split) <;> (try simp only [State.modFunc_mem, endFill_mem])
@[simp] theorem masterStops_mem (f : Nat) (s : State) :
    (masterStops f s).mem = s.mem := by unfold masterStops; dsimp only; (repeat' split) <;> (try simp only [State.modQueue_mem, State.modFunc_mem, setFill_mem, foldl_mem, implies_true])
@[simp] theorem sendPending_mem (f : Nat) (s : State) :
    (sendPending f s).mem = s.mem := by simp only [sendPending, sendVec_mem, ite_mem, ite_self, foldl_mem, implies_true]
@[simp] theorem masterResumes_mem (f : Nat) (s : State) :
    (masterResumes f s).mem = s.mem := by unfold masterResumes; (repeat' split) <;> (try simp only [State.modFunc_mem, setFill_mem, fillRead_mem, sendPending_mem, ite_mem, ite_self])
@[simp] theorem setMaster_mem (f : Nat) (bme d3 : Bool) (s : State) :
    (setMaster f bme d3 s).mem = s.mem := by simp only [setMaster, State.modFunc_mem, noteQueue_mem, refreshFunc_mem, masterStops_mem, masterResumes_mem, ite_mem, ite_self, foldl_mem, implies_true]
@[simp] theorem clearFuncs_mem (l : List Nat) (s : State) :
    (clearFuncs l s).mem = s.mem := by simp only [clearFuncs, State.setFunc_mem, resetCopy_mem, refreshFunc_mem, foldl_mem, implies_true]
@[simp] theorem clearVfs_mem (h : Nat) (s : State) :
    (clearVfs h s).mem = s.mem := by simp only [clearVfs, State.modPort_mem, functionsLost_mem, refreshLink_mem, clearFuncs_mem]
@[simp] theorem resetFunc_mem (f : Nat) (s : State) :
    (resetFunc f s).mem = s.mem := by simp only [resetFunc, State.modPort_mem, intUpdate_mem, functionsLost_mem, refreshLink_mem, clearFuncs_mem, ite_mem, ite_self]
@[simp] theorem resetPortCopies_mem (h : Nat) (s : State) :
    (resetPortCopies h s).mem = s.mem := by simp only [resetPortCopies, State.dropKeys_mem, foldl_mem, implies_true]
@[simp] theorem resetPort_mem (h : Nat) (kind : PortReset) (s : State) :
    (resetPort h kind s).mem = s.mem := by simp only [resetPort, State.setPort_mem, State.modFunc_mem, raiseError_mem, functionsLost_mem, refreshLink_mem, clearFuncs_mem, resetPortCopies_mem, ite_mem, ite_self, foldl_mem, implies_true]
@[simp] theorem linkUp_mem (x : PortLands) (flit : Bool) (rate width : Nat) (s : State) :
    (linkUp x flit rate width s).mem = s.mem := by simp only [linkUp, State.modPort_mem, intUpdate_mem, refreshLink_mem, refreshFunc_mem, ite_mem, ite_self]
@[simp] theorem pendingMessage_mem (f vec : Nat) (s : State) :
    (pendingMessage f vec s).mem = s.mem := by unfold pendingMessage; dsimp only; (repeat' split) <;> (try simp only [advanceTo_mem, sendVec_mem])
@[simp] theorem tableWrite_mem (f : Nat) (s : State) (i : Nat) (v : Nat) :
    (tableWrite f s i v).mem = s.mem := by unfold tableWrite; (repeat' split) <;> (try simp only [State.setVec_mem, sendPending_mem])
@[simp] theorem writeCommand_mem (f : Nat) (v : BitVec 32) (s : State) :
    (writeCommand f v s).mem = s.mem := by simp only [writeCommand, State.modFunc_mem, intUpdate_mem, setMaster_mem, ite_mem, ite_self]
@[simp] theorem writeMsix_mem (f : Nat) (v : BitVec 32) (s : State) :
    (writeMsix f v s).mem = s.mem := by simp only [writeMsix, State.modFunc_mem, intUpdate_mem, refreshFunc_mem, sendPending_mem, ite_mem, ite_self]
@[simp] theorem writeDevCtl_mem (f : Nat) (v : BitVec 32) (s : State) :
    (writeDevCtl f v s).mem = s.mem := by simp only [writeDevCtl, State.modFunc_mem, resetFunc_mem, ite_mem, ite_self]
@[simp] theorem writeSriov_mem (h : Nat) (v : BitVec 32) (s : State) :
    (writeSriov h v s).mem = s.mem := by simp only [writeSriov, State.modPort_mem, State.modFunc_mem, refreshLink_mem, refreshFunc_mem, clearVfs_mem, ite_mem, ite_self, foldl_mem, implies_true]
@[simp] theorem configWrite_mem (f reg : Nat) (v : BitVec 32) (s : State) :
    (configWrite f reg v s).mem = s.mem := by simp only [configWrite, State.modPort_mem, State.modFunc_mem, refreshLink_mem, setMaster_mem, writeCommand_mem, writeMsix_mem, writeDevCtl_mem, writeSriov_mem, ite_mem, ite_self]
@[simp] theorem configRequest_mem (f reg : Nat) (wr : Option (BitVec 32)) (s : State) :
    (configRequest f reg wr s).mem = s.mem := by unfold configRequest; (repeat' split) <;> (try simp only [State.send_mem, configWrite_mem])

/-! ## Protect -/

@[simp] theorem refreshHeld_mem (b : Nat) (s : State) :
    (refreshHeld b s).mem = s.mem := by simp only [refreshHeld, State.setEl_mem]
@[simp] theorem trimDir_mem (b : Nat) (s : State) :
    (trimDir b s).mem = s.mem := by simp only [trimDir, State.setDir_mem, State.setHolder_mem, refreshHeld_mem, foldl_mem, implies_true]
@[simp] theorem PropEntry.write_mem (s : State) (e : PropEntry) :
    (PropEntry.write s e).mem = s.mem := by unfold PropEntry.write; (repeat' split) <;> (try simp only [State.put_mem, foldl_mem, implies_true])
@[simp] theorem dropBench_mem (s : State) (b : Nat) :
    (dropBench s b).mem = s.mem := by simp only [dropBench, State.put_mem, foldl_mem, implies_true]
@[simp] theorem State.withEntries_mem (s : State) (es : List PropEntry) :
    (State.withEntries s es).mem = s.mem := by simp only [State.withEntries, PropEntry.write_mem, dropBench_mem, foldl_mem, implies_true]
@[simp] theorem scrubUnit_mem (s : State) (c : Nat) :
    (scrubUnit s c).mem = s.mem := by simp only [scrubUnit, State.setEl_mem, State.setCuPrev_mem, defaultUnit_mem]
@[simp] theorem scrubSq_mem (s : State) (q : Nat) :
    (scrubSq s q).mem = s.mem := by simp only [scrubSq, State.setEl_mem, State.clearEls_mem, State.setSeqx_mem, defaultSq_mem]
@[simp] theorem scrubEngine_mem (s : State) (a : Nat) :
    (scrubEngine s a).mem = s.mem := by simp only [scrubEngine, State.setEl_mem, State.setN_mem, State.clearEls_mem, State.setEngine_mem, dropAhead_mem, defaultEngine_mem]
@[simp] theorem dropStream_mem (s : State) (k : Nat) : (dropStream s k).mem = s.mem := by
  unfold dropStream
  rw [State.setStream_mem, dropHand_mem]
@[simp] theorem deleteBench_mem (s : State) (b : Nat) :
    (deleteBench s b).mem = s.mem := by simp only [deleteBench, State.setBench_mem, noteSeg_mem, State.setBenchState_mem, leaveExclusive_mem, dropGrants_mem, freeQueue_mem, dropStream_mem, ite_mem, ite_self, foldl_mem, implies_true]
@[simp] theorem applySet_mem (s t : State) :
    (applySet s t).mem = t.mem := by simp only [applySet, State.bump_mem, journalAdd_mem, State.setBenchState_mem, functionsLost_mem, noteLocals_mem, trimDir_mem, scrubUnit_mem, scrubSq_mem, scrubEngine_mem, deleteBench_mem, ite_mem, ite_self, foldl_mem, implies_true]
@[simp] theorem freeProposalLock_mem (s : State) :
    (freeProposalLock s).mem = s.mem := by simp only [freeProposalLock, freeLock_mem, ite_mem, ite_self]
@[simp] theorem applyProposal_mem (t s : State) : (applyProposal t s).mem = t.mem := by
  unfold applyProposal
  rw [setPropState_mem, freeProposalLock_mem, applySet_mem]
@[simp] theorem writeDigest_mem (d : List Byte) (s : State) :
    (writeDigest d s).mem = s.mem := by simp only [writeDigest, State.setN_mem, foldl_mem, implies_true]
@[simp] theorem propStageAct_mem (via : Via) (o : ObjInfo) (e : Nat) (v : W64) (s : State) :
    (propStageAct via o e v s).1.mem = s.mem := by simp only [propStageAct, State.put_mem, propRefuse_mem, ite_fst_mem, ite_self]
@[simp] theorem csignSigAct_mem (e : Nat) (v : W64) (s : State) :
    (csignSigAct e v s).1.mem = s.mem := by simp only [csignSigAct, State.put_mem, propRefuse_mem, ite_fst_mem, ite_self]
@[simp] theorem reserveNumber_mem (n : Nat) (s : State) :
    (reserveNumber n s).2.mem = s.mem := by simp only [reserveNumber, journalAdd_mem, sealAll_mem, ite_snd_mem, ite_self]
@[simp] theorem propSubmitAct_mem (via : Via) (v : W64) (s : State) : (propSubmitAct via v s).1.mem = s.mem := by
  have h := reserveNumber_mem (s.elN O.PROP_SEQ 0 + 1) s
  have hw (d : List Byte) (n w : Nat) (u : State) :
      (setPropStatus (setFld ((writeDigest d (u.setN O.PROP_SEQ 0 n)).el O.PROP_STATUS 0) 47 16 w) (writeDigest d (u.setN O.PROP_SEQ 0 n))).mem
        = u.mem := by
    rw [setPropStatus_mem, writeDigest_mem, State.setN_mem]
  unfold propSubmitAct
  dsimp only
  iterate 6 (split; · exact propRefuse_mem ..)
  split
  · split <;> rename_i e <;> rw [e] at h
    · rw [propRefuse_mem]; exact h
    · split
      · rw [applyProposal_mem, State.withEntries_mem, hw]; exact h
      · rw [setPropState_mem, hw]; exact h
  · exact propRefuse_mem ..
@[simp] theorem propCountersignAct_mem (via : Via) (v : W64) (s : State) :
    (propCountersignAct via v s).1.mem = s.mem := by simp only [propCountersignAct, setPropState_mem, propRefuse_mem, ite_fst_mem, ite_self]
@[simp] theorem propCancelAct_mem (via : Via) (v : W64) (s : State) :
    (propCancelAct via v s).1.mem = s.mem := by simp only [propCancelAct, setPropState_mem, freeProposalLock_mem, propRefuse_mem, ite_fst_mem, ite_self]
@[simp] theorem proposalApply_mem (s : State) :
    (proposalApply s).mem = s.mem := by unfold proposalApply; dsimp only; (repeat' split) <;> (try simp only [setPropState_mem, State.withEntries_mem, freeProposalLock_mem, applyProposal_mem, propRefuse_mem])

/-! ## Drain -/

@[simp] theorem qHostAct_mem (q : Nat) (v : W64) (s : State) :
    (qHostAct q v s).1.mem = s.mem := by simp only [qHostAct, State.put_mem, State.setN_mem, noteQueue_mem, ite_mem, ite_fst_mem, ite_self]
@[simp] theorem ringAct_mem (o : ObjInfo) (align q : Nat) (v : W64) (s : State) :
    (ringAct o align q v s).1.mem = s.mem := by simp only [ringAct, State.put_mem, ite_fst_mem, ite_self]
@[simp] theorem doorbell_mem (q c : Nat) (s : State) :
    (doorbell q c s).mem = s.mem := by simp only [doorbell, State.setN_mem, State.inc_mem, ite_mem, ite_self]
@[simp] theorem dblWrite_mem (f off : Nat) (bytes : List Byte) (s : State) :
    (dblWrite f off bytes s).mem = s.mem := by simp only [dblWrite, tableWrite_mem, doorbell_mem, ite_mem, ite_self]
@[simp] theorem dblRead_mem (f off len : Nat) (s : State) :
    (dblRead f off len s).mem = s.mem := by simp only [dblRead, State.drawn_mem, State.send_mem, ite_mem, ite_self]
@[simp] theorem dblNow_mem (f off : Nat) (acc : DblAccess) (s : State) :
    (dblNow f off acc s).mem = s.mem := by unfold dblNow; (repeat' split) <;> (try simp only [dblWrite_mem, dblRead_mem])
@[simp] theorem dblRequest_mem (f off : Nat) (acc : DblAccess) (s : State) : (dblRequest f off acc s).mem = s.mem := by
  unfold dblRequest
  split
  · exact postedWrite_mem _ _ _ _ (dblNow_mem ..)
  · exact windowRead_mem _ _ _ _ (dblNow_mem ..)
@[simp] theorem hostWrites_mem (f : Nat) (relaxed : Bool) (n addr : Nat) (bs : List Byte) (s : State) :
    (hostWrites f relaxed n addr bs s).mem = s.mem := by
  induction n generalizing addr bs s with
  | zero => rfl
  | succ n ih =>
    rw [hostWrites]; split
    · rfl
    · dsimp only; rw [ih, State.send_mem]
@[simp] theorem sendData_mem (q : Nat) (bs : List Byte) (s : State) :
    (sendData q bs s).mem = s.mem := by simp only [sendData, hostWrites_mem]
@[simp] theorem writeBack_mem (q : Nat) (s : State) :
    (writeBack q s).mem = s.mem := by simp only [writeBack, State.send_mem, ite_mem, ite_self]
@[simp] theorem noteDrain_mem (h q : Nat) (s : State) :
    (noteDrain h q s).mem = s.mem := by simp only [noteDrain, State.modPort_mem]
@[simp] theorem transfer_mem (q : Nat) (s : State) :
    (transfer q s).mem = s.mem := by unfold transfer; dsimp only; (repeat' split) <;> (try simp only [State.setQueue_mem, releaseLink_mem, advIndex_mem, postNotice_mem, sendData_mem, writeBack_mem])
@[simp] theorem drainPace_mem (h n : Nat) (s : State) :
    (drainPace h n s).mem = s.mem := by simp only [drainPace, State.modPort_mem, advanceTo_mem, ite_mem, ite_self]
@[simp] theorem drainOnce_mem (h : Nat) (s : State) :
    (drainOnce h s).mem = s.mem := by unfold drainOnce; (repeat' split) <;> (try simp only [noteDrain_mem, transfer_mem, drainPace_mem])
@[simp] theorem readoutStartAct_mem (q : Nat) (s : State) :
    (readoutStartAct q s).1.mem = s.mem := by unfold readoutStartAct; (try dsimp only); repeat' (first | rfl | (simp only [State.setN_mem, State.modQueue_mem, readAt_mem, ite_mem, ite_fst_mem, ite_snd_mem, ite_self, foldl_mem, implies_true]; done) | split | (refine (foldl_mem _ _ _ ?_).trans ?_; intro _ _))
@[simp] theorem readoutStopAct_mem (q : Nat) (s : State) :
    (readoutStopAct q s).1.mem = s.mem := by unfold readoutStopAct; repeat' (first | rfl | (simp only [State.modQueue_mem, setReadout_mem, readAt_mem, ite_mem, ite_fst_mem, ite_snd_mem, ite_self, foldl_mem, implies_true]; done) | split | (refine (foldl_mem _ _ _ ?_).trans ?_; intro _ _))
@[simp] theorem readoutEnds_mem (q v : Nat) (s : State) :
    (readoutEnds q v s).mem = s.mem := by unfold readoutEnds; repeat' (first | rfl | (simp only [State.modQueue_mem, setReadout_mem, readAt_mem, ite_mem, ite_fst_mem, ite_snd_mem, ite_self, foldl_mem, implies_true]; done) | split | (refine (foldl_mem _ _ _ ?_).trans ?_; intro _ _))

/-! ## Modes -/

@[simp] theorem setFwSlot_mem (k : Nat) (ok : Bool) (s : State) :
    (setFwSlot k ok s).mem = s.mem := by cases s; rfl
@[simp] theorem loadProtection_mem (s : State) :
    (loadProtection s).mem = s.mem := by simp only [loadProtection, State.put_mem, refreshHeld_mem, foldl_mem, implies_true]
@[simp] theorem replayJournal_mem (s : State) :
    (replayJournal s).mem = s.mem := by simp only [replayJournal, State.put_mem, loadProtection_mem, foldl_mem, implies_true]
@[simp] theorem placeRanks_mem (s : State) :
    (placeRanks s).mem = s.mem := by simp only [placeRanks, State.put_mem, State.setHomeRanks_mem, foldl_mem, implies_true]
@[simp] theorem logBoot_mem (b : Base) (s : State) :
    (logBoot b s).mem = s.mem := by cases s; rfl
@[simp] theorem powerOn_mem (milliV : Nat) (s : State) :
    (powerOn milliV s).mem = s.mem := by simp only [powerOn, State.put_mem, advance_mem, State.setMode_mem, setFwSlot_mem, replayJournal_mem, placeRanks_mem, logBoot_mem, ite_mem, ite_self]
@[simp] theorem lastProgram_mem (s : State) :
    (lastProgram s).mem = s.mem := by simp only [lastProgram, State.drawn_mem, sealFirst_mem, ite_mem, ite_self]
@[simp] theorem lastPrograms_mem (s : State) :
    (lastPrograms s).mem = s.mem := by simp only [lastPrograms, lastProgram_mem]
@[simp] theorem enterBringup_mem (s : State) :
    (enterBringup s).mem = s.mem := by simp only [enterBringup, State.setMode_mem, refreshMig_mem, logBoot_mem]
@[simp] theorem bootAuth_mem (ok0 ok1 : Bool) (s : State) :
    (bootAuth ok0 ok1 s).mem = s.mem := by simp only [bootAuth, journalAdd_mem, enterRecovery_mem, raiseError_mem, setFwSlot_mem, enterBringup_mem, ite_mem, ite_self]
@[simp] theorem enterIdle_mem (s : State) :
    (enterIdle s).mem = s.mem := by simp only [enterIdle, State.setMode_mem, toService_mem, refreshStore_mem, allSelfRefresh_mem, ite_mem, ite_self]
@[simp] theorem bringupDone_mem (s : State) :
    (bringupDone s).mem = s.mem := by simp only [bringupDone, nextRetire_mem, logBoot_mem, enterIdle_mem, ite_mem, ite_self]
@[simp] theorem idleEntry_mem (s : State) :
    (idleEntry s).mem = s.mem := by simp only [idleEntry, advanceTo_mem, enterIdle_mem, ite_mem, ite_self]
@[simp] theorem endExclusiveAct_mem (s : State) :
    (endExclusiveAct s).1.mem = s.mem := by simp only [endExclusiveAct, leaveExclusive_mem, ite_fst_mem, ite_self]
@[simp] theorem exclusiveAct_mem (b : Nat) (s : State) :
    (exclusiveAct b s).1.mem = s.mem := by simp only [exclusiveAct, State.setN_mem, State.setMode_mem, ite_mem, ite_fst_mem, ite_self]
@[simp] theorem closeIdleCells_mem (s : State) :
    (closeIdleCells s).mem = s.mem := by simp only [closeIdleCells, closeCell_mem, ite_mem, ite_self, foldl_mem, implies_true]
@[simp] theorem quiesceAct_mem (off : Bool) (s : State) :
    (quiesceAct off s).1.mem = s.mem := by simp only [quiesceAct, State.setMode_mem, closeIdleCells_mem, ite_fst_mem, ite_self]
@[simp] theorem factoryAct_mem (s : State) :
    (factoryAct s).1.mem = s.mem := by simp only [factoryAct, State.setMode_mem, ite_fst_mem, ite_self]
@[simp] theorem endAllForReset_mem (s : State) :
    (endAllForReset s).mem = s.mem := by simp only [endAllForReset, finishStreams_mem, foldl_mem, implies_true]
@[simp] theorem closeAllCells_mem (s : State) :
    (closeAllCells s).mem = s.mem := by simp only [closeAllCells, closeCell_mem, foldl_mem, implies_true]
@[simp] theorem noteResetLoss_mem (s : State) (r : StoreReq) :
    (noteResetLoss s r).mem = s.mem := by unfold noteResetLoss; (repeat' split) <;> (try simp only [State.setEl_mem])
@[simp] theorem resetJournal_mem (s : State) :
    (resetJournal s).mem = s.mem := by simp only [resetJournal, sealFirst_mem, ite_mem, ite_self]
@[simp] theorem warmState_mem (s : State) :
    (warmState s).mem = s.mem := by cases s; rfl
@[simp] theorem tidy_mem (s : State) :
    (tidy s).mem = s.mem := by cases s; rfl
@[simp] theorem warmShown_mem (s : State) :
    (warmShown s).mem = s.mem := by simp only [warmShown, State.setEl_mem, State.setN_mem, intUpdate_mem, refreshLink_mem, refreshFunc_mem, foldl_mem, implies_true]
@[simp] theorem noteComputed_mem (s t : State) :
    (noteComputed s t).mem = t.mem := by simp only [noteComputed, State.touchIf_mem, noteLocals_mem, ite_mem, ite_self, foldl_mem, implies_true]

/-! ## Health -/

@[simp] theorem showReadings_mem (l : List Int) (milliV milliW : Nat) (s : State) :
    (showReadings l milliV milliW s).mem = s.mem := by simp only [showReadings, State.setEl_mem, State.setN_mem, foldl_mem, implies_true]
@[simp] theorem warnStep_mem (l : List Int) (s : State) :
    (warnStep l s).mem = s.mem := by simp only [warnStep, raiseError_mem, ite_mem, ite_self]
@[simp] theorem inletStep_mem (l : List Int) (s : State) :
    (inletStep l s).mem = s.mem := by simp only [inletStep, raiseError_mem, ite_mem, ite_self]
@[simp] theorem throttleStep_mem (l : List Int) (s : State) :
    (throttleStep l s).mem = s.mem := by unfold throttleStep; dsimp only; (repeat' split) <;> (try simp only [raiseError_mem])
@[simp] theorem emergencyStep_mem (l : List Int) (s : State) :
    (emergencyStep l s).mem = s.mem := by simp only [emergencyStep, State.setMode_mem, safeTrigger_mem, raiseError_mem, ite_mem, ite_self]
@[simp] theorem refreshThermal_mem (s : State) :
    (refreshThermal s).mem = s.mem := by simp only [refreshThermal, State.setN_mem]
@[simp] theorem sensorRead_mem (l : List Int) (milliV milliW : Nat) (s : State) : (sensorRead l milliV milliW s).mem = s.mem := by
  have h (t : State) (x : Health) : ({ t with health := x } : State).mem = t.mem := by cases t; rfl
  unfold sensorRead
  split
  · rfl
  · dsimp only
    rw [refreshThermal_mem, emergencyStep_mem, throttleStep_mem, inletStep_mem, warnStep_mem, showReadings_mem, h,
      advanceTo_mem]
@[simp] theorem inputRange_mem (milliV : Nat) (s : State) :
    (inputRange milliV s).mem = s.mem := by simp only [inputRange, State.setN_mem, State.setMode_mem, safeTrigger_mem, raiseError_mem, ite_mem, ite_self]
@[simp] theorem railFault_mem (rail : Nat) (s : State) :
    (railFault rail s).mem = s.mem := by simp only [railFault, State.setMode_mem, safeTrigger_mem, raiseError_mem, ite_mem, ite_self]
@[simp] theorem errAckAct_mem (src : Nat) (v : W64) (s : State) :
    (errAckAct src v s).1.mem = s.mem := by simp only [errAckAct, State.setN_mem, putRecord_mem, refreshSummary_mem, ite_fst_mem, ite_self]
@[simp] theorem fenceTile_mem (t : Nat) (s : State) :
    (fenceTile t s).mem = s.mem := by simp only [fenceTile, State.setEl_mem, State.setN_mem, State.setMode_mem, gateTile_mem, foldl_mem, implies_true]
@[simp] theorem tileError_mem (t : Nat) (e : TileError) (s : State) :
    (tileError t e s).mem = s.mem := by unfold tileError; (repeat' split) <;> (try simp only [raiseError_mem, fenceTile_mem])
@[simp] theorem tileResetAct_mem (t : Nat) (v : W64) (s : State) :
    (tileResetAct t v s).1.mem = s.mem := by simp only [tileResetAct, State.clearEls_mem, ite_fst_mem, ite_self, foldl_mem, implies_true]
@[simp] theorem tileTested_mem (t : Nat) (pass : Bool) (s : State) :
    (tileTested t pass s).mem = s.mem := by simp only [tileTested, State.setN_mem, gateTile_mem, ungateTile_mem, tileError_mem, ite_mem, ite_self]
@[simp] theorem watchdog_mem (s : State) :
    (watchdog s).mem = s.mem := by simp only [watchdog, raiseError_mem, breakLocksOf_mem, closeAllSessions_mem, ite_mem, ite_self, foldl_mem, implies_true]

/-! ## Firmware -/

@[simp] theorem refreshSlot_mem (k : Nat) (ok : Bool) (s : State) :
    (refreshSlot k ok s).mem = s.mem := by simp only [refreshSlot, State.setEl_mem]
@[simp] theorem fwBeginAct_mem (v : W64) (s : State) :
    (fwBeginAct v s).1.mem = s.mem := by simp only [fwBeginAct, State.setN_mem, refreshSlot_mem, ite_fst_mem, ite_self]
@[simp] theorem fwPageAct_mem (v : W64) (s : State) :
    (fwPageAct v s).1.mem = s.mem := by simp only [fwPageAct, ite_fst_mem, ite_self]
@[simp] theorem pageDone_mem (s : State) :
    (pageDone s).mem = s.mem := by unfold pageDone; (repeat' split) <;> (try simp only [enterSafe_mem, refreshSlot_mem, ite_mem, ite_self])
@[simp] theorem fwFinishAct_mem (v : W64) (s : State) :
    (fwFinishAct v s).1.mem = s.mem := by simp only [fwFinishAct, State.setN_mem, ite_fst_mem, ite_self]
@[simp] theorem verified_mem (ok : Bool) (s : State) :
    (verified ok s).mem = s.mem := by simp only [verified, State.setN_mem, journalAdd_mem, refreshSlot_mem, ite_mem, ite_self]

/-! ## Outputs -/

@[simp] theorem setAux0Phase_mem (p : Nat) (s : State) :
    (setAux0Phase p s).mem = s.mem := by cases s; rfl
@[simp] theorem restartOutputs_mem (r : Restart) (s : State) :
    (restartOutputs r s).mem = s.mem := by simp only [restartOutputs, State.send_mem]
@[simp] theorem activateOutputs_mem (s : State) :
    (activateOutputs s).mem = s.mem := by simp only [activateOutputs, State.setEl_mem, foldl_mem, implies_true]
@[simp] theorem applyOutputs_mem (s : State) :
    (applyOutputs s).mem = s.mem := by simp only [applyOutputs, setAux0Phase_mem, restartOutputs_mem, activateOutputs_mem, ite_mem, ite_self]
@[simp] theorem syncOutputs_mem (s : State) :
    (syncOutputs s).mem = s.mem := by simp only [syncOutputs, setAux0Phase_mem, restartOutputs_mem, activateOutputs_mem, ite_mem, ite_self]
@[simp] theorem outApplyAct_mem (v : W64) (s : State) :
    (outApplyAct v s).1.mem = s.mem := by simp only [outApplyAct, applyOutputs_mem, ite_fst_mem, ite_self]
@[simp] theorem syncIn_mem (s : State) :
    (syncIn s).mem = s.mem := by simp only [syncIn, State.inc_mem, syncOutputs_mem, ite_mem, ite_self]
@[simp] theorem startHop_mem (slot : Nat) (s : State) :
    (startHop slot s).mem = s.mem := by simp only [startHop, State.setN_mem]
@[simp] theorem planSelectAct_mem (v : W64) (s : State) :
    (planSelectAct v s).1.mem = s.mem := by simp only [planSelectAct, startHop_mem, ite_fst_mem, ite_self]
@[simp] theorem setPlanSched_mem (v : Nat) (s : State) :
    (setPlanSched v s).mem = s.mem := by simp only [setPlanSched, State.setEl_mem]
@[simp] theorem hopOrWait_mem (slot : Nat) (s : State) :
    (hopOrWait slot s).mem = s.mem := by simp only [hopOrWait, startHop_mem, ite_mem, ite_self]
@[simp] theorem performHeld_mem (s : State) :
    (performHeld s).mem = s.mem := by simp only [performHeld, setAux0Phase_mem, restartOutputs_mem, activateOutputs_mem, ite_mem, ite_self]
@[simp] theorem startDelayed_mem (s : State) :
    (startDelayed s).mem = s.mem := by unfold startDelayed; (repeat' split) <;> (try simp only [startHop_mem, setPlanSched_mem, ite_mem, ite_self])
@[simp] theorem planHopDone_mem (band : Nat) (s : State) :
    (planHopDone band s).mem = s.mem := by unfold planHopDone; (repeat' split) <;> (try simp only [State.setEl_mem, performHeld_mem, startDelayed_mem])
@[simp] theorem dropDelayed_mem (s : State) :
    (dropDelayed s).mem = s.mem := by cases s; rfl
@[simp] theorem latePlan_mem (s : State) :
    (latePlan s).mem = s.mem := by simp only [latePlan, setPlanSched_mem, hopOrWait_mem, dropDelayed_mem, ite_mem, ite_self]
@[simp] theorem planAtAct_mem (v : W64) (s : State) :
    (planAtAct v s).1.mem = s.mem := by simp only [planAtAct, State.put_mem, setPlanSched_mem, dropDelayed_mem, latePlan_mem, ite_fst_mem, ite_self]
@[simp] theorem scheduledHop_mem (s : State) :
    (scheduledHop s).mem = s.mem := by simp only [scheduledHop, advanceMod_mem, setPlanSched_mem, hopOrWait_mem, ite_mem, ite_self]
@[simp] theorem setPps_mem (v : Bool) (s : State) :
    (setPps v s).mem = s.mem := by simp only [setPps, State.send_mem, drivePin_mem, ite_mem, ite_self, foldl_mem, implies_true]
@[simp] theorem ppsEnd_mem (s : State) :
    (ppsEnd s).mem = s.mem := by simp only [ppsEnd, advanceTo_mem, setPps_mem, ite_mem, ite_self]
@[simp] theorem ppsSecond_mem (s : State) :
    (ppsSecond s).mem = s.mem := by simp only [ppsSecond, advanceMod_mem, setPps_mem, ppsEnd_mem, ite_mem, ite_self]
@[simp] theorem setEdgeSched_mem (n v : Nat) (s : State) :
    (setEdgeSched n v s).mem = s.mem := by simp only [setEdgeSched, State.setEl_mem]
@[simp] theorem clearPin_mem (n : Nat) (s : State) :
    (clearPin n s).mem = s.mem := by simp only [clearPin, State.setPin_mem]
@[simp] theorem failEdge_mem (n : Nat) (s : State) :
    (failEdge n s).mem = s.mem := by simp only [failEdge, State.setEl_mem, State.drawn_mem, setEdgeSched_mem, ite_mem, ite_self]
@[simp] theorem trigIoAct_mem (n : Nat) (v : W64) (s : State) :
    (trigIoAct n v s).1.mem = s.mem := by simp only [trigIoAct, State.put_mem, drivePin_mem, clearPin_mem, failEdge_mem, ite_mem, ite_fst_mem, ite_self]
@[simp] theorem trigInput_mem (n : Nat) (x : PinEdge) (s : State) :
    (trigInput n x s).mem = s.mem := by simp only [trigInput, State.setEl_mem, State.inc_mem, ite_mem, ite_self]
@[simp] theorem performEdge_mem (n : Nat) (s : State) :
    (performEdge n s).mem = s.mem := by unfold performEdge; (repeat' split) <;> (try simp only [setPinState_mem, pulsePin_mem])
@[simp] theorem lateEdge_mem (n : Nat) (s : State) :
    (lateEdge n s).mem = s.mem := by simp only [lateEdge, setEdgeSched_mem, performEdge_mem, ite_mem, ite_self]
@[simp] theorem edgeAtAct_mem (n : Nat) (v : W64) (s : State) :
    (edgeAtAct n v s).1.mem = s.mem := by simp only [edgeAtAct, State.put_mem, setEdgeSched_mem, lateEdge_mem, ite_fst_mem, ite_self]
@[simp] theorem scheduledEdge_mem (n : Nat) (s : State) :
    (scheduledEdge n s).mem = s.mem := by simp only [scheduledEdge, advanceMod_mem, setEdgeSched_mem, performEdge_mem, ite_mem, ite_self]
@[simp] theorem setAux1Queue_mem (q : List Nat) (s : State) :
    (setAux1Queue q s).mem = s.mem := by simp only [setAux1Queue, State.setN_mem]
@[simp] theorem aux1PushAct_mem (v : W64) (s : State) :
    (aux1PushAct v s).1.mem = s.mem := by simp only [aux1PushAct, setAux1Queue_mem, ite_fst_mem, ite_self]
@[simp] theorem aux1FlushAct_mem (s : State) :
    (aux1FlushAct s).1.mem = s.mem := by simp only [aux1FlushAct, setAux1Queue_mem]
@[simp] theorem aux1Next_mem (s : State) :
    (aux1Next s).2.mem = s.mem := by unfold aux1Next; (repeat' split) <;> (try simp only [State.inc_mem, setAux1Queue_mem])
@[simp] theorem aux1Sample_mem (s : State) :
    (aux1Sample s).mem = s.mem := by simp only [aux1Sample, State.send_mem, advanceTo_mem, aux1Next_mem, ite_mem, ite_self]

/-! ## Refs -/

@[simp] theorem passArm_mem (old : Nat) (s : State) (b : Nat) :
    (passArm old s b).mem = s.mem := by simp only [passArm, State.setEl_mem, tryArm_mem, setArmSched_mem, ite_mem, ite_self]
@[simp] theorem passDisarm_mem (old : Nat) (s : State) (b : Nat) :
    (passDisarm old s b).mem = s.mem := by simp only [passDisarm, State.modBench_mem, disarmNow_mem, setDisarmSched_mem, ite_mem, ite_self]
@[simp] theorem passEdge_mem (old : Nat) (s : State) (n : Nat) :
    (passEdge old s n).mem = s.mem := by simp only [passEdge, lateEdge_mem, ite_mem, ite_self]
@[simp] theorem passPlan_mem (old : Nat) (s : State) :
    (passPlan old s).mem = s.mem := by simp only [passPlan, latePlan_mem, ite_mem, ite_self]
@[simp] theorem stepPass_mem (old : Nat) (s : State) :
    (stepPass old s).mem = s.mem := by simp only [stepPass, passArm_mem, passDisarm_mem, passEdge_mem, passPlan_mem, foldl_mem, implies_true]
@[simp] theorem refreshLeap_mem (s : State) :
    (refreshLeap s).mem = s.mem := by cases s; rfl
@[simp] theorem stepTime_mem (t : Nat) (s : State) :
    (stepTime t s).mem = s.mem := by simp only [stepTime, State.setN_mem, stepPass_mem, refreshLeap_mem]
@[simp] theorem refreshClass_mem (s : State) :
    (refreshClass s).mem = s.mem := by simp only [refreshClass, State.setN_mem]
@[simp] theorem takeUpstream_mem (s : State) :
    (takeUpstream s).mem = s.mem := by simp only [takeUpstream, State.setEl_mem, State.setN_mem, refreshLeap_mem, ite_mem, ite_self]
@[simp] theorem showSel_mem (v : Nat) (s : State) :
    (showSel v s).mem = s.mem := by simp only [showSel, State.setEl_mem, State.setN_mem, State.drawn_mem, ite_mem, ite_self]
@[simp] theorem setSel_mem (v target : Nat) (s : State) :
    (setSel v target s).mem = s.mem := by simp only [setSel, refreshClass_mem, takeUpstream_mem, showSel_mem]
@[simp] theorem freezeLoop_mem (s : State) :
    (freezeLoop s).mem = s.mem := by cases s; rfl
@[simp] theorem freezeOnce_mem (s : State) :
    (freezeOnce s).mem = s.mem := by simp only [freezeOnce, freezeLoop_mem, ite_mem, ite_self]
@[simp] theorem enterHoldover_mem (s : State) :
    (enterHoldover s).mem = s.mem := by simp only [enterHoldover, raiseError_mem, setSel_mem]
@[simp] theorem switchOrHold_mem (s : State) :
    (switchOrHold s).mem = s.mem := by unfold switchOrHold; (repeat' split) <;> (try simp only [setSel_mem, enterHoldover_mem])
@[simp] theorem reselect_mem (s : State) :
    (reselect s).mem = s.mem := by unfold reselect; (repeat' split) <;> (try simp only [setSel_mem])
@[simp] theorem refLost_mem (s : State) :
    (refLost s).mem = s.mem := by unfold refLost; dsimp only; (repeat' split) <;> (try simp only [raiseError_mem, setSel_mem, freezeOnce_mem, switchOrHold_mem])
@[simp] theorem lockLost_mem (s : State) :
    (lockLost s).mem = s.mem := by simp only [lockLost, freezeOnce_mem, switchOrHold_mem, ite_mem, ite_self]
@[simp] theorem slewAway_mem (offset : Int) (s : State) :
    (slewAway offset s).mem = s.mem := by cases s; rfl
@[simp] theorem lockDelay_mem (offset : Int) (s : State) :
    (lockDelay offset s).mem = s.mem := by simp only [lockDelay, advanceTo_mem, stepTime_mem, setSel_mem, reselect_mem, slewAway_mem, ite_mem, ite_self]
@[simp] theorem switchDone_mem (offset : Int) (s : State) :
    (switchDone offset s).mem = s.mem := by simp only [switchDone, setSel_mem, reselect_mem, slewAway_mem, ite_mem, ite_self]
@[simp] theorem holdoverClass_mem (s : State) :
    (holdoverClass s).mem = s.mem := by simp only [holdoverClass, advanceTo_mem, refreshClass_mem, ite_mem, ite_self]
@[simp] theorem setRefState_mem (r v : Nat) (s : State) :
    (setRefState r v s).mem = s.mem := by simp only [setRefState, State.setN_mem, State.setRef_mem]
@[simp] theorem refFails_mem (r : Nat) (s : State) :
    (refFails r s).mem = s.mem := by simp only [refFails, setRefState_mem, ite_mem, ite_self]
@[simp] theorem refMeasure_mem (r : Nat) (ppb : Int) (s : State) :
    (refMeasure r ppb s).mem = s.mem := by simp only [refMeasure, State.setEl_mem, State.setN_mem, State.setRef_mem, advanceTo_mem, reselect_mem, refFails_mem, ite_mem, ite_self]
@[simp] theorem ref10Stops_mem (s : State) :
    (ref10Stops s).mem = s.mem := by simp only [ref10Stops, State.setRef_mem, setRefState_mem, ite_mem, ite_self]
@[simp] theorem ref10Returns_mem (s : State) :
    (ref10Returns s).mem = s.mem := by simp only [ref10Returns, setRefState_mem, ite_mem, ite_self]
@[simp] theorem ppsIn_mem (cycles : Nat) (off : Int) (s : State) :
    (ppsIn cycles off s).mem = s.mem := by simp only [ppsIn, State.setRef_mem, refFails_mem, ite_mem, ite_self]
@[simp] theorem ppsMissing_mem (s : State) :
    (ppsMissing s).mem = s.mem := by unfold ppsMissing; (repeat' split) <;> (try simp only [advanceTo_mem, refFails_mem])
@[simp] theorem refreshPtp_mem (m : Nat) (s : State) :
    (refreshPtp m s).mem = s.mem := by simp only [refreshPtp, State.setN_mem, ite_mem, ite_self]
@[simp] theorem announceTimeout_mem (s0 : State) :
    (announceTimeout s0).mem = s0.mem := by simp only [announceTimeout, State.setN_mem, advanceTo_mem, setRefState_mem, ite_mem, ite_self]
@[simp] theorem ptpAnnounce_mem (x : Announce) (s : State) :
    (ptpAnnounce x s).mem = s.mem := by simp only [ptpAnnounce, State.setN_mem, refreshClass_mem, takeUpstream_mem, ite_mem, ite_self]
@[simp] theorem ptpSync_mem (off : Int) (s : State) :
    (ptpSync off s).mem = s.mem := by simp only [ptpSync, State.setEl_mem, State.setN_mem, setRefState_mem, refFails_mem, ite_mem, ite_self]
@[simp] theorem sendPtp_mem (m : Nat) (kind : PtpKind) (s : State) :
    (sendPtp m kind s).mem = s.mem := by cases s; rfl
@[simp] theorem ptpReceived_mem (m : Nat) (msg : PtpMsg) (s : State) :
    (ptpReceived m msg s).mem = s.mem := by unfold ptpReceived; (repeat' split) <;> (try simp only [ptpAnnounce_mem, ptpSync_mem, sendPtp_mem])
@[simp] theorem endInterval_mem (m : Nat) (kind : PtpKind) (s : State) :
    (endInterval m kind s).mem = s.mem := by
  simp only [endInterval]; split <;> simp only [advanceTo_mem]
@[simp] theorem ptpSent_mem (m : Nat) (kind : PtpKind) (s : State) :
    (ptpSent m kind s).mem = s.mem := by unfold ptpSent; (repeat' split) <;> (try simp only [State.send_mem, sendPtp_mem, endInterval_mem, ite_mem, ite_self])
@[simp] theorem writeTime_mem (t : Nat) (s : State) :
    (writeTime t s).mem = s.mem := by simp only [writeTime, stepTime_mem, ite_mem, ite_self]
@[simp] theorem timeSetAct_mem (via : Via) (e : Nat) (v : W64) (s : State) :
    (timeSetAct via e v s).1.mem = s.mem := by unfold timeSetAct; dsimp only; (repeat' split) <;> (try simp only [writeTime_mem])
@[simp] theorem calUtcAct_mem (v : W64) (s : State) :
    (calUtcAct v s).1.mem = s.mem := by simp only [calUtcAct, stepTime_mem, ite_fst_mem, ite_self]
@[simp] theorem leapSecond_mem (s : State) :
    (leapSecond s).mem = s.mem := by unfold leapSecond; (repeat' split) <;> (try simp only [State.setEl_mem, State.setN_mem, advanceMod_mem, refreshLeap_mem])

/-! ## Net -/

@[simp] theorem netLinkDown_mem (m : Nat) (s : State) :
    (netLinkDown m s).mem = s.mem := by simp only [netLinkDown, State.setN_mem, raiseError_mem, refreshPtp_mem, ite_mem, ite_self]
@[simp] theorem netLinkUp_mem (m : Nat) (s : State) :
    (netLinkUp m s).mem = s.mem := by simp only [netLinkUp, State.setN_mem, refreshPtp_mem, ite_mem, ite_self]
@[simp] theorem closeIfGone_mem (m : Nat) (s : State) (k : Nat) :
    (closeIfGone m s k).mem = s.mem := by unfold closeIfGone; (repeat' split) <;> (try simp only [closeSession_mem])
@[simp] theorem netApplyAct_mem (m : Nat) (v : W64) (s : State) :
    (netApplyAct m v s).1.mem = s.mem := by simp only [netApplyAct, State.setNetCfg_mem, closeIfGone_mem, ite_fst_mem, ite_self, foldl_mem, implies_true]
@[simp] theorem frameIn_mem (m len : Nat) (frame : EthFrame) (s : State) :
    (frameIn m len frame s).mem = s.mem := by unfold frameIn; (repeat' split) <;> (try simp only [State.inc_mem, State.send_mem])
@[simp] theorem openSession_mem (m addr k id : Nat) (p : List Byte) (s : State) :
    (openSession m addr k id p s).mem = s.mem := by simp only [openSession, State.setEl_mem, State.send_mem, State.setSession_mem, resetCopy_mem, refreshSessions_mem]
@[simp] theorem helloIn_mem (m addr : Nat) (p : List Byte) (s : State) :
    (helloIn m addr p s).mem = s.mem := by unfold helloIn; (repeat' split) <;> (try simp only [State.inc_mem, State.drawn_mem, State.send_mem, openSession_mem])
@[simp] theorem dataIn_mem (p : List Byte) (s : State) :
    (dataIn p s).mem = s.mem := by unfold dataIn; (repeat' split) <;> (try simp only [State.inc_mem, State.setSession_mem])
@[simp] theorem vdpIn_mem (m addr : Nat) (p : List Byte) (s : State) :
    (vdpIn m addr p s).mem = s.mem := by simp only [vdpIn, State.inc_mem, helloIn_mem, dataIn_mem, ite_mem, ite_self]
@[simp] theorem sessionIdle_mem (k : Nat) (s : State) :
    (sessionIdle k s).mem = s.mem := by unfold sessionIdle; (repeat' split) <;> (try simp only [advanceTo_mem, closeSession_mem])
@[simp] theorem sessionCloseAct_mem (v : W64) (s : State) :
    (sessionCloseAct v s).1.mem = s.mem := by unfold sessionCloseAct; (repeat' split) <;> (try simp only [closeSession_mem])

/-! ## Access -/

@[simp] theorem portSetAct_mem (o : ObjInfo) (p : Nat) (v : W64) (s : State) :
    (portSetAct o p v s).1.mem = s.mem := by simp only [portSetAct, State.put_mem, ite_fst_mem, ite_self]
@[simp] theorem idleSetAct_mem (o : ObjInfo) (e : Nat) (v : W64) (s : State) :
    (idleSetAct o e v s).1.mem = s.mem := by simp only [idleSetAct, State.put_mem, ite_fst_mem, ite_self]
@[simp] theorem benchSetAct_mem (o : ObjInfo) (b e : Nat) (v : W64) (s : State) :
    (benchSetAct o b e v s).1.mem = s.mem := by simp only [benchSetAct, State.put_mem, ite_fst_mem, ite_self]
@[simp] theorem bitsSetAct_mem (o : ObjInfo) (e : Nat) (v mask : W64) (s : State) :
    (bitsSetAct o e v mask s).1.mem = s.mem := by simp only [bitsSetAct, State.put_mem, ite_fst_mem, ite_self]
@[simp] theorem qConfigAct_mem (q : Nat) (v : W64) (s : State) :
    (qConfigAct q v s).1.mem = s.mem := by simp only [qConfigAct, State.put_mem, noteQueue_mem, ite_fst_mem, ite_self]
@[simp] theorem eventQueueAct_mem (b : Nat) (v : W64) (s : State) :
    (eventQueueAct b v s).1.mem = s.mem := by simp only [eventQueueAct, State.put_mem, ite_fst_mem, ite_self]
@[simp] theorem journalSettings_mem (s : State) :
    (journalSettings s).mem = s.mem := by simp only [journalSettings, journalAdd_mem]
@[simp] theorem spareAct_mem (v : W64) (s : State) :
    (spareAct v s).1.mem = s.mem := by simp only [spareAct, State.put_mem, journalSettings_mem, ite_fst_mem, ite_self]
@[simp] theorem subsysAct_mem (h : Nat) (v : W64) (s : State) :
    (subsysAct h v s).1.mem = s.mem := by simp only [subsysAct, State.put_mem, journalSettings_mem]
@[simp] theorem intPendingAct_mem (h : Nat) (v : W64) (s : State) :
    (intPendingAct h v s).1.mem = s.mem := by simp only [intPendingAct, State.put_mem, intUpdate_mem, ite_fst_mem, ite_self]
@[simp] theorem intMaskAct_mem (h : Nat) (v : W64) (s : State) :
    (intMaskAct h v s).1.mem = s.mem := by simp only [intMaskAct, State.put_mem, intUpdate_mem, ite_fst_mem, ite_self]
@[simp] theorem winBaseAct_mem (e : Nat) (v : W64) (s : State) :
    (winBaseAct e v s).1.mem = s.mem := by simp only [winBaseAct, State.put_mem, ite_fst_mem, ite_self]
@[simp] theorem readoutRangeAct_mem (q : Nat) (v : W64) (s : State) :
    (readoutRangeAct q v s).1.mem = s.mem := by simp only [readoutRangeAct, State.put_mem, ite_fst_mem, ite_self]
@[simp] theorem readoutCmdAct_mem (q : Nat) (v : W64) (s : State) :
    (readoutCmdAct q v s).1.mem = s.mem := by simp only [readoutCmdAct, readoutStartAct_mem, readoutStopAct_mem, ite_fst_mem, ite_self]
@[simp] theorem fillCmdAct_mem (e : Nat) (v : W64) (s : State) :
    (fillCmdAct e v s).1.mem = s.mem := by simp only [fillCmdAct, fillStartAct_mem, fillAbortAct_mem, ite_fst_mem, ite_self]
@[simp] theorem linkModeAct_mem (m : Nat) (v : W64) (s : State) :
    (linkModeAct m v s).1.mem = s.mem := by simp only [linkModeAct, State.put_mem, ite_fst_mem, ite_self]
@[simp] theorem netFecAct_mem (m : Nat) (v : W64) (s : State) :
    (netFecAct m v s).1.mem = s.mem := by simp only [netFecAct, State.put_mem, ite_fst_mem, ite_self]
@[simp] theorem refPriorityAct_mem (r : Nat) (v : W64) (s : State) :
    (refPriorityAct r v s).1.mem = s.mem := by simp only [refPriorityAct, State.put_mem, reselect_mem, refreshPtp_mem]
@[simp] theorem revertiveAct_mem (v : W64) (s : State) :
    (revertiveAct v s).1.mem = s.mem := by simp only [revertiveAct, State.put_mem, reselect_mem]
@[simp] theorem calendarAct_mem (o : ObjInfo) (v : W64) (s : State) :
    (calendarAct o v s).1.mem = s.mem := by simp only [calendarAct, State.put_mem, refreshLeap_mem, ite_fst_mem, ite_self]
@[simp] theorem planFreqAct_mem (k : Nat) (v : W64) (s : State) :
    (planFreqAct k v s).1.mem = s.mem := by simp only [planFreqAct, State.put_mem, State.setEl_mem, ite_fst_mem, ite_self]
@[simp] theorem outCfgAct_mem (n : Nat) (v : W64) (s : State) :
    (outCfgAct n v s).1.mem = s.mem := by simp only [outCfgAct, State.put_mem, ite_fst_mem, ite_self]
@[simp] theorem ppsEnableAct_mem (v : W64) (s : State) :
    (ppsEnableAct v s).1.mem = s.mem := by simp only [ppsEnableAct, State.put_mem, setPps_mem, ite_mem, ite_self]
@[simp] theorem auxFtwAct_mem (v : W64) (s : State) :
    (auxFtwAct v s).1.mem = s.mem := by simp only [auxFtwAct, State.put_mem, setAux0Phase_mem]
@[simp] theorem ptpCfgAct_mem (m : Nat) (v : W64) (s : State) :
    (ptpCfgAct m v s).1.mem = s.mem := by simp only [ptpCfgAct, State.put_mem, refreshPtp_mem, ite_fst_mem, ite_self]
@[simp] theorem modeCmdAct_mem (v : W64) (s : State) :
    (modeCmdAct v s).1.mem = s.mem := by unfold modeCmdAct; (repeat' split) <;> (try simp only [endExclusiveAct_mem, exclusiveAct_mem, quiesceAct_mem, factoryAct_mem])
@[simp] theorem casExpectAct_mem (e : Nat) (v : W64) (s : State) :
    (casExpectAct e v s).1.mem = s.mem := by simp only [casExpectAct, State.put_mem, ite_fst_mem, ite_self]
theorem linkRules_mem (e : Nat) (v : W64) : ∀ r ∈ linkRules e v, ∀ s, (r.2 s).1.mem = s.mem := by
  simp only [linkRules, List.mem_append, List.mem_cons, List.mem_map, List.not_mem_nil, or_false]
  rintro r ((h | h) | h) s
  · rcases h with rfl | rfl | rfl | rfl | rfl | rfl | rfl | rfl | rfl | rfl <;> simp
  · obtain ⟨o, _, rfl⟩ := h; simp
  · obtain ⟨o, _, rfl⟩ := h; simp
theorem sequencerRules_mem (e : Nat) (v : W64) : ∀ r ∈ sequencerRules e v, ∀ s, (r.2 s).1.mem = s.mem := by
  simp only [sequencerRules, List.mem_append, List.mem_cons, List.mem_map, List.not_mem_nil, or_false]
  rintro r (h | h) s
  · rcases h with rfl | rfl | rfl | rfl | rfl | rfl | rfl | rfl | rfl | rfl | rfl | rfl <;> simp
  · obtain ⟨o, _, rfl⟩ := h; simp
theorem benchRules_mem (via : Via) (e : Nat) (v : W64) : ∀ r ∈ benchRules via e v, ∀ s, (r.2 s).1.mem = s.mem := by
  simp only [benchRules, List.mem_append, List.mem_cons, List.mem_map, List.not_mem_nil, or_false]
  rintro r (h | h) s
  · rcases h with rfl | rfl | rfl | rfl | rfl | rfl | rfl | rfl | rfl <;> simp
  · obtain ⟨o, _, rfl⟩ := h; simp
theorem queueRules_mem (e : Nat) (v : W64) : ∀ r ∈ queueRules e v, ∀ s, (r.2 s).1.mem = s.mem := by
  simp only [queueRules, List.mem_cons, List.not_mem_nil, or_false]
  rintro r h s
  rcases h with rfl | rfl | rfl | rfl | rfl | rfl | rfl | rfl | rfl | rfl | rfl | rfl | rfl | rfl | rfl | rfl | rfl | rfl | rfl | rfl <;> simp
theorem timingRules_mem (via : Via) (e : Nat) (v : W64) : ∀ r ∈ timingRules via e v, ∀ s, (r.2 s).1.mem = s.mem := by
  simp only [timingRules, List.mem_cons, List.not_mem_nil, or_false]
  rintro r h s
  rcases h with rfl | rfl | rfl | rfl | rfl | rfl | rfl | rfl | rfl | rfl | rfl | rfl | rfl | rfl | rfl | rfl | rfl | rfl <;> simp
theorem callerRules_mem (e : Nat) (v : W64) : ∀ r ∈ callerRules e v, ∀ s, (r.2 s).1.mem = s.mem := by
  simp only [callerRules, List.mem_cons, List.not_mem_nil, or_false]
  rintro r h s
  rcases h with rfl | rfl | rfl <;> simp
@[simp] theorem readTime96_mem (via : Via) (o : ObjInfo) (e : Nat) (lo hi : W64) (s : State) :
    (readTime96 via o e lo hi s).1.mem = s.mem := by unfold readTime96; dsimp only; (repeat' split) <;> (try simp only [])
@[simp] theorem readCcValue_mem (via0 : Via) (e : Nat) (s : State) :
    (readCcValue via0 e s).1.mem = s.mem := by unfold readCcValue; dsimp only; (repeat' split) <;> (try simp only [])
@[simp] theorem readAct_mem (via : Via) (o : ObjInfo) (e : Nat) (s : State) :
    (readAct via o e s).1.mem = s.mem := by simp only [readAct, qPopAct_mem, readTime96_mem, readCcValue_mem, ite_fst_mem, ite_self]
@[simp] theorem relayReadAct_mem (via : Via) (e : Nat) (s : State) :
    (relayReadAct via e s).1.mem = s.mem := by unfold relayReadAct; dsimp only; (repeat' split) <;> (try simp only [relayAdvance_mem, readAct_mem])
@[simp] theorem readElem_mem (via : Via) (o : ObjInfo) (e : Nat) (s : State) : (readElem via o e s).1.mem = s.mem := by
  unfold readElem
  split
  · exact relayReadAct_mem ..
  · exact readAct_mem ..
@[simp] theorem readAll_mem (via : Via) (o : ObjInfo) (l : List Nat) (s : State) : (readAll via o l s).1.mem = s.mem := by
  induction l generalizing s with
  | nil => rfl
  | cons e t ih =>
    unfold readAll
    dsimp only
    split
    · rw [ih, readElem_mem]
    · rw [readElem_mem]
@[simp] theorem readMany_mem (via : Via) (o : ObjInfo) (l : List Nat) (s : State) : (readMany via o l s).1.mem = s.mem := by
  unfold readMany
  split
  · dsimp only
    split
    · rw [readAll_mem]
    · rfl
  · rfl

/-! ## Vdp -/

@[simp] theorem readRequest_mem (via : Via) (ref : W64) (count : Nat) (s : State) :
    (readRequest via ref count s).1.mem = s.mem := by unfold readRequest; (repeat' split) <;> (try simp only [readMany_mem])
theorem vdpRequest_mem (slot : Nat) (id : BitVec 32) (q : Asked) (act : State → State × Answer) (s : State)
    (h : ∀ t, (act t).1.mem = t.mem) : (vdpRequest slot id q act s).mem = s.mem := by
  unfold vdpRequest
  split
  · rfl
  · dsimp only
    split
    · rw [respond_mem, State.setSession_mem]
    · rw [respond_mem]
      split
      · rw [h, State.setSession_mem]
      · rw [State.setSession_mem, h, State.setSession_mem]
@[simp] theorem closeRequest_mem (slot : Nat) (id : BitVec 32) (s : State) :
    (closeRequest slot id s).mem = s.mem := by unfold closeRequest; (repeat' split) <;> (try simp only [closeSession_mem, vdpRequest_mem, implies_true])
@[simp] theorem subscribeRequest_mem (slot : Fin 64) (ref : W64) (count interval : Nat) (periodic : Bool) (s : State) :
    (subscribeRequest slot ref count interval periodic s).1.mem = s.mem := by unfold subscribeRequest; (repeat' split) <;> (try simp only [State.setSession_mem, ite_fst_mem, ite_self])
@[simp] theorem endSub_mem (slot k : Nat) (s : State) :
    (endSub slot k s).mem = s.mem := by unfold endSub; (repeat' split) <;> (try simp only [State.setSession_mem])
@[simp] theorem unsubscribeRequest_mem (slot k : Nat) (s : State) :
    (unsubscribeRequest slot k s).1.mem = s.mem := by unfold unsubscribeRequest; (repeat' split) <;> (try simp only [endSub_mem])
@[simp] theorem notifySub_mem (slot : Fin 64) (u : Sub) (s : State) :
    (notifySub slot u s).mem = s.mem := by unfold notifySub; dsimp only; (repeat' split) <;> (try simp only [State.setSession_mem, advanceTo_mem, sendNotify_mem, endSub_mem])
@[simp] theorem writeResponse_mem (f : Nat) (seq : BitVec 32) (st orig : Status) (counter : BitVec 32) (vals : List W64) (s : State) :
    (writeResponse f seq st orig counter vals s).mem = s.mem := by simp only [writeResponse, State.setEl_mem, foldl_mem, implies_true]

/-! ## Rom -/

@[simp] theorem romRead_mem (f : Nat) (off : StoreOffset) (len : Nat) (s : State) :
    (romRead f off len s).mem = s.mem := by simp only [romRead, State.send_mem, enabledBytes_mem, ite_mem, ite_self]

/-! ## Windows -/

@[simp] theorem readPart_mem (via : Via) (obj e : Nat) (cut : W64 → W64) (s : State) :
    (readPart via obj e cut s).mem = s.mem := by unfold readPart; (repeat' split) <;> (try simp only [answerRead_mem, cmdRead_mem, readElem_mem, implies_true])
@[simp] theorem readAt_mem (via : Via) (obj e : Nat) (s : State) :
    (readAt via obj e s).mem = s.mem := by simp only [readAt, readPart_mem]
@[simp] theorem elementReadNow_mem (via : Via) (obj : Nat) (p : ElemPart) (s : State) :
    (elementReadNow via obj p s).mem = s.mem := by unfold elementReadNow; (repeat' split) <;> (try simp only [State.send_mem, readPart_mem, readAt_mem])
@[simp] theorem elementRead_mem (via : Via) (obj : Nat) (p : ElemPart) (s : State) : (elementRead via obj p s).mem = s.mem := by
  unfold elementRead
  split
  · exact elementReadNow_mem ..
  · exact windowRead_mem _ _ _ _ (elementReadNow_mem ..)

/-! ## Writers -/

theorem dictWrite_memOk (via : Via) (expect : Option (BitVec 32)) (o : ObjInfo) (e : Nat) (v : W64) (act : State → State × Status)
    (s : State) (h : memWf s.mem = true) (ha : memWf (act s).1.mem = true) : memWf (dictWrite via expect o e v act s).1.mem = true := by
  unfold dictWrite
  split
  · dsimp only; split
    · rw [State.bump_mem]; exact ha
    · exact ha
  · split
    · exact ha
    · rw [noteRefusal_mem]; exact h
theorem postedWrite_memOk (f : Nat) (a : HostAccess) (now : State → State) (s : State) (hs : memWf s.mem = true)
    (h : memWf (now s).mem = true) : memWf (postedWrite f a now s).mem = true := by
  unfold postedWrite
  split
  · exact hs
  · split
    · rw [holdOp_mem]; exact hs
    · exact h
theorem windowRead_memOk (f : Nat) (a : HostAccess) (now : State → State) (s : State) (hs : memWf s.mem = true)
    (h : memWf (now s).mem = true) : memWf (windowRead f a now s).mem = true := by
  unfold windowRead
  split
  · exact hs
  · split
    · rw [State.send_mem]; exact hs
    · split
      · rw [holdOp_mem]; exact hs
      · exact h
theorem writeNow_memOk (via : Via) (o : ObjInfo) (e : Nat) (v : W64) (act : State → State × Status) (s : State)
    (hs : memWf s.mem = true) (h : ∀ t, memWf t.mem = true → memWf (act t).1.mem = true) : memWf (writeNow via o e v act s).mem = true := by
  have ht : memWf (takeCas via o s).2.mem = true := by rw [takeCas_mem]; exact hs
  have hd := dictWrite_memOk via (takeCas via o s).1 o e v act (takeCas via o s).2 ht (h _ ht)
  unfold writeNow
  dsimp only
  rw [recordWrite_mem, relaySpends_mem]
  split
  · split
    · rw [relayAdvance_mem]; exact hd
    · exact hd
  · exact hd
theorem cmdWrite_memOk (via : Via) (o : ObjInfo) (e : Nat) (v : W64) (act : State → State × Status) (s : State)
    (hs : memWf s.mem = true) (h : ∀ t, memWf t.mem = true → memWf (act t).1.mem = true) : memWf (cmdWrite via o e v act s).mem = true := by
  unfold cmdWrite
  split
  · exact writeNow_memOk _ _ _ _ _ _ hs h
  · exact postedWrite_memOk _ _ _ _ hs (writeNow_memOk _ _ _ _ _ _ hs h)
theorem State.writeBytes_memOk (s : State) (a : Nat) (bs : List Byte) (h : memWf s.mem = true) : memWf (s.writeBytes a bs).mem = true :=
  memWrite_wf _ _ _ h
theorem State.zeroIngot_memOk (s : State) (ingot : Nat) (h : memWf s.mem = true) : memWf (s.zeroIngot ingot).mem = true :=
  Tab.wf_filter _ _ _ h
theorem writeCell_memOk (ingot cell : Nat) (bs : List Byte) (s : State) (h : memWf s.mem = true) :
    memWf (writeCell ingot cell bs s).mem = true := by simp only [writeCell, State.setPoison_mem, State.writeBytes_memOk, h]
theorem mergeCell_memOk (ingot cell : Nat) (bs : List (Nat × Byte)) (s : State) (h : memWf s.mem = true) :
    memWf (mergeCell ingot cell bs s).mem = true := by
  unfold mergeCell
  exact foldl_memOk _ _ _ (fun t p ht => State.writeBytes_memOk _ _ _ ht) h
theorem garble_memOk (ingot cell burst : Nat) (s : State) (h : memWf s.mem = true) : memWf (garble ingot cell burst s).mem = true := by
  unfold garble
  exact foldl_memOk _ _ _ (fun t p ht => by rw [State.drawn_mem]; exact State.writeBytes_memOk _ _ _ ht) h
theorem burstError_memOk (r ingot cell : Nat) (s : State) (p : Nat × Nat) (h : memWf s.mem = true) :
    memWf (burstError r ingot cell s p).mem = true := by unfold burstError; (repeat' split) <;> (try simp only [correctedError_mem, uncorrectableError_mem, garble_memOk, h])
theorem readErrors_memOk (r ingot cell : Nat) (errs : List Nat) (s : State) (h : memWf s.mem = true) :
    memWf (readErrors r ingot cell errs s).mem = true := by
  unfold readErrors
  refine foldl_memOk _ _ _ (fun t p ht => ?_) h
  split
  · exact ht
  · exact burstError_memOk _ _ _ _ _ ht
theorem fetchCell_memOk (ingot cell : Nat) (errs : List Nat) (s : State) (h : memWf s.mem = true) :
    memWf (fetchCell ingot cell errs s).mem = true := by simp only [fetchCell, accessRank_mem, readErrors_memOk, h]
theorem storeCell_memOk (ingot cell : Nat) (bs : List Byte) (s : State) (h : memWf s.mem = true) :
    memWf (storeCell ingot cell bs s).mem = true := by simp only [storeCell, accessRank_mem, writeCell_memOk, foldl_mem, implies_true, h]
theorem mergeStaged_memOk (ingot cell : Nat) (bs : List (Nat × Byte)) (errs : List Nat) (s : State) (h : memWf s.mem = true) :
    memWf (mergeStaged ingot cell bs errs s).mem = true := by unfold mergeStaged; (try dsimp only); repeat' (first | assumption | (simp only [readCell_mem, accessRank_mem, mergeCell_memOk, fetchCell_memOk, ite_mem, foldl_mem, implies_true, h]; done) | split)
theorem scrubCells_memOk (ingot : Nat) (s : State) (h : memWf s.mem = true) : memWf (scrubCells ingot s).mem = true := by
  unfold scrubCells
  dsimp only
  exact State.zeroIngot_memOk _ _ (by rw [jobAccesses_mem]; exact h)
theorem performReq_memOk (i : Nat) (errs : List Nat) (s : State) (h : memWf s.mem = true) :
    memWf (performReq i errs s).mem = true := by unfold performReq; (repeat' split) <;> (try simp only [releaseLink_mem, State.dropReq_mem, goldArrives_mem, fetchCell_memOk, storeCell_memOk, mergeStaged_memOk, scrubCells_memOk, ite_mem, ite_self, h])
theorem cellAccess_memOk (c : Nat) (x : CellAccess) (s : State) (h : memWf s.mem = true) :
    memWf (cellAccess c x s).mem = true := by unfold cellAccess; (try dsimp only); repeat' (first | assumption | (simp only [advanceTo_mem, toService_mem, refreshStore_mem, reserveAccess_mem, performReq_memOk, ite_mem, ite_self, h]; done) | split)
theorem performDue_memOk (i : Nat) (s : State) (h : memWf s.mem = true) :
    memWf (performDue i s).mem = true := by unfold performDue; (repeat' split) <;> (try simp only [State.drawn_mem, performReq_memOk, h])
theorem drainWrites_memOk (pick : StoreReq → Bool) (n : Nat) (s : State) (h : memWf s.mem = true) :
    memWf (drainWrites pick n s).mem = true := by
  induction n generalizing s with
  | zero => exact h
  | succ n ih =>
    unfold drainWrites
    split
    · exact h
    · exact ih _ (performDue_memOk _ _ h)
theorem settleIngot_memOk (ingot : Nat) (s : State) (h : memWf s.mem = true) : memWf (settleIngot ingot s).mem = true :=
  drainWrites_memOk _ _ _ h
theorem settleCells_memOk (cells : Nat → Nat → Bool) (s : State) (h : memWf s.mem = true) :
    memWf (settleCells cells s).mem = true := by
  unfold settleCells
  dsimp only
  refine drainWrites_memOk _ _ _ (foldl_memOk _ _ _ (fun t i ht => settleIngot_memOk _ _ ht) ?_)
  rw [commitStages_mem]
  exact h
theorem settleCell_memOk (ingot cell : Nat) (s : State) (h : memWf s.mem = true) : memWf (settleCell ingot cell s).mem = true :=
  settleCells_memOk _ _ h
theorem copyRead_memOk (m : Mig) (errs : List (Nat × Nat × List Nat)) (s : State) (h : memWf s.mem = true) :
    memWf (copyRead m errs s).mem = true := by
  unfold copyRead
  dsimp only
  rw [foldl_mem _ _ _ (fun t p => notePoison_mem ..)]
  refine foldl_memOk _ _ _ (fun t p ht => ?_) (settleCells_memOk _ _ h)
  split
  · exact readErrors_memOk _ _ _ _ _ ht
  · exact ht
theorem migStep_memOk (x : ChunkCopy) (s : State) (h : memWf s.mem = true) : memWf (migStep x s).mem = true := by
  unfold migStep
  split
  · exact h
  · split
    · exact h
    · dsimp only
      split
      · rw [targetFails_mem, jobAccesses_mem]; exact h
      · split
        · exact copyRead_memOk _ _ _ (by rw [jobAccesses_mem]; exact h)
        · rw [refreshStore_mem, chunkCopied_mem]; exact copyRead_memOk _ _ _ (by rw [jobAccesses_mem]; exact h)
theorem freshIngot_memOk (b pos : Nat) (s : State) (h : memWf s.mem = true) : memWf (freshIngot b pos s).mem = true := by
  unfold freshIngot
  split
  · exact h
  · dsimp only
    split
    · rw [refreshStore_mem]
      refine settleIngot_memOk _ _ ?_
      rw [acceptReq_mem, commitStages_mem, State.setDir_mem]; exact h
    · rw [acceptReq_mem, commitStages_mem, State.setDir_mem]; exact h
theorem goldIngotsAct_memOk (b : Nat) (v : W64) (s : State) (h : memWf s.mem = true) : memWf (goldIngotsAct b v s).1.mem = true := by
  unfold goldIngotsAct
  dsimp only
  split
  · exact h
  · split
    · exact h
    · dsimp only
      refine foldl_memOk _ _ _ (fun t a ht => ?_) (foldl_memOk _ _ _ (fun t p ht => freshIngot_memOk _ _ _ ht) ?_)
      · rw [State.modEngine_mem, State.setN_mem, State.setN_mem]; exact ht
      · rw [State.setDir_mem, State.put_mem]; exact h
theorem sealRead_memOk (a : Nat) (errs : List (Nat × List Nat)) (s : State) (h : memWf s.mem = true) :
    memWf (sealRead a errs s).mem = true := by
  unfold sealRead
  dsimp only
  rw [foldl_mem _ _ _ (fun t p => readCell_mem ..)]
  refine foldl_memOk _ _ _ (fun t p ht => ?_) (by rw [jobAccesses_mem]; exact h)
  split
  · exact ht
  · exact readErrors_memOk _ _ _ _ _ ht
theorem sealTraced_memOk (a : Nat) (errs : List (Nat × List Nat)) (s : State) (h : memWf s.mem = true) :
    memWf (sealTraced a errs s).mem = true :=
  sealRead_memOk _ _ _ (settleCells_memOk _ _ h)
theorem sealDone_memOk (a : Nat) (errs : List (Nat × List Nat)) (s : State) (h : memWf s.mem = true) :
    memWf (sealDone a errs s).mem = true := by
  unfold sealDone
  split
  · dsimp only
    rw [refreshStore_mem]
    split
    · exact sealTraced_memOk _ _ _ h
    · rw [judgeTrace_mem]; exact sealTraced_memOk _ _ _ h
  · exact h
theorem settleRaw_memOk (f ingot cell : Nat) (s : State) (h : memWf s.mem = true) : memWf (settleRaw f ingot cell s).mem = true := by
  unfold settleRaw
  dsimp only
  split
  · exact settleCell_memOk _ _ _ h
  · split
    · exact drainWrites_memOk _ _ _ (by rw [commitStages_mem]; exact h)
    · exact drainWrites_memOk _ _ _ (by rw [State.drawn_mem, commitStages_mem]; exact h)
theorem hostReadCell_memOk (f b : Nat) (r : List Byte × State) (p : List Nat × Piece) (h : memWf r.2.mem = true) :
    memWf (hostReadCell f b r p).2.mem = true := by
  unfold hostReadCell
  split
  · exact h
  · rename_i i c _
    have hs : memWf (if r.2.elB O.RAW_COMPAT f then settleRaw f i c r.2 else settleCell i c r.2).mem = true := by
      split
      · exact settleRaw_memOk _ _ _ _ h
      · exact settleCell_memOk _ _ _ h
    dsimp only
    generalize (if r.2.elB O.RAW_COMPAT f then settleRaw f i c r.2 else settleCell i c r.2) = t at hs
    split
    · exact hs
    · rw [readCell_mem]
      exact fetchCell_memOk _ _ _ _ hs
theorem storeRead_memOk (f b addr len : Nat) (errs : List (List Nat)) (enables : List Bool) (s : State) (h : memWf s.mem = true) :
    memWf (storeRead f b addr len errs enables s).mem = true := by
  have hl (l : List (List Nat × Piece)) : memWf (l.foldl (hostReadCell f b) ([], toService s)).2.mem = true :=
    foldl_snd_memOk _ _ _ (fun p q hp => hostReadCell_memOk _ _ _ _ hp) (by rw [toService_mem]; exact h)
  unfold storeRead
  dsimp only
  split
  · rw [State.send_mem]; exact h
  · split
    · rw [holdOp_mem]; exact h
    · rw [refreshStore_mem]
      split
      · exact hl _
      · rw [State.send_mem, enabledBytes_mem]; exact hl _
theorem storeReadNow_memOk (f : Nat) (off : StoreOffset) (len : Nat) (s : State) (h : memWf s.mem = true) :
    memWf (storeReadNow f off len s).mem = true := by
  unfold storeReadNow
  split
  · rw [State.send_mem]; exact h
  · split
    · rw [holdOp_mem]; exact h
    · exact storeRead_memOk _ _ _ _ _ _ _ h
theorem ingotScrub_memOk (b ingot : Nat) (s : State) (hs : memWf s.mem = true) : memWf (ingotScrub b ingot s).mem = true := by
  unfold ingotScrub
  split
  · exact hs
  · split
    · split
      · rw [refreshStore_mem]; exact settleIngot_memOk _ _ hs
      · exact hs
    · have h : memWf (refreshStore (scrubCells ingot (settleCells (fun i _ => decide (i = ingot)) (toService s)))).mem = true := by
        rw [refreshStore_mem]
        exact scrubCells_memOk _ _ (settleCells_memOk _ _ (by rw [toService_mem]; exact hs))
      dsimp only
      split
      · rw [refreshHeld_mem, State.setDir_mem, State.setHolder_mem]; exact h
      · rw [State.setHolder_mem]; exact h
theorem enterCell_memOk (b q pos cell stop id : Nat) (errs : List Nat) (s : State) (hs : memWf s.mem = true) :
    memWf (enterCell b q pos cell stop id errs s).mem = true := by
  have h1 := fetchCell_memOk ((s.dir b).getD pos { ingot := 0 }).ingot cell errs _
    (settleCell_memOk ((s.dir b).getD pos { ingot := 0 }).ingot cell s hs)
  have h (t : State) (c : Bool) : (if c then discardNew q id t else enterQueue q id t).mem = t.mem := by
    split
    · exact discardNew_mem ..
    · exact enterQueue_mem ..
  unfold enterCell
  dsimp only
  split
  · rw [releaseLink_mem]; exact h1
  · split
    · rw [readoutEnds_mem, State.setEl_mem, h, State.setPacket_mem, readCell_mem]; exact h1
    · rw [State.modQueue_mem, State.setEl_mem, h, State.setPacket_mem, readCell_mem]; exact h1
theorem readoutStep_memOk (q : Nat) (errs : List Nat) (s : State) (hs : memWf s.mem = true) : memWf (readoutStep q errs s).mem = true := by
  unfold readoutStep
  dsimp only
  split
  · exact hs
  · split
    · rw [readoutEnds_mem]; exact hs
    · split
      · exact hs
      · have h := allocPacket_mem (stagingPacket (s.elN O.Q_OWNER q)) .hostStaging 0 4 (toService s)
        rw [toService_mem] at h
        split <;> rename_i e <;> rw [e] at h <;> dsimp only at h
        · rw [h]; exact hs
        · rw [refreshStore_mem]; exact enterCell_memOk _ _ _ _ _ _ _ _ (by rw [h]; exact hs)
theorem coldState_memOk (s : State) : memWf (coldState s).mem = true := by
  unfold coldState
  dsimp only
  rw [noteAlert_mem]
  refine foldl_memOk _ _ _ (fun t p ht => ?_) rfl
  split
  · rw [State.put_mem]; exact ht
  · split <;> (rw [State.put_mem]; exact ht)
theorem switchOff_memOk (s : State) : memWf (switchOff s).mem = true := by
  unfold switchOff
  dsimp only
  rw [State.setMode_mem]
  exact coldState_memOk _
theorem quiesceDone_memOk (s : State) (hs : memWf s.mem = true) : memWf (quiesceDone s).mem = true := by
  unfold quiesceDone
  split
  · exact hs
  · dsimp only
    split
    · exact switchOff_memOk _
    · rw [enterIdle_mem]; exact drainWrites_memOk _ _ _ (by rw [discardDrains_mem]; exact hs)
theorem saveCells_memOk (s : State) (hs : memWf s.mem = true) : memWf (saveCells s).mem = true := by
  unfold saveCells
  dsimp only
  rw [foldl_mem _ _ _ (fun t p => noteResetLoss_mem ..)]
  exact drainWrites_memOk _ _ _ (by rw [State.drawn_mem]; exact hs)
theorem warmReset_memOk (s : State) (h : memWf s.mem = true) :
    memWf (warmReset s).mem = true := by simp only [warmReset, State.put_mem, noteAlert_mem, State.setMode_mem, refreshMig_mem, breakAllLocks_mem, closeAllSessions_mem, setFwSlot_mem, replayJournal_mem, logBoot_mem, endAllForReset_mem, closeAllCells_mem, resetJournal_mem, warmState_mem, tidy_mem, warmShown_mem, noteComputed_mem, saveCells_memOk, h]
theorem warmResetAct_memOk (v : W64) (s : State) (h : memWf s.mem = true) :
    memWf (warmResetAct v s).1.mem = true := by unfold warmResetAct; (repeat' split) <;> (try simp only [State.drawn_mem, warmReset_memOk, h])
theorem testIngot_memOk (ingot : Nat) (found : TestOutcome) (s : State) (h : memWf s.mem = true) :
    memWf (testIngot ingot found s).mem = true := by
  have ha (l : List Nat) (c : Nat) (w : Bool) (t : State) : (l.foldl (fun u r => accessRank w ingot c u r) t).mem = t.mem :=
    foldl_mem _ _ _ (fun t p => accessRank_mem ..)
  unfold testIngot
  dsimp only
  split <;> rw [refreshStore_mem]
  · rw [ha]; exact fetchCell_memOk _ _ _ _ (by rw [ha, State.drawn_mem]; exact h)
  · exact scrubCells_memOk _ _ (fetchCell_memOk _ _ _ _ (by rw [ha, State.drawn_mem]; exact h))
  · rw [ha]; exact fetchCell_memOk _ _ _ _ (by rw [ha, State.drawn_mem]; exact h)
theorem testUnit_memOk (kind unit : Nat) (found : TestOutcome) (s : State) (hs : memWf s.mem = true) :
    memWf (testUnit kind unit found s).mem = true := by
  unfold testUnit
  split
  · exact testIngot_memOk _ _ _ hs
  · repeat' split
    all_goals first | exact hs | (rw [tileError_mem]; exact hs) | (rw [poolError_mem]; exact hs)
theorem testSlot_memOk (kind unit : Nat) (found : TestOutcome) (s : State) (hs : memWf s.mem = true) :
    memWf (testSlot kind unit found s).mem = true := by
  have h (t : State) (ht : t.mem = s.mem) (l : List (Nat × Nat × Nat)) :
      memWf (testUnit kind unit found (({ t with testing := l } : State).inc O.TS_PASSES kind)).mem = true :=
    testUnit_memOk _ _ _ _ (by rw [State.inc_mem]; dsimp only; rw [ht]; exact hs)
  unfold testSlot
  split
  · exact hs
  · dsimp only
    split
    · rw [raiseError_mem, State.setN_mem, State.inc_mem]
      split
      · exact h s rfl _
      · exact h _ (advanceTo_mem ..) _
    · split
      · exact h s rfl _
      · exact h _ (advanceTo_mem ..) _
theorem acquisitionRules_memOk (e : Nat) (v : W64) : ∀ r ∈ acquisitionRules e v, ∀ s, memWf s.mem = true → memWf (r.2 s).1.mem = true := by
  simp only [acquisitionRules, List.mem_append, List.mem_cons, List.mem_map, List.not_mem_nil, or_false]
  rintro r ((h | h) | h) s hs
  · rcases h with rfl | rfl | rfl | rfl | rfl | rfl | rfl | rfl | rfl | rfl | rfl
    · exact goldIngotsAct_memOk _ _ _ hs
    all_goals simpa using hs
  · obtain ⟨o, _, rfl⟩ := h; simpa using hs
  · obtain ⟨o, _, rfl⟩ := h; simpa using hs
theorem moduleRules_memOk (e : Nat) (v : W64) : ∀ r ∈ moduleRules e v, ∀ s, memWf s.mem = true → memWf (r.2 s).1.mem = true := by
  simp only [moduleRules, List.mem_cons, List.not_mem_nil, or_false]
  rintro r h s hs
  rcases h with rfl | rfl | rfl | rfl | rfl | rfl | rfl | rfl | rfl | rfl | rfl | rfl | rfl
  case inr.inr.inr.inr.inr.inr.inr.inl => exact warmResetAct_memOk _ _ hs
  all_goals simpa using hs
theorem ruleOf_memOk (via : Via) (o : ObjInfo) (e : Nat) (v : W64) (s : State) (hs : memWf s.mem = true) :
    memWf (ruleOf via o e v s).1.mem = true := by
  unfold ruleOf
  cases h : (linkRules e v ++ sequencerRules e v ++ acquisitionRules e v ++ benchRules via e v ++ queueRules e v ++ timingRules via e v
      ++ moduleRules e v ++ callerRules e v).find? (fun r => decide (r.1.base = o.base)) with
  | none => rw [Option.map_none, Option.getD_none, setAct_mem]; exact hs
  | some r =>
    have hm := List.mem_of_find?_eq_some h
    simp only [List.mem_append] at hm
    rw [Option.map_some, Option.getD_some]
    rcases hm with ((((((hm | hm) | hm) | hm) | hm) | hm) | hm) | hm
    · rw [linkRules_mem e v r hm s]; exact hs
    · rw [sequencerRules_mem e v r hm s]; exact hs
    · exact acquisitionRules_memOk e v r hm s hs
    · rw [benchRules_mem via e v r hm s]; exact hs
    · rw [queueRules_mem e v r hm s]; exact hs
    · rw [timingRules_mem via e v r hm s]; exact hs
    · exact moduleRules_memOk e v r hm s hs
    · rw [callerRules_mem e v r hm s]; exact hs
theorem relayWriteAct_memOk (via : Via) (e : Nat) (v : W64) (s : State) (hs : memWf s.mem = true) :
    memWf (relayWriteAct via e v s).1.mem = true := by
  have hd : ∀ w o e, memWf (dictWrite w (takeCas w o s).1 o e v (ruleOf w o e v) (takeCas w o s).2).1.mem = true := by
    intro w o e
    have ht : memWf (takeCas w o s).2.mem = true := by rw [takeCas_mem]; exact hs
    exact dictWrite_memOk _ _ _ _ _ _ _ ht (ruleOf_memOk _ _ _ _ _ ht)
  unfold relayWriteAct
  dsimp only
  split
  · exact hs
  · split
    · exact hs
    · split
      · rw [relayAdvance_mem]; exact hd _ _ _
      · exact hd _ _ _
theorem writeElem_memOk (via : Via) (o : ObjInfo) (e : Nat) (v : W64) (s : State) (hs : memWf s.mem = true) :
    memWf (writeElem via o e v s).1.mem = true := by
  unfold writeElem
  split
  · exact relayWriteAct_memOk _ _ _ _ hs
  · exact ruleOf_memOk _ _ _ _ _ hs
theorem actAll_memOk (via : Via) (o : ObjInfo) (l : List (Nat × W64)) (s : State) (hs : memWf s.mem = true) :
    memWf (actAll via o l s).1.mem = true := by
  induction l generalizing s with
  | nil => exact hs
  | cons p t ih =>
    unfold actAll
    dsimp only
    split
    · exact ih _ (writeElem_memOk _ _ _ _ _ hs)
    · exact writeElem_memOk _ _ _ _ _ hs
theorem writeMany_memOk (via : Via) (expect : Option (BitVec 32)) (o : ObjInfo) (l : List (Nat × W64)) (s : State)
    (hs : memWf s.mem = true) : memWf (writeMany via expect o l s).1.mem = true := by
  unfold writeMany
  split
  · exact dictWrite_memOk _ _ _ _ _ _ _ hs (writeElem_memOk _ _ _ _ _ hs)
  · split
    · dsimp only; split
      · rw [State.bump_mem]; exact actAll_memOk _ _ _ _ hs
      · split
        · exact actAll_memOk _ _ _ _ hs
        · rw [noteRefusal_mem]; exact hs
    · rw [noteRefusal_mem]; exact hs
theorem writeRequest_memOk (via : Via) (ref : W64) (expect : Option (BitVec 32)) (vals : List W64) (s : State) (h : memWf s.mem = true) :
    memWf (writeRequest via ref expect vals s).1.mem = true := by unfold writeRequest; (repeat' split) <;> (try simp only [relaySpends_mem, spendCas_mem, takeCas_mem, writeMany_memOk, h])
theorem vdpRequest_memOk (slot : Nat) (id : BitVec 32) (q : Asked) (act : State → State × Answer) (s : State) (hs : memWf s.mem = true)
    (h : ∀ t, memWf t.mem = true → memWf (act t).1.mem = true) : memWf (vdpRequest slot id q act s).mem = true := by
  have hx (x : Option Session) : memWf (s.setSession slot x).mem = true := by rw [State.setSession_mem]; exact hs
  unfold vdpRequest
  split
  · exact hs
  · dsimp only
    split
    · rw [respond_mem]; exact hx _
    · rw [respond_mem]
      split
      · exact h _ (hx _)
      · rw [State.setSession_mem]; exact h _ (hx _)
theorem mbxRequest_memOk (f : Fin 1024) (s : State) (h : memWf s.mem = true) :
    memWf (mbxRequest f s).1.mem = true := by unfold mbxRequest; (repeat' split) <;> (try simp only [readRequest_mem, writeRequest_memOk, h])
theorem mbxSubmitAct_memOk (f : Fin 1024) (v : W64) (s : State) (h : memWf s.mem = true) :
    memWf (mbxSubmitAct f v s).1.mem = true := by unfold mbxSubmitAct; simp only [ite_fst_mem]; (repeat' split) <;> simp only [State.modFunc_mem, writeResponse_mem, mbxRequest_memOk, h]
theorem writePlace_memOk (via : Via) (o : ObjInfo) (e : Nat) (v : W64) (s : State) (hs : memWf s.mem = true) :
    memWf (writePlace via o e v s).1.mem = true := by
  unfold writePlace
  split
  · split
    · exact mbxSubmitAct_memOk _ _ _ hs
    · exact hs
  · exact writeElem_memOk _ _ _ _ _ hs
theorem writeAt_memOk (via : Via) (obj e : Nat) (v : W64) (s : State) (hs : memWf s.mem = true) :
    memWf (writeAt via obj e v s).mem = true := by
  unfold writeAt
  split
  · rw [answerWrite_mem, spendCas_mem]; exact hs
  · exact cmdWrite_memOk _ _ _ _ _ _ hs (fun t ht => writePlace_memOk _ _ _ _ _ ht)
theorem ctlWriteNow_memOk (f : Fin 1024) (off : Nat) (bytes : List Byte) (s : State) (h : memWf s.mem = true) :
    memWf (ctlWriteNow f off bytes s).mem = true := by unfold ctlWriteNow; (repeat' split) <;> (try simp only [spendCas_mem, answerWrite_mem, writeAt_memOk, h])
theorem wCtlWrite_memOk (f : Fin 1024) (off : Nat) (bytes : List Byte) (s : State) (hs : memWf s.mem = true) :
    memWf (wCtlWrite f off bytes s).mem = true :=
  postedWrite_memOk _ _ _ _ hs (ctlWriteNow_memOk _ _ _ _ hs)
theorem relayAccess_memOk (f : Fin 1024) (op : RelayOp) (s : State) (hs : memWf s.mem = true) : memWf (relayAccess f op s).mem = true := by
  unfold relayAccess
  split
  · refine windowRead_memOk _ _ _ _ hs ?_
    rw [cmdRead_mem]
    · exact hs
    · exact fun t => relayReadAct_mem ..
  · exact cmdWrite_memOk _ _ _ _ _ _ hs (fun t ht => relayWriteAct_memOk _ _ _ _ ht)
theorem serviceAccess_memOk (core : Fin 4) (inMap : Bool) (obj e : Nat) (wr : Option W64) (s : State) (hs : memWf s.mem = true) :
    memWf (serviceAccess core inMap obj e wr s).mem = true := by
  unfold serviceAccess
  split
  · rw [raiseError_mem]; exact hs
  · split
    · rw [readAt_mem]; exact hs
    · exact writeAt_memOk _ _ _ _ _ hs
theorem windowReadNow_memOk (f : Nat) (off : StoreOffset) (len : Nat) (s : State) (hs : memWf s.mem = true) :
    memWf (windowReadNow f off len s).mem = true := by
  unfold windowReadNow
  split
  · exact storeReadNow_memOk _ _ _ _ hs
  · rw [romRead_mem]; exact hs
  · rw [State.send_mem]; exact hs
theorem performAccess_memOk (f : Nat) (a : HostAccess) (s : State) (hs : memWf s.mem = true) : memWf (performAccess f a s).mem = true := by
  unfold performAccess
  split
  · rw [storeWriteNow_mem]; exact hs
  · exact windowReadNow_memOk _ _ _ _ hs
  · exact ctlWriteNow_memOk _ _ _ _ hs
  · split
    · exact hs
    · exact writeNow_memOk _ _ _ _ _ _ hs (fun t ht => writePlace_memOk _ _ _ _ _ ht)
  · rw [elementReadNow_mem]; exact hs
  · rw [dblNow_mem]; exact hs
theorem performFirst_memOk (f : Nat) (a : HostAccess) (s : State) (hs : memWf s.mem = true) : memWf (performFirst f a s).mem = true := by
  unfold performFirst
  exact performAccess_memOk _ _ _ hs
theorem releaseHeld_memOk (f n : Nat) (pkt : Option Nat) (s : State) (hs : memWf s.mem = true) :
    memWf (releaseHeld f n pkt s).2.mem = true := by
  induction n generalizing pkt s with
  | zero => exact hs
  | succ n ih =>
    unfold releaseHeld
    split
    · exact hs
    · dsimp only
      split
      · split
        · exact hs
        · exact ih _ _ (storeRead_memOk _ _ _ _ _ _ _ (by rw [State.dropHeld_mem]; exact hs))
      · exact ih _ _ (performFirst_memOk _ _ _ (by rw [State.dropHeld_mem]; exact hs))
      · split
        · exact ih _ _ (by rw [State.inc_mem, State.dropHeld_mem]; exact hs)
        · split
          · exact ih _ _ (by rw [stagePiece_mem, State.dropHeld_mem]; exact hs)
          · split
            · exact hs
            · exact ih _ _ (by rw [stagePiece_mem, State.dropHeld_mem]; exact hs)
theorem grantHeld_memOk (f id : Nat) (s : State) (hs : memWf s.mem = true) : memWf (grantHeld f id s).mem = true := by
  have h := releaseHeld_memOk f s.held.length (some id) s hs
  unfold grantHeld
  split <;> rename_i e <;> rw [e] at h
  · exact h
  · rw [releaseLink_mem]; exact h
theorem releaseFree_memOk (s : State) (hs : memWf s.mem = true) : memWf (releaseFree s).mem = true :=
  foldl_memOk _ _ _ (fun t f ht => releaseHeld_memOk _ _ _ _ ht) hs
theorem speedChangeDone_memOk (s : State) (hs : memWf s.mem = true) : memWf (speedChangeDone s).mem = true := by
  unfold speedChangeDone
  split
  · exact releaseFree_memOk _ (by rw [speedDone_mem]; exact hs)
  · exact hs
theorem grantBid_memOk (x : Bid) (s : State) (h : memWf s.mem = true) :
    memWf (grantBid x s).mem = true := by unfold grantBid; (repeat' split) <;> (try simp only [grantPacket_mem, State.setRotor_mem, keepGrant_mem, goldAsk_mem, postService_mem, grantHeld_memOk, h])
theorem roundGo_memOk (n budget : Nat) (bids : List Bid) (s : State) (h : memWf s.mem = true) :
    memWf (roundGo n budget bids s).mem = true := by
  induction n generalizing budget bids s with
  | zero => exact h
  | succ n ih =>
    rw [roundGo]; split
    · exact h
    · dsimp only; split
      · exact ih _ _ _ (grantBid_memOk _ _ h)
      · exact ih _ _ _ (by rw [noteRefused_mem, refusedCell_mem]; exact h)
theorem allocRound_memOk (reqs : List AllocReq) (s : State) (hs : memWf s.mem = true) : memWf (allocRound reqs s).mem = true := by
  unfold allocRound
  exact roundGo_memOk _ _ _ _ (releaseFree_memOk _ hs)

/-! ## Exec -/

theorem execTrigIoPulseEnd_mem (n : Fin 4) (s : State) (u' : State) (h : execTrigIoPulseEnd n s = .next u') :
    u'.mem = s.mem := by
  unfold execTrigIoPulseEnd at h
  injection h with h; subst h; try simp only [pulseEnds_mem]
theorem execQuenchCmd_mem (via : Via) (b : Nat) (v : W64) (s : State) (u' : State) (h : execQuenchCmd via b v s = .next u') :
    u'.mem = s.mem := by
  unfold execQuenchCmd at h
  injection h with h; subst h; try simp only [cmdWrite_mem, quenchCmdAct_mem, implies_true]
theorem execResumeCmd_mem (via : Via) (b : Nat) (v : W64) (s : State) (u' : State) (h : execResumeCmd via b v s = .next u') :
    u'.mem = s.mem := by
  unfold execResumeCmd at h
  injection h with h; subst h; try simp only [cmdWrite_mem, resumeCmdAct_mem, implies_true]
theorem execQuenchReport_mem (l : Fin 256) (hdr : W40) (pay : List W40) (s : State) (u' : State) (h : execQuenchReport l hdr pay s = .next u') :
    u'.mem = s.mem := by
  unfold execQuenchReport at h
  injection h with h; subst h; try simp only [quenchReport_mem]
theorem execQuenchReportWindowClose_mem (b : Fin 1024) (s : State) (u' : State) (h : execQuenchReportWindowClose b s = .next u') :
    u'.mem = s.mem := by
  unfold execQuenchReportWindowClose at h
  injection h with h; subst h; try simp only [windowCloses_mem]
theorem execAck_mem (l : Fin 256) (hdr : W40) (u1 : List W40) (s : State) (u' : State) (h : execAck l hdr u1 s = .next u') :
    u'.mem = s.mem := by
  unfold execAck at h
  injection h with h; subst h; try simp only [ackFrame_mem]
theorem execQClaim_mem (via : Via) (b : Nat) (v : W64) (s : State) (u' : State) (h : execQClaim via b v s = .next u') :
    u'.mem = s.mem := by
  unfold execQClaim at h
  injection h with h; subst h; try simp only [cmdWrite_mem, qClaimAct_mem, implies_true]
theorem execQRelease_mem (via : Via) (b : Nat) (v : W64) (s : State) (u' : State) (h : execQRelease via b v s = .next u') :
    u'.mem = s.mem := by
  unfold execQRelease at h
  injection h with h; subst h; try simp only [cmdWrite_mem, qReleaseAct_mem, implies_true]
theorem execQFlush_mem (via : Via) (q : Nat) (v : W64) (s : State) (u' : State) (h : execQFlush via q v s = .next u') :
    u'.mem = s.mem := by
  unfold execQFlush at h
  injection h with h; subst h; try simp only [cmdWrite_mem, qFlushAct_mem, implies_true]
theorem execQReset_mem (via : Via) (q : Nat) (v : W64) (s : State) (u' : State) (h : execQReset via q v s = .next u') :
    u'.mem = s.mem := by
  unfold execQReset at h
  injection h with h; subst h; try simp only [cmdWrite_mem, qResetAct_mem, implies_true]
theorem execQPop_mem (via : Via) (q : Nat) (s : State) (u' : State) (h : execQPop via q s = .next u') :
    u'.mem = s.mem := by
  unfold execQPop at h
  (try dsimp only at h); (repeat' split at h) <;> (injection h with h; subst h; try simp only [windowRead_mem, cmdRead_mem, qPopAct_mem, implies_true])
theorem execQueuePointer_mem (target : PtrTarget) (s : State) (u' : State) (h : execQueuePointer target s = .next u') :
    u'.mem = s.mem := by
  unfold execQueuePointer at h
  split at h
  · rw [← Host.Outcome.next.inj h, forceQueue_mem]
  · rw [← Host.Outcome.next.inj h, forceList_mem]
theorem execQueueResetSweepDone_mem (q : Fin 16384) (s : State) (u' : State) (h : execQueueResetSweepDone q s = .next u') :
    u'.mem = s.mem := by
  unfold execQueueResetSweepDone at h
  injection h with h; subst h; try simp only [sweepDone_mem]
theorem execFreeList_mem (s : State) (u' : State) (h : execFreeList s = .next u') :
    u'.mem = s.mem := by
  unfold execFreeList at h
  injection h with h; subst h; try simp only [enterRecovery_mem, raiseError_mem]
theorem execPoolUe_mem (bank : Fin 8) (s : State) (u' : State) (h : execPoolUe bank s = .next u') :
    u'.mem = s.mem := by
  unfold execPoolUe at h
  injection h with h; subst h; try simp only [poolError_mem]
theorem execQuiesceDrainTimeout_mem (s : State) (u' : State) (h : execQuiesceDrainTimeout s = .next u') :
    u'.mem = s.mem := by
  unfold execQuiesceDrainTimeout at h
  (repeat' split at h) <;> (injection h with h; subst h; try simp only [advanceTo_mem, discardDrains_mem])
theorem execPlanisherRow_mem (b : Fin 1024) (s : State) (u' : State) (h : execPlanisherRow b s = .next u') :
    u'.mem = s.mem := by
  unfold execPlanisherRow at h
  injection h with h; subst h; try simp only [planNext_mem]
theorem execJournalEntrySealed_mem (s : State) (u' : State) (h : execJournalEntrySealed s = .next u') :
    u'.mem = s.mem := by
  unfold execJournalEntrySealed at h
  injection h with h; subst h; try simp only [journalSealed_mem]
theorem execFlashProgramComplete_mem (s : State) (u' : State) (h : execFlashProgramComplete s = .next u') :
    u'.mem = s.mem := by
  unfold execFlashProgramComplete at h
  injection h with h; subst h; try simp only [contentProgram_mem]
theorem execRankRetire_mem (via : Via) (v : W64) (s : State) (u' : State) (h : execRankRetire via v s = .next u') :
    u'.mem = s.mem := by
  unfold execRankRetire at h
  injection h with h; subst h; try simp only [cmdWrite_mem, rankRetireAct_mem, implies_true]
theorem execStoreSpeed_mem (via : Via) (v : W64) (s : State) (u' : State) (h : execStoreSpeed via v s = .next u') :
    u'.mem = s.mem := by
  unfold execStoreSpeed at h
  injection h with h; subst h; try simp only [cmdWrite_mem, storeSpeedAct_mem, implies_true]
theorem execDelayLoad_mem (via : Via) (v : W64) (s : State) (u' : State) (h : execDelayLoad via v s = .next u') :
    u'.mem = s.mem := by
  unfold execDelayLoad at h
  injection h with h; subst h; try simp only [cmdWrite_mem, delayLoadAct_mem, implies_true]
theorem execTempBandChange_mem (stack : Fin 8) (milliC : Int) (s : State) (u' : State) (h : execTempBandChange stack milliC s = .next u') :
    u'.mem = s.mem := by
  unfold execTempBandChange at h
  injection h with h; subst h; try simp only [bandChange_mem]
theorem execStoreCellAccess_memOk (chan : Fin 256) (burstErrs : CellAccess) (s : State) (u' : State) (h : execStoreCellAccess chan burstErrs s = .next u') (hs : memWf s.mem = true) :
    memWf u'.mem = true := by
  unfold execStoreCellAccess at h
  (try dsimp only at h); (repeat' split at h) <;> (injection h with h; subst h; first | exact hs | (simp only [cellAccess_memOk, hs]; done) | (refine vdpRequest_memOk _ _ _ _ _ hs (fun t ht => ?_); simp only [cellAccess_memOk, implies_true, ite_mem, ite_self, ht]; done) | (refine cmdWrite_memOk _ _ _ _ _ _ hs (fun t ht => ?_); simp only [cellAccess_memOk, implies_true, ite_mem, ite_self, ht]))
theorem execRefresh_mem (chan : Fin 256) (rank : Fin 4) (bank : Fin 32) (s : State) (u' : State) (h : execRefresh chan rank bank s = .next u') :
    u'.mem = s.mem := by
  unfold execRefresh at h
  injection h with h; subst h; try simp only [refreshBank_mem]
theorem execPoisonListClear_mem (via : Via) (v : W64) (s : State) (u' : State) (h : execPoisonListClear via v s = .next u') :
    u'.mem = s.mem := by
  unfold execPoisonListClear at h
  injection h with h; subst h; try simp only [cmdWrite_mem, poisonClearAct_mem, implies_true]
theorem execMigrationChunk_memOk (targetError : ChunkCopy) (s : State) (u' : State) (h : execMigrationChunk targetError s = .next u') (hs : memWf s.mem = true) :
    memWf u'.mem = true := by
  unfold execMigrationChunk at h
  (try dsimp only at h); (repeat' split at h) <;> (injection h with h; subst h; first | exact hs | (simp only [migStep_memOk, hs]; done) | (refine vdpRequest_memOk _ _ _ _ _ hs (fun t ht => ?_); simp only [migStep_memOk, implies_true, ite_mem, ite_self, ht]; done) | (refine cmdWrite_memOk _ _ _ _ _ _ hs (fun t ht => ?_); simp only [migStep_memOk, implies_true, ite_mem, ite_self, ht]))
theorem execGoldIngots_memOk (via : Via) (b : Nat) (v : W64) (s : State) (u' : State) (h : execGoldIngots via b v s = .next u') (hs : memWf s.mem = true) :
    memWf u'.mem = true := by
  unfold execGoldIngots at h
  injection h with h; subst h; first | exact hs | (simp only [cmdWrite_mem, goldIngotsAct_memOk, implies_true, ite_mem, ite_self, hs]; done) | (refine vdpRequest_memOk _ _ _ _ hs (fun t ht => ?_); simp only [cmdWrite_mem, goldIngotsAct_memOk, implies_true, ite_mem, ite_self, ht]; done) | (refine cmdWrite_memOk _ _ _ _ _ _ hs (fun t ht => ?_); simp only [goldIngotsAct_memOk, ht])
theorem execGoldSeal_mem (via : Via) (a : Nat) (v : W64) (s : State) (u' : State) (h : execGoldSeal via a v s = .next u') :
    u'.mem = s.mem := by
  unfold execGoldSeal at h
  injection h with h; subst h; try simp only [cmdWrite_mem, goldSealAct_mem, implies_true]
theorem execGoldSealDone_memOk (a : SealRead) (s : State) (u' : State) (h : execGoldSealDone a s = .next u') (hs : memWf s.mem = true) :
    memWf u'.mem = true := by
  unfold execGoldSealDone at h
  (try dsimp only at h); (repeat' split at h) <;> (injection h with h; subst h; first | exact hs | (simp only [sealDone_memOk, hs]; done) | (refine vdpRequest_memOk _ _ _ _ _ hs (fun t ht => ?_); simp only [sealDone_memOk, implies_true, ite_mem, ite_self, ht]; done) | (refine cmdWrite_memOk _ _ _ _ _ _ hs (fun t ht => ?_); simp only [sealDone_memOk, implies_true, ite_mem, ite_self, ht]))
theorem execAssayCompare_mem (a : Fin 4) (inHand : Bool) (s : State) (u' : State) (h : execAssayCompare a inHand s = .next u') :
    u'.mem = s.mem := by
  unfold execAssayCompare at h
  injection h with h; subst h; try simp only [assayCompare_mem]
theorem execBenchFault_mem (b : Fin 1024) (cause : FaultCause) (s : State) (u' : State) (h : execBenchFault b cause s = .next u') :
    u'.mem = s.mem := by
  unfold execBenchFault at h
  (try dsimp only at h); (repeat' split at h) <;> (injection h with h; subst h; try simp only [benchFaults_mem])
theorem execQuiesceDisarmTimeout_mem (b : Fin 1024) (s : State) (u' : State) (h : execQuiesceDisarmTimeout b s = .next u') :
    u'.mem = s.mem := by
  unfold execQuiesceDisarmTimeout at h
  (try dsimp only at h); (repeat' split at h) <;> (injection h with h; subst h; try simp only [advanceTo_mem, benchFaults_mem, quiesceAfterRow_mem])
theorem execLockAcquire_mem (via : Via) (k : Nat) (v : W64) (s : State) (u' : State) (h : execLockAcquire via k v s = .next u') :
    u'.mem = s.mem := by
  unfold execLockAcquire at h
  injection h with h; subst h; try simp only [cmdWrite_mem, lockAcquireAct_mem, implies_true]
theorem execLockRelease_mem (via : Via) (k : Nat) (v : W64) (s : State) (u' : State) (h : execLockRelease via k v s = .next u') :
    u'.mem = s.mem := by
  unfold execLockRelease at h
  injection h with h; subst h; try simp only [cmdWrite_mem, lockReleaseAct_mem, implies_true]
theorem execLockRenew_mem (via : Via) (k : Nat) (v : W64) (s : State) (u' : State) (h : execLockRenew via k v s = .next u') :
    u'.mem = s.mem := by
  unfold execLockRenew at h
  injection h with h; subst h; try simp only [cmdWrite_mem, lockRenewAct_mem, implies_true]
theorem execLockBreak_mem (via : Via) (k : Nat) (v : W64) (s : State) (u' : State) (h : execLockBreak via k v s = .next u') :
    u'.mem = s.mem := by
  unfold execLockBreak at h
  injection h with h; subst h; try simp only [cmdWrite_mem, lockBreakAct_mem, implies_true]
theorem execLockLeaseExpiry_mem (k : Fin 256) (s : State) (u' : State) (h : execLockLeaseExpiry k s = .next u') :
    u'.mem = s.mem := by
  unfold execLockLeaseExpiry at h
  injection h with h; subst h; try simp only [leaseExpires_mem]
theorem execArm_mem (via : Via) (b : Nat) (s : State) (u' : State) (h : execArm via b s = .next u') :
    u'.mem = s.mem := by
  unfold execArm at h
  injection h with h; subst h; try simp only [cmdWrite_mem, tryArm_mem, implies_true]
theorem execDisarm_mem (via : Via) (b : Nat) (s : State) (u' : State) (h : execDisarm via b s = .next u') :
    u'.mem = s.mem := by
  unfold execDisarm at h
  injection h with h; subst h; try simp only [cmdWrite_mem, notFree_mem, disarmAct_mem, implies_true]
theorem execClearFault_mem (via : Via) (b : Nat) (s : State) (u' : State) (h : execClearFault via b s = .next u') :
    u'.mem = s.mem := by
  unfold execClearFault at h
  injection h with h; subst h; try simp only [cmdWrite_mem, notFree_mem, clearFaultAct_mem, implies_true]
theorem execReset_mem (via : Via) (b : Nat) (s : State) (u' : State) (h : execReset via b s = .next u') :
    u'.mem = s.mem := by
  unfold execReset at h
  injection h with h; subst h; try simp only [cmdWrite_mem, notFree_mem, resetAct_mem, implies_true]
theorem execBenchResetDone_mem (b : Fin 1024) (s : State) (u' : State) (h : execBenchResetDone b s = .next u') :
    u'.mem = s.mem := by
  unfold execBenchResetDone at h
  (repeat' split at h) <;> (injection h with h; subst h; try simp only [State.setBenchState_mem])
theorem execArmAt_mem (via : Via) (b : Nat) (v : W64) (s : State) (u' : State) (h : execArmAt via b v s = .next u') :
    u'.mem = s.mem := by
  unfold execArmAt at h
  injection h with h; subst h; try simp only [cmdWrite_mem, armAtAct_mem, implies_true]
theorem execDisarmAt_mem (via : Via) (b : Nat) (v : W64) (s : State) (u' : State) (h : execDisarmAt via b v s = .next u') :
    u'.mem = s.mem := by
  unfold execDisarmAt at h
  injection h with h; subst h; try simp only [cmdWrite_mem, disarmAtAct_mem, implies_true]
theorem execScheduledArm_mem (b : Fin 1024) (s : State) (u' : State) (h : execScheduledArm b s = .next u') :
    u'.mem = s.mem := by
  unfold execScheduledArm at h
  injection h with h; subst h; try simp only [scheduledArm_mem]
theorem execScheduledDisarm_mem (b : Fin 1024) (s : State) (u' : State) (h : execScheduledDisarm b s = .next u') :
    u'.mem = s.mem := by
  unfold execScheduledDisarm at h
  injection h with h; subst h; try simp only [scheduledDisarm_mem]
theorem execCommit_mem (via : Via) (b : Nat) (s : State) (u' : State) (h : execCommit via b s = .next u') :
    u'.mem = s.mem := by
  unfold execCommit at h
  injection h with h; subst h; try simp only [cmdWrite_mem, commitAct_mem, implies_true]
theorem execCommitCancel_mem (via : Via) (b : Nat) (s : State) (u' : State) (h : execCommitCancel via b s = .next u') :
    u'.mem = s.mem := by
  unfold execCommitCancel at h
  injection h with h; subst h; try simp only [cmdWrite_mem, commitCancelAct_mem, implies_true]
theorem execCommitBroadcast_mem (b : Fin 1024) (s : State) (u' : State) (h : execCommitBroadcast b s = .next u') :
    u'.mem = s.mem := by
  unfold execCommitBroadcast at h
  injection h with h; subst h; try simp only [commitBroadcast_mem]
theorem execPartMissing_mem (l : Fin 256) (d : Fin 256) (stamp : W40) (s : State) (u' : State) (h : execPartMissing l d stamp s = .next u') :
    u'.mem = s.mem := by
  unfold execPartMissing at h
  injection h with h; subst h; try simp only [partMissing_mem]
theorem execRowEmit_mem (design : W64) (d : Fin 256) (stamp : W40) (s : State) (u' : State) (h : execRowEmit design d stamp s = .next u') :
    u'.mem = s.mem := by
  unfold execRowEmit at h
  injection h with h; subst h; try simp only [rowEmit_mem]
theorem execStalled_mem (l : Fin 256) (s : State) (u' : State) (h : execStalled l s = .next u') :
    u'.mem = s.mem := by
  unfold execStalled at h
  injection h with h; subst h; try simp only [stalled_mem]
theorem execTileGate_mem (via : Via) (tile : Nat) (s : State) (u' : State) (h : execTileGate via tile s = .next u') :
    u'.mem = s.mem := by
  unfold execTileGate at h
  injection h with h; subst h; try simp only [cmdWrite_mem, tilePowerAct_mem, implies_true]
theorem execTileUngate_mem (via : Via) (tile : Nat) (s : State) (u' : State) (h : execTileUngate via tile s = .next u') :
    u'.mem = s.mem := by
  unfold execTileUngate at h
  injection h with h; subst h; try simp only [cmdWrite_mem, tilePowerAct_mem, implies_true]
theorem execTileGated_mem (tile : Fin 16) (s : State) (u' : State) (h : execTileGated tile s = .next u') :
    u'.mem = s.mem := by
  unfold execTileGated at h
  injection h with h; subst h; try simp only [tileGated_mem]
theorem execTileOn_mem (tile : Fin 16) (s : State) (u' : State) (h : execTileOn tile s = .next u') :
    u'.mem = s.mem := by
  unfold execTileOn at h
  injection h with h; subst h; try simp only [tileIsOn_mem]
theorem execPortEnable_mem (via : Via) (p : Nat) (v : W64) (s : State) (u' : State) (h : execPortEnable via p v s = .next u') :
    u'.mem = s.mem := by
  unfold execPortEnable at h
  injection h with h; subst h; try simp only [cmdWrite_mem, portEnableAct_mem, implies_true]
theorem execClearCounters_mem (via : Via) (p : Nat) (v : W64) (s : State) (u' : State) (h : execClearCounters via p v s = .next u') :
    u'.mem = s.mem := by
  unfold execClearCounters at h
  injection h with h; subst h; try simp only [cmdWrite_mem, clearCountersAct_mem, implies_true]
theorem execSendDescReq_mem (via : Via) (p : Nat) (v : W64) (s : State) (u' : State) (h : execSendDescReq via p v s = .next u') :
    u'.mem = s.mem := by
  unfold execSendDescReq at h
  injection h with h; subst h; try simp only [cmdWrite_mem, sendDescReqAct_mem, implies_true]
theorem execRealign_mem (via : Via) (p : Nat) (v : W64) (s : State) (u' : State) (h : execRealign via p v s = .next u') :
    u'.mem = s.mem := by
  unfold execRealign at h
  injection h with h; subst h; try simp only [cmdWrite_mem, realignAct_mem, implies_true]
theorem execSignalDetect_mem (l : Fin 256) (s : State) (u' : State) (h : execSignalDetect l s = .next u') :
    u'.mem = s.mem := by
  unfold execSignalDetect at h
  injection h with h; subst h; try simp only [signalDetect_mem]
theorem execCodewordDecode_mem (l : Fin 256) (t badSyms : Nat) (cwSeq : BitVec 10) (txState : BitVec 2) (inverted : Bool) (s : State) (u' : State) (h : execCodewordDecode l t badSyms cwSeq txState inverted s = .next u') :
    u'.mem = s.mem := by
  unfold execCodewordDecode at h
  injection h with h; subst h; try simp only [codewordDecode_mem]
theorem execCodewordPeriodMissed_mem (l : Fin 256) (s : State) (u' : State) (h : execCodewordPeriodMissed l s = .next u') :
    u'.mem = s.mem := by
  unfold execCodewordPeriodMissed at h
  injection h with h; subst h; try simp only [codewordPeriodMissed_mem]
theorem execDataFrame_mem (l : Fin 256) (t : Nat) (hdr : W40) (pay : List W40) (s : State) (u' : State) (h : execDataFrame l t hdr pay s = .next u') :
    u'.mem = s.mem := by
  unfold execDataFrame at h
  injection h with h; subst h; try simp only [dataFrame_mem]
theorem execMarkerFrame_mem (l : Fin 256) (t : Nat) (slot : Fin 4) (hdr : W40) (pay : List W40) (s : State) (u' : State) (h : execMarkerFrame l t slot hdr pay s = .next u') :
    u'.mem = s.mem := by
  unfold execMarkerFrame at h
  injection h with h; subst h; try simp only [markerFrame_mem]
theorem execGroupMap_mem (l : Fin 256) (hdr : W40) (pay : List W40) (s : State) (u' : State) (h : execGroupMap l hdr pay s = .next u') :
    u'.mem = s.mem := by
  unfold execGroupMap at h
  injection h with h; subst h; try simp only [groupMap_mem]
theorem execDescriptor_mem (l : Fin 256) (hdr : W40) (pay : List W40) (s : State) (u' : State) (h : execDescriptor l hdr pay s = .next u') :
    u'.mem = s.mem := by
  unfold execDescriptor at h
  injection h with h; subst h; try simp only [descriptorFrame_mem]
theorem execTimeEcho_mem (l : Fin 256) (t : Nat) (hdr : W40) (pay : List W40) (s : State) (u' : State) (h : execTimeEcho l t hdr pay s = .next u') :
    u'.mem = s.mem := by
  unfold execTimeEcho at h
  injection h with h; subst h; try simp only [timeEcho_mem]
theorem execTime_mem (l : Fin 256) (s : State) (u' : State) (h : execTime l s = .next u') :
    u'.mem = s.mem := by
  unfold execTime at h
  injection h with h; subst h; try simp only [sendTime_mem]
theorem execCredit_mem (l : Fin 256) (s : State) (u' : State) (h : execCredit l s = .next u') :
    u'.mem = s.mem := by
  unfold execCredit at h
  injection h with h; subst h; try simp only [creditMessage_mem]
theorem execDescReqRetry_mem (l : Fin 256) (s : State) (u' : State) (h : execDescReqRetry l s = .next u') :
    u'.mem = s.mem := by
  unfold execDescReqRetry at h
  injection h with h; subst h; try simp only [descReqRetry_mem]
theorem execHuntTimeout_mem (l : Fin 256) (s : State) (u' : State) (h : execHuntTimeout l s = .next u') :
    u'.mem = s.mem := by
  unfold execHuntTimeout at h
  injection h with h; subst h; try simp only [huntTimeout_mem]
theorem execFramedTimeout_mem (l : Fin 256) (s : State) (u' : State) (h : execFramedTimeout l s = .next u') :
    u'.mem = s.mem := by
  unfold execFramedTimeout at h
  injection h with h; subst h; try simp only [framedTimeout_mem]
theorem execDescribedTimeout_mem (l : Fin 256) (s : State) (u' : State) (h : execDescribedTimeout l s = .next u') :
    u'.mem = s.mem := by
  unfold execDescribedTimeout at h
  injection h with h; subst h; try simp only [describedTimeout_mem]
theorem execFaultRetry_mem (l : Fin 256) (s : State) (u' : State) (h : execFaultRetry l s = .next u') :
    u'.mem = s.mem := by
  unfold execFaultRetry at h
  injection h with h; subst h; try simp only [faultRetry_mem]
theorem execAbsentTimeout_mem (l : Fin 256) (s : State) (u' : State) (h : execAbsentTimeout l s = .next u') :
    u'.mem = s.mem := by
  unfold execAbsentTimeout at h
  injection h with h; subst h; try simp only [absentTimeout_mem]
theorem execDegradedWindow_mem (l : Fin 256) (s : State) (u' : State) (h : execDegradedWindow l s = .next u') :
    u'.mem = s.mem := by
  unfold execDegradedWindow at h
  injection h with h; subst h; try simp only [degradedWindow_mem]
theorem execOwnershipRequest_mem (core : Fin 4) (line : Nat) (s : State) (u' : State) (h : execOwnershipRequest core line s = .next u') :
    u'.mem = s.mem := by
  unfold execOwnershipRequest at h
  injection h with h; subst h; try simp only [State.setLine_mem]
theorem execWriteBack_mem (core : Fin 4) (line : Nat) (s : State) (u' : State) (h : execWriteBack core line s = .next u') :
    u'.mem = s.mem := by
  unfold execWriteBack at h
  injection h with h; subst h; try simp only [State.setLine_mem]
theorem execLineMemoryDone_mem (line : Nat) (s : State) (u' : State) (h : execLineMemoryDone line s = .next u') :
    u'.mem = s.mem := by
  unfold execLineMemoryDone at h
  (try dsimp only at h); (repeat' split at h) <;> (injection h with h; subst h; try simp only [State.setLine_mem])
theorem execWStoreWrite_mem (f : Fin 1024) (off : Nat) (bytes : List Byte) (s : State) (u' : State) (h : execWStoreWrite f off bytes s = .next u') :
    u'.mem = s.mem := by
  unfold execWStoreWrite at h
  injection h with h; subst h; try simp only [storeWrite_mem]
theorem execStagingCellTimeout_mem (f : Fin 1024) (s : State) (u' : State) (h : execStagingCellTimeout f s = .next u') :
    u'.mem = s.mem := by
  unfold execStagingCellTimeout at h
  injection h with h; subst h; try simp only [stageTimeout_mem]
theorem execSelfRefreshEntry_mem (rank : Fin 32) (s : State) (u' : State) (h : execSelfRefreshEntry rank s = .next u') :
    u'.mem = s.mem := by
  unfold execSelfRefreshEntry at h
  injection h with h; subst h; try simp only [selfRefresh_mem]
theorem execFillReadCompletion_mem (f : Fin 1024) (ok : Bool) (bytes : List Byte) (s : State) (u' : State) (h : execFillReadCompletion f ok bytes s = .next u') :
    u'.mem = s.mem := by
  unfold execFillReadCompletion at h
  injection h with h; subst h; try simp only [fillCompletion_mem]
theorem execFillStart_mem (f : Fin 1024) (s : State) (u' : State) (h : execFillStart f s = .next u') :
    u'.mem = s.mem := by
  unfold execFillStart at h
  injection h with h; subst h; try simp only [cmdWrite_mem, fillStartAct_mem, implies_true]
theorem execFillAbort_mem (f : Fin 1024) (s : State) (u' : State) (h : execFillAbort f s = .next u') :
    u'.mem = s.mem := by
  unfold execFillAbort at h
  injection h with h; subst h; try simp only [cmdWrite_mem, fillAbortAct_mem, implies_true]
theorem execBusMasterEnableClear_mem (f : Fin 1024) (d3hot : Bool) (s : State) (u' : State) (h : execBusMasterEnableClear f d3hot s = .next u') :
    u'.mem = s.mem := by
  unfold execBusMasterEnableClear at h
  (repeat' split at h) <;> (injection h with h; subst h; try simp only [setMaster_mem])
theorem execBusMasterEnableSet_mem (f : Fin 1024) (s : State) (u' : State) (h : execBusMasterEnableSet f s = .next u') :
    u'.mem = s.mem := by
  unfold execBusMasterEnableSet at h
  (try dsimp only at h); (repeat' split at h) <;> (injection h with h; subst h; try simp only [setMaster_mem])
theorem execVfEnableClear_mem (h : Fin 4) (s : State) (u' : State) (h : execVfEnableClear h s = .next u') :
    u'.mem = s.mem := by
  unfold execVfEnableClear at h
  injection h with h; subst h; try simp only [clearVfs_mem]
theorem execFunctionLevelReset_mem (f : Fin 1024) (s : State) (u' : State) (h : execFunctionLevelReset f s = .next u') :
    u'.mem = s.mem := by
  unfold execFunctionLevelReset at h
  injection h with h; subst h; try simp only [resetFunc_mem]
theorem execHostPortReset_mem (h : Fin 4) (u1 : PortReset) (s : State) (u' : State) (h : execHostPortReset h u1 s = .next u') :
    u'.mem = s.mem := by
  unfold execHostPortReset at h
  injection h with h; subst h; try simp only [resetPort_mem]
theorem execHostLinkUp_mem (h : PortLands) (flit : Bool) (rate : Fin 8) (width : Fin 32) (s : State) (u' : State) (h : execHostLinkUp h flit rate width s = .next u') :
    u'.mem = s.mem := by
  unfold execHostLinkUp at h
  (try dsimp only at h); (repeat' split at h) <;> (injection h with h; subst h; try simp only [linkUp_mem])
theorem execMsixMessage_mem (f : Fin 1024) (vec : Fin 2048) (s : State) (u' : State) (h : execMsixMessage f vec s = .next u') :
    u'.mem = s.mem := by
  unfold execMsixMessage at h
  injection h with h; subst h; try simp only [pendingMessage_mem]
theorem execConfigurationRequest_mem (f : Fin 1024) (reg : Nat) (wr : Option (BitVec 32)) (s : State) (u' : State) (h : execConfigurationRequest f reg wr s = .next u') :
    u'.mem = s.mem := by
  unfold execConfigurationRequest at h
  injection h with h; subst h; try simp only [configRequest_mem]
theorem execIngotScrub_memOk (b : Fin 1024) (ingot : Nat) (s : State) (u' : State) (h : execIngotScrub b ingot s = .next u') (hs : memWf s.mem = true) :
    memWf u'.mem = true := by
  unfold execIngotScrub at h
  injection h with h; subst h; first | exact hs | (simp only [ingotScrub_memOk, hs]; done) | (refine vdpRequest_memOk _ _ _ _ hs (fun t ht => ?_); simp only [ingotScrub_memOk, implies_true, ite_mem, ite_self, ht]; done) | (refine cmdWrite_memOk _ _ _ _ _ _ hs (fun t ht => ?_); simp only [ingotScrub_memOk, implies_true, ite_mem, ite_self, ht])
theorem execPropSubmit_mem (via : Via) (v : W64) (s : State) (u' : State) (h : execPropSubmit via v s = .next u') :
    u'.mem = s.mem := by
  unfold execPropSubmit at h
  injection h with h; subst h; try simp only [cmdWrite_mem, propSubmitAct_mem, implies_true]
theorem execPropCountersign_mem (via : Via) (v : W64) (s : State) (u' : State) (h : execPropCountersign via v s = .next u') :
    u'.mem = s.mem := by
  unfold execPropCountersign at h
  injection h with h; subst h; try simp only [cmdWrite_mem, propCountersignAct_mem, implies_true]
theorem execPropCancel_mem (via : Via) (v : W64) (s : State) (u' : State) (h : execPropCancel via v s = .next u') :
    u'.mem = s.mem := by
  unfold execPropCancel at h
  injection h with h; subst h; try simp only [cmdWrite_mem, propCancelAct_mem, implies_true]
theorem execProposalApply_mem (s : State) (u' : State) (h : execProposalApply s = .next u') :
    u'.mem = s.mem := by
  unfold execProposalApply at h
  injection h with h; subst h; try simp only [proposalApply_mem]
theorem execQHost_mem (via : Via) (q : Nat) (v : W64) (s : State) (u' : State) (h : execQHost via q v s = .next u') :
    u'.mem = s.mem := by
  unfold execQHost at h
  injection h with h; subst h; try simp only [cmdWrite_mem, qHostAct_mem, implies_true]
theorem execDbCons_mem (f : Fin 1024) (off : Nat) (bytes : DblAccess) (s : State) (u' : State) (h : execDbCons f off bytes s = .next u') :
    u'.mem = s.mem := by
  unfold execDbCons at h
  (try dsimp only at h); (repeat' split at h) <;> (injection h with h; subst h; try simp only [dblRequest_mem])
theorem execDrainTransfer_mem (h : Fin 4) (s : State) (u' : State) (h : execDrainTransfer h s = .next u') :
    u'.mem = s.mem := by
  unfold execDrainTransfer at h
  injection h with h; subst h; try simp only [drainOnce_mem]
theorem execReadoutStart_mem (via : Via) (q : Nat) (s : State) (u' : State) (h : execReadoutStart via q s = .next u') :
    u'.mem = s.mem := by
  unfold execReadoutStart at h
  injection h with h; subst h; try simp only [cmdWrite_mem, readoutStartAct_mem, implies_true]
theorem execReadoutStop_mem (via : Via) (q : Nat) (s : State) (u' : State) (h : execReadoutStop via q s = .next u') :
    u'.mem = s.mem := by
  unfold execReadoutStop at h
  injection h with h; subst h; try simp only [cmdWrite_mem, readoutStopAct_mem, implies_true]
theorem execReadoutCell_memOk (q : ReadoutCell) (s : State) (u' : State) (h : execReadoutCell q s = .next u') (hs : memWf s.mem = true) :
    memWf u'.mem = true := by
  unfold execReadoutCell at h
  (try dsimp only at h); (repeat' split at h) <;> (injection h with h; subst h; first | exact hs | (simp only [readoutStep_memOk, hs]; done) | (refine vdpRequest_memOk _ _ _ _ _ hs (fun t ht => ?_); simp only [readoutStep_memOk, implies_true, ite_mem, ite_self, ht]; done) | (refine cmdWrite_memOk _ _ _ _ _ _ hs (fun t ht => ?_); simp only [readoutStep_memOk, implies_true, ite_mem, ite_self, ht]))
theorem execInputInRange_mem (milliV : Nat) (s : State) (u' : State) (h : execInputInRange milliV s = .next u') :
    u'.mem = s.mem := by
  unfold execInputInRange at h
  injection h with h; subst h; try simp only [powerOn_mem]
theorem execPowerLoss_memOk (s : State) (u' : State) (h : execPowerLoss s = .next u') (hs : memWf s.mem = true) :
    memWf u'.mem = true := by
  unfold execPowerLoss at h
  injection h with h; subst h; first | exact hs | (simp only [coldState_memOk]; done) | (refine vdpRequest_memOk _ _ _ _ hs (fun t ht => ?_); simp only [lastProgram_mem, coldState_memOk, implies_true, ite_mem, ite_self, ht]; done) | (refine cmdWrite_memOk _ _ _ _ _ _ hs (fun t ht => ?_); simp only [lastProgram_mem, coldState_memOk, implies_true, ite_mem, ite_self, ht])
theorem execFwAuth_mem (ok0 ok1 : Bool) (s : State) (u' : State) (h : execFwAuth ok0 ok1 s = .next u') :
    u'.mem = s.mem := by
  unfold execFwAuth at h
  injection h with h; subst h; try simp only [bootAuth_mem]
theorem execBringupComplete_mem (s : State) (u' : State) (h : execBringupComplete s = .next u') :
    u'.mem = s.mem := by
  unfold execBringupComplete at h
  injection h with h; subst h; try simp only [bringupDone_mem]
theorem execIdleEntry_mem (s : State) (u' : State) (h : execIdleEntry s = .next u') :
    u'.mem = s.mem := by
  unfold execIdleEntry at h
  injection h with h; subst h; try simp only [idleEntry_mem]
theorem execEndExclusive_mem (via : Via) (s : State) (u' : State) (h : execEndExclusive via s = .next u') :
    u'.mem = s.mem := by
  unfold execEndExclusive at h
  injection h with h; subst h; try simp only [cmdWrite_mem, endExclusiveAct_mem, implies_true]
theorem execExclusive_mem (via : Via) (b : Fin 1024) (s : State) (u' : State) (h : execExclusive via b s = .next u') :
    u'.mem = s.mem := by
  unfold execExclusive at h
  injection h with h; subst h; try simp only [cmdWrite_mem, exclusiveAct_mem, implies_true]
theorem execQuiesceIdle_mem (via : Via) (s : State) (u' : State) (h : execQuiesceIdle via s = .next u') :
    u'.mem = s.mem := by
  unfold execQuiesceIdle at h
  injection h with h; subst h; try simp only [cmdWrite_mem, quiesceAct_mem, implies_true]
theorem execQuiesceOff_mem (via : Via) (s : State) (u' : State) (h : execQuiesceOff via s = .next u') :
    u'.mem = s.mem := by
  unfold execQuiesceOff at h
  injection h with h; subst h; try simp only [cmdWrite_mem, quiesceAct_mem, implies_true]
theorem execFactory_mem (via : Via) (s : State) (u' : State) (h : execFactory via s = .next u') :
    u'.mem = s.mem := by
  unfold execFactory at h
  injection h with h; subst h; try simp only [cmdWrite_mem, factoryAct_mem, implies_true]
theorem execQuiesceComplete_memOk (s : State) (u' : State) (h : execQuiesceComplete s = .next u') (hs : memWf s.mem = true) :
    memWf u'.mem = true := by
  unfold execQuiesceComplete at h
  injection h with h; subst h; first | exact hs | (simp only [quiesceDone_memOk, hs]; done) | (refine vdpRequest_memOk _ _ _ _ hs (fun t ht => ?_); simp only [quiesceDone_memOk, implies_true, ite_mem, ite_self, ht]; done) | (refine cmdWrite_memOk _ _ _ _ _ _ hs (fun t ht => ?_); simp only [quiesceDone_memOk, implies_true, ite_mem, ite_self, ht])
theorem execWarmReset_memOk (via : Via) (v : W64) (s : State) (u' : State) (h : execWarmReset via v s = .next u') (hs : memWf s.mem = true) :
    memWf u'.mem = true := by
  unfold execWarmReset at h
  injection h with h; subst h; first | exact hs | (simp only [cmdWrite_mem, warmResetAct_memOk, implies_true, ite_mem, ite_self, hs]; done) | (refine vdpRequest_memOk _ _ _ _ hs (fun t ht => ?_); simp only [cmdWrite_mem, warmResetAct_memOk, implies_true, ite_mem, ite_self, ht]; done) | (refine cmdWrite_memOk _ _ _ _ _ _ hs (fun t ht => ?_); simp only [warmResetAct_memOk, ht])
theorem execSensorRead_mem (milliC : List Int) (milliV milliW : Nat) (s : State) (u' : State) (h : execSensorRead milliC milliV milliW s = .next u') :
    u'.mem = s.mem := by
  unfold execSensorRead at h
  injection h with h; subst h; try simp only [sensorRead_mem]
theorem execInputRange_mem (milliV : Nat) (s : State) (u' : State) (h : execInputRange milliV s = .next u') :
    u'.mem = s.mem := by
  unfold execInputRange at h
  injection h with h; subst h; try simp only [inputRange_mem]
theorem execRailFault_mem (rail : Nat) (s : State) (u' : State) (h : execRailFault rail s = .next u') :
    u'.mem = s.mem := by
  unfold execRailFault at h
  injection h with h; subst h; try simp only [railFault_mem]
theorem execErrAck_mem (via : Via) (src : Nat) (v : W64) (s : State) (u' : State) (h : execErrAck via src v s = .next u') :
    u'.mem = s.mem := by
  unfold execErrAck at h
  injection h with h; subst h; try simp only [cmdWrite_mem, errAckAct_mem, implies_true]
theorem execTileUe_mem (tile : Fin 16) (kind : TileError) (s : State) (u' : State) (h : execTileUe tile kind s = .next u') :
    u'.mem = s.mem := by
  unfold execTileUe at h
  (try dsimp only at h); (repeat' split at h) <;> (injection h with h; subst h; try simp only [tileError_mem])
theorem execTileReset_mem (via : Via) (tile : Nat) (v : W64) (s : State) (u' : State) (h : execTileReset via tile v s = .next u') :
    u'.mem = s.mem := by
  unfold execTileReset at h
  injection h with h; subst h; try simp only [cmdWrite_mem, tileResetAct_mem, implies_true]
theorem execTileTestDone_mem (tile : Fin 16) (pass : Bool) (s : State) (u' : State) (h : execTileTestDone tile pass s = .next u') :
    u'.mem = s.mem := by
  unfold execTileTestDone at h
  injection h with h; subst h; try simp only [tileTested_mem]
theorem execServiceWatchdog_mem (s : State) (u' : State) (h : execServiceWatchdog s = .next u') :
    u'.mem = s.mem := by
  unfold execServiceWatchdog at h
  injection h with h; subst h; try simp only [watchdog_mem]
theorem execServiceRestartDone_mem (s : State) (u' : State) (h : execServiceRestartDone s = .next u') :
    u'.mem = s.mem := by
  unfold execServiceRestartDone at h
  injection h with h; subst h; try simp only []
theorem execTestSlot_memOk (kind : Fin 4) (unit : Nat) (found : TestOutcome) (s : State) (u' : State) (h : execTestSlot kind unit found s = .next u') (hs : memWf s.mem = true) :
    memWf u'.mem = true := by
  unfold execTestSlot at h
  (try dsimp only at h); (repeat' split at h) <;> (injection h with h; subst h; first | exact hs | (simp only [testSlot_memOk, hs]; done) | (refine vdpRequest_memOk _ _ _ _ _ hs (fun t ht => ?_); simp only [testSlot_memOk, implies_true, ite_mem, ite_self, ht]; done) | (refine cmdWrite_memOk _ _ _ _ _ _ hs (fun t ht => ?_); simp only [testSlot_memOk, implies_true, ite_mem, ite_self, ht]))
theorem execFwBegin_mem (via : Via) (v : W64) (s : State) (u' : State) (h : execFwBegin via v s = .next u') :
    u'.mem = s.mem := by
  unfold execFwBegin at h
  injection h with h; subst h; try simp only [cmdWrite_mem, fwBeginAct_mem, implies_true]
theorem execFwPage_mem (via : Via) (v : W64) (s : State) (u' : State) (h : execFwPage via v s = .next u') :
    u'.mem = s.mem := by
  unfold execFwPage at h
  injection h with h; subst h; try simp only [cmdWrite_mem, fwPageAct_mem, implies_true]
theorem execFwPageProgrammed_mem (s : State) (u' : State) (h : execFwPageProgrammed s = .next u') :
    u'.mem = s.mem := by
  unfold execFwPageProgrammed at h
  injection h with h; subst h; try simp only [pageDone_mem]
theorem execFwFinish_mem (via : Via) (v : W64) (s : State) (u' : State) (h : execFwFinish via v s = .next u') :
    u'.mem = s.mem := by
  unfold execFwFinish at h
  injection h with h; subst h; try simp only [cmdWrite_mem, fwFinishAct_mem, implies_true]
theorem execFwVerifyDone_mem (ok : Bool) (s : State) (u' : State) (h : execFwVerifyDone ok s = .next u') :
    u'.mem = s.mem := by
  unfold execFwVerifyDone at h
  injection h with h; subst h; try simp only [verified_mem]
theorem execOutApply_mem (via : Via) (v : W64) (s : State) (u' : State) (h : execOutApply via v s = .next u') :
    u'.mem = s.mem := by
  unfold execOutApply at h
  injection h with h; subst h; try simp only [cmdWrite_mem, outApplyAct_mem, implies_true]
theorem execSyncInEdge_mem (s : State) (u' : State) (h : execSyncInEdge s = .next u') :
    u'.mem = s.mem := by
  unfold execSyncInEdge at h
  injection h with h; subst h; try simp only [syncIn_mem]
theorem execPlanSelect_mem (via : Via) (v : W64) (s : State) (u' : State) (h : execPlanSelect via v s = .next u') :
    u'.mem = s.mem := by
  unfold execPlanSelect at h
  injection h with h; subst h; try simp only [cmdWrite_mem, planSelectAct_mem, implies_true]
theorem execPlanHopDone_mem (band : Fin 64) (s : State) (u' : State) (h : execPlanHopDone band s = .next u') :
    u'.mem = s.mem := by
  unfold execPlanHopDone at h
  injection h with h; subst h; try simp only [planHopDone_mem]
theorem execPlanAt_mem (via : Via) (v : W64) (s : State) (u' : State) (h : execPlanAt via v s = .next u') :
    u'.mem = s.mem := by
  unfold execPlanAt at h
  injection h with h; subst h; try simp only [cmdWrite_mem, planAtAct_mem, implies_true]
theorem execScheduledPlanHop_mem (s : State) (u' : State) (h : execScheduledPlanHop s = .next u') :
    u'.mem = s.mem := by
  unfold execScheduledPlanHop at h
  injection h with h; subst h; try simp only [scheduledHop_mem]
theorem execPpsOutWidthEnd_mem (s : State) (u' : State) (h : execPpsOutWidthEnd s = .next u') :
    u'.mem = s.mem := by
  unfold execPpsOutWidthEnd at h
  injection h with h; subst h; try simp only [ppsEnd_mem]
theorem execPpsOut_mem (s : State) (u' : State) (h : execPpsOut s = .next u') :
    u'.mem = s.mem := by
  unfold execPpsOut at h
  injection h with h; subst h; try simp only [ppsSecond_mem]
theorem execTrigIoCfg_mem (via : Via) (n : Nat) (v : W64) (s : State) (u' : State) (h : execTrigIoCfg via n v s = .next u') :
    u'.mem = s.mem := by
  unfold execTrigIoCfg at h
  injection h with h; subst h; try simp only [cmdWrite_mem, trigIoAct_mem, implies_true]
theorem execTrigIoInputEdge_mem (n : Fin 4) (t : PinEdge) (s : State) (u' : State) (h : execTrigIoInputEdge n t s = .next u') :
    u'.mem = s.mem := by
  unfold execTrigIoInputEdge at h
  (try dsimp only at h); (repeat' split at h) <;> (injection h with h; subst h; try simp only [trigInput_mem])
theorem execEdgeAt_mem (via : Via) (n : Nat) (v : W64) (s : State) (u' : State) (h : execEdgeAt via n v s = .next u') :
    u'.mem = s.mem := by
  unfold execEdgeAt at h
  injection h with h; subst h; try simp only [cmdWrite_mem, edgeAtAct_mem, implies_true]
theorem execScheduledEdge_mem (n : Fin 4) (s : State) (u' : State) (h : execScheduledEdge n s = .next u') :
    u'.mem = s.mem := by
  unfold execScheduledEdge at h
  injection h with h; subst h; try simp only [scheduledEdge_mem]
theorem execAux1Push_mem (via : Via) (v : W64) (s : State) (u' : State) (h : execAux1Push via v s = .next u') :
    u'.mem = s.mem := by
  unfold execAux1Push at h
  injection h with h; subst h; try simp only [cmdWrite_mem, aux1PushAct_mem, implies_true]
theorem execAux1Flush_mem (via : Via) (v : W64) (s : State) (u' : State) (h : execAux1Flush via v s = .next u') :
    u'.mem = s.mem := by
  unfold execAux1Flush at h
  injection h with h; subst h; try simp only [cmdWrite_mem, aux1FlushAct_mem, implies_true]
theorem execAux1Sample_mem (s : State) (u' : State) (h : execAux1Sample s = .next u') :
    u'.mem = s.mem := by
  unfold execAux1Sample at h
  injection h with h; subst h; try simp only [aux1Sample_mem]
theorem execSelectedReferenceLost_mem (s : State) (u' : State) (h : execSelectedReferenceLost s = .next u') :
    u'.mem = s.mem := by
  unfold execSelectedReferenceLost at h
  injection h with h; subst h; try simp only [refLost_mem]
theorem execLockLoss_mem (s : State) (u' : State) (h : execLockLoss s = .next u') :
    u'.mem = s.mem := by
  unfold execLockLoss at h
  injection h with h; subst h; try simp only [lockLost_mem]
theorem execLockDelayExpiry_mem (offset : Int) (s : State) (u' : State) (h : execLockDelayExpiry offset s = .next u') :
    u'.mem = s.mem := by
  unfold execLockDelayExpiry at h
  injection h with h; subst h; try simp only [lockDelay_mem]
theorem execSwitchComplete_mem (offset : Int) (s : State) (u' : State) (h : execSwitchComplete offset s = .next u') :
    u'.mem = s.mem := by
  unfold execSwitchComplete at h
  injection h with h; subst h; try simp only [switchDone_mem]
theorem execHoldoverClassChange_mem (s : State) (u' : State) (h : execHoldoverClassChange s = .next u') :
    u'.mem = s.mem := by
  unfold execHoldoverClassChange at h
  injection h with h; subst h; try simp only [holdoverClass_mem]
theorem execRefMeasurement_mem (r : Fin 2) (ppb : Int) (s : State) (u' : State) (h : execRefMeasurement r ppb s = .next u') :
    u'.mem = s.mem := by
  unfold execRefMeasurement at h
  injection h with h; subst h; try simp only [refMeasure_mem]
theorem execRef10InLoss_mem (s : State) (u' : State) (h : execRef10InLoss s = .next u') :
    u'.mem = s.mem := by
  unfold execRef10InLoss at h
  injection h with h; subst h; try simp only [ref10Stops_mem]
theorem execRef10InReturn_mem (s : State) (u' : State) (h : execRef10InReturn s = .next u') :
    u'.mem = s.mem := by
  unfold execRef10InReturn at h
  injection h with h; subst h; try simp only [ref10Returns_mem]
theorem execPpsInEdge_mem (cycles : Nat) (off : Int) (s : State) (u' : State) (h : execPpsInEdge cycles off s = .next u') :
    u'.mem = s.mem := by
  unfold execPpsInEdge at h
  injection h with h; subst h; try simp only [ppsIn_mem]
theorem execPpsInTimeout_mem (s : State) (u' : State) (h : execPpsInTimeout s = .next u') :
    u'.mem = s.mem := by
  unfold execPpsInTimeout at h
  injection h with h; subst h; try simp only [ppsMissing_mem]
theorem execAnnounceReceiptTimeout_mem (s : State) (u' : State) (h : execAnnounceReceiptTimeout s = .next u') :
    u'.mem = s.mem := by
  unfold execAnnounceReceiptTimeout at h
  injection h with h; subst h; try simp only [announceTimeout_mem]
theorem execPtpMessageReceived_mem (m : Fin 2) (msg : PtpMsg) (s : State) (u' : State) (h : execPtpMessageReceived m msg s = .next u') :
    u'.mem = s.mem := by
  unfold execPtpMessageReceived at h
  injection h with h; subst h; try simp only [ptpReceived_mem]
theorem execPtpMessageSent_mem (m : Fin 2) (kind : PtpKind) (s : State) (u' : State) (h : execPtpMessageSent m kind s = .next u') :
    u'.mem = s.mem := by
  unfold execPtpMessageSent at h
  injection h with h; subst h; try simp only [ptpSent_mem]
theorem execTimeSet_mem (via : Via) (e : Nat) (v : W64) (s : State) (u' : State) (h : execTimeSet via e v s = .next u') :
    u'.mem = s.mem := by
  unfold execTimeSet at h
  injection h with h; subst h; try simp only [cmdWrite_mem, timeSetAct_mem, implies_true]
theorem execCalUtc_mem (via : Via) (v : W64) (s : State) (u' : State) (h : execCalUtc via v s = .next u') :
    u'.mem = s.mem := by
  unfold execCalUtc at h
  injection h with h; subst h; try simp only [cmdWrite_mem, calUtcAct_mem, implies_true]
theorem execLeapSecond_mem (s : State) (u' : State) (h : execLeapSecond s = .next u') :
    u'.mem = s.mem := by
  unfold execLeapSecond at h
  injection h with h; subst h; try simp only [leapSecond_mem]
theorem execNetLinkDown_mem (m : Fin 2) (s : State) (u' : State) (h : execNetLinkDown m s = .next u') :
    u'.mem = s.mem := by
  unfold execNetLinkDown at h
  injection h with h; subst h; try simp only [netLinkDown_mem]
theorem execNetLinkUp_mem (m : Fin 2) (s : State) (u' : State) (h : execNetLinkUp m s = .next u') :
    u'.mem = s.mem := by
  unfold execNetLinkUp at h
  injection h with h; subst h; try simp only [netLinkUp_mem]
theorem execNetApply_mem (via : Via) (m : Nat) (v : W64) (s : State) (u' : State) (h : execNetApply via m v s = .next u') :
    u'.mem = s.mem := by
  unfold execNetApply at h
  injection h with h; subst h; try simp only [cmdWrite_mem, netApplyAct_mem, implies_true]
theorem execEthernetFrame_mem (m : Fin 2) (len : Nat) (frame : EthFrame) (s : State) (u' : State) (h : execEthernetFrame m len frame s = .next u') :
    u'.mem = s.mem := by
  unfold execEthernetFrame at h
  injection h with h; subst h; try simp only [frameIn_mem]
theorem execHello_mem (m : Fin 2) (addr : Nat) (p : List Byte) (s : State) (u' : State) (h : execHello m addr p s = .next u') :
    u'.mem = s.mem := by
  unfold execHello at h
  (repeat' split at h) <;> (injection h with h; subst h; try simp only [vdpIn_mem])
theorem execData_mem (m : Fin 2) (p : List Byte) (s : State) (u' : State) (h : execData m p s = .next u') :
    u'.mem = s.mem := by
  unfold execData at h
  (repeat' split at h) <;> (injection h with h; subst h; try simp only [vdpIn_mem])
theorem execSessionIdleTimeout_mem (slot : Fin 64) (s : State) (u' : State) (h : execSessionIdleTimeout slot s = .next u') :
    u'.mem = s.mem := by
  unfold execSessionIdleTimeout at h
  injection h with h; subst h; try simp only [sessionIdle_mem]
theorem execSessionClose_mem (via : Via) (v : W64) (s : State) (u' : State) (h : execSessionClose via v s = .next u') :
    u'.mem = s.mem := by
  unfold execSessionClose at h
  injection h with h; subst h; try simp only [cmdWrite_mem, sessionCloseAct_mem, implies_true]
theorem execRead_mem (slot : Fin 64) (id : BitVec 32) (ref : W64) (count : Nat) (s : State) (u' : State) (h : execRead slot id ref count s = .next u') :
    u'.mem = s.mem := by
  unfold execRead at h
  injection h with h; subst h; try simp only [readRequest_mem, vdpRequest_mem, implies_true]
theorem execWrite_memOk (slot : Fin 64) (id : BitVec 32) (ref : W64) (vals : List W64) (s : State) (u' : State) (h : execWrite slot id ref vals s = .next u') (hs : memWf s.mem = true) :
    memWf u'.mem = true := by
  unfold execWrite at h
  (try dsimp only at h); (repeat' split at h) <;> (injection h with h; subst h; first | exact hs | (simp only [State.count_mem, vdpRequest_mem, writeRequest_memOk, implies_true, ite_mem, ite_self, hs]; done) | (refine vdpRequest_memOk _ _ _ _ _ hs (fun t ht => ?_); simp only [writeRequest_memOk, ht]; done) | (refine cmdWrite_memOk _ _ _ _ _ _ hs (fun t ht => ?_); simp only [State.count_mem, vdpRequest_mem, writeRequest_memOk, implies_true, ite_mem, ite_self, ht]))
theorem execCasWrite_memOk (slot : Fin 64) (id : BitVec 32) (ref : W64) (expect : BitVec 32) (vals : List W64) (s : State) (u' : State) (h : execCasWrite slot id ref expect vals s = .next u') (hs : memWf s.mem = true) :
    memWf u'.mem = true := by
  unfold execCasWrite at h
  (try dsimp only at h); (repeat' split at h) <;> (injection h with h; subst h; first | exact hs | (simp only [State.count_mem, vdpRequest_mem, writeRequest_memOk, implies_true, ite_mem, ite_self, hs]; done) | (refine vdpRequest_memOk _ _ _ _ _ hs (fun t ht => ?_); simp only [writeRequest_memOk, ht]; done) | (refine cmdWrite_memOk _ _ _ _ _ _ hs (fun t ht => ?_); simp only [State.count_mem, vdpRequest_mem, writeRequest_memOk, implies_true, ite_mem, ite_self, ht]))
theorem execKeepalive_mem (slot : Fin 64) (id : BitVec 32) (s : State) (u' : State) (h : execKeepalive slot id s = .next u') :
    u'.mem = s.mem := by
  unfold execKeepalive at h
  injection h with h; subst h; try simp only [vdpRequest_mem, implies_true]
theorem execClose_mem (slot : Fin 64) (id : BitVec 32) (s : State) (u' : State) (h : execClose slot id s = .next u') :
    u'.mem = s.mem := by
  unfold execClose at h
  (try dsimp only at h); (repeat' split at h) <;> (injection h with h; subst h; try simp only [closeRequest_mem])
theorem execSubscribe_mem (slot : Fin 64) (id : BitVec 32) (ref : W64) (count interval : Nat) (periodic : Bool) (s : State) (u' : State) (h : execSubscribe slot id ref count interval periodic s = .next u') :
    u'.mem = s.mem := by
  unfold execSubscribe at h
  injection h with h; subst h; try simp only [vdpRequest_mem, subscribeRequest_mem, implies_true]
theorem execUnsubscribe_mem (slot : Fin 64) (id : BitVec 32) (sub : Nat) (s : State) (u' : State) (h : execUnsubscribe slot id sub s = .next u') :
    u'.mem = s.mem := by
  unfold execUnsubscribe at h
  injection h with h; subst h; try simp only [vdpRequest_mem, unsubscribeRequest_mem, implies_true]
theorem execNotify_mem (slot : Fin 64) (sub : Nat) (s : State) (u' : State) (h : execNotify slot sub s = .next u') :
    u'.mem = s.mem := by
  unfold execNotify at h
  (repeat' split at h) <;> (injection h with h; subst h; try simp only [notifySub_mem])
theorem execMbxSubmit_memOk (f : Fin 1024) (v : W64) (s : State) (u' : State) (h : execMbxSubmit f v s = .next u') (hs : memWf s.mem = true) :
    memWf u'.mem = true := by
  unfold execMbxSubmit at h
  injection h with h; subst h; first | exact hs | (simp only [cmdWrite_mem, mbxSubmitAct_memOk, implies_true, ite_mem, ite_self, hs]; done) | (refine vdpRequest_memOk _ _ _ _ hs (fun t ht => ?_); simp only [cmdWrite_mem, mbxSubmitAct_memOk, implies_true, ite_mem, ite_self, ht]; done) | (refine cmdWrite_memOk _ _ _ _ _ _ hs (fun t ht => ?_); simp only [mbxSubmitAct_memOk, ht])
theorem execWCtlWrite_memOk (f : Fin 1024) (off : Nat) (bytes : List Byte) (s : State) (u' : State) (h : execWCtlWrite f off bytes s = .next u') (hs : memWf s.mem = true) :
    memWf u'.mem = true := by
  unfold execWCtlWrite at h
  injection h with h; subst h; first | exact hs | (simp only [wCtlWrite_memOk, hs]; done) | (refine vdpRequest_memOk _ _ _ _ hs (fun t ht => ?_); simp only [wCtlWrite_memOk, implies_true, ite_mem, ite_self, ht]; done) | (refine cmdWrite_memOk _ _ _ _ _ _ hs (fun t ht => ?_); simp only [wCtlWrite_memOk, implies_true, ite_mem, ite_self, ht])
theorem execTime96Read_mem (via : Via) (obj : Nat) (e : ElemPart) (s : State) (u' : State) (h : execTime96Read via obj e s = .next u') :
    u'.mem = s.mem := by
  unfold execTime96Read at h
  (try dsimp only at h); (repeat' split at h) <;> (injection h with h; subst h; try simp only [elementRead_mem])
theorem execCasExpect_mem (f : Fin 1024) (v : W64) (s : State) (u' : State) (h : execCasExpect f v s = .next u') :
    u'.mem = s.mem := by
  unfold execCasExpect at h
  injection h with h; subst h; try simp only [cmdWrite_mem, casExpectAct_mem, implies_true]
theorem execRelayData_memOk (f : Fin 1024) (op : RelayOp) (s : State) (u' : State) (h : execRelayData f op s = .next u') (hs : memWf s.mem = true) :
    memWf u'.mem = true := by
  unfold execRelayData at h
  injection h with h; subst h; first | exact hs | (simp only [relayAccess_memOk, hs]; done) | (refine vdpRequest_memOk _ _ _ _ hs (fun t ht => ?_); simp only [relayAccess_memOk, implies_true, ite_mem, ite_self, ht]; done) | (refine cmdWrite_memOk _ _ _ _ _ _ hs (fun t ht => ?_); simp only [relayAccess_memOk, implies_true, ite_mem, ite_self, ht])
theorem execServiceCoreAccess_memOk (core : Fin 4) (inMap : Bool) (obj e : Nat) (wr : Option W64) (s : State) (u' : State) (h : execServiceCoreAccess core inMap obj e wr s = .next u') (hs : memWf s.mem = true) :
    memWf u'.mem = true := by
  unfold execServiceCoreAccess at h
  injection h with h; subst h; first | exact hs | (simp only [serviceAccess_memOk, hs]; done) | (refine vdpRequest_memOk _ _ _ _ hs (fun t ht => ?_); simp only [serviceAccess_memOk, implies_true, ite_mem, ite_self, ht]; done) | (refine cmdWrite_memOk _ _ _ _ _ _ hs (fun t ht => ?_); simp only [serviceAccess_memOk, implies_true, ite_mem, ite_self, ht])
theorem execWStoreRead_memOk (f : Fin 1024) (off : StoreOffset) (len : Nat) (s : State) (u' : State) (h : execWStoreRead f off len s = .next u')
    (hs : memWf s.mem = true) : memWf u'.mem = true := by
  unfold execWStoreRead at h
  injection h with h; subst h
  exact windowRead_memOk _ _ _ _ hs (windowReadNow_memOk _ _ _ _ hs)
theorem execSpeedChangeDone_memOk (s : State) (u' : State) (h : execSpeedChangeDone s = .next u') (hs : memWf s.mem = true) :
    memWf u'.mem = true := by
  unfold execSpeedChangeDone at h
  (try dsimp only at h); (repeat' split at h) <;> (injection h with h; subst h; first | exact hs | (simp only [speedChangeDone_memOk, hs]; done) | (refine vdpRequest_memOk _ _ _ _ _ hs (fun t ht => ?_); simp only [speedChangeDone_memOk, implies_true, ite_mem, ite_self, ht]; done) | (refine cmdWrite_memOk _ _ _ _ _ _ hs (fun t ht => ?_); simp only [speedChangeDone_memOk, implies_true, ite_mem, ite_self, ht]))
theorem execAllocRound_memOk (reqs : List AllocReq) (s : State) (u' : State) (h : execAllocRound reqs s = .next u') (hs : memWf s.mem = true) :
    memWf u'.mem = true := by
  unfold execAllocRound at h
  injection h with h; subst h; first | exact hs | (simp only [allocRound_memOk, hs]; done) | (refine vdpRequest_memOk _ _ _ _ hs (fun t ht => ?_); simp only [allocRound_memOk, implies_true, ite_mem, ite_self, ht]; done) | (refine cmdWrite_memOk _ _ _ _ _ _ hs (fun t ht => ?_); simp only [allocRound_memOk, implies_true, ite_mem, ite_self, ht])

end Sys2Proof.Machine
end

