-- ==== Sys2Proof/Laws/Queue.lean ====
section
/-! SUPPORT. The queue of waiting commands under every operation of the model: no operation touches it, so no command does (the queue
is the step's alone). -/

namespace Sys2Proof.Machine

/-! ## Base -/

@[simp] theorem ite_pending (c : Prop) [Decidable c] (a b : State) : (if c then a else b).pending = if c then a.pending else b.pending := by
  split <;> rfl
@[simp] theorem ite_fst_pending {α : Type} (c : Prop) [Decidable c] (a b : State × α) :
    (if c then a else b).1.pending = if c then a.1.pending else b.1.pending := by
  split <;> rfl
@[simp] theorem ite_snd_pending {α : Type} (c : Prop) [Decidable c] (a b : α × State) :
    (if c then a else b).2.pending = if c then a.2.pending else b.2.pending := by
  split <;> rfl
@[simp] theorem foldl_pending {α : Type} (g : State → α → State) (l : List α) (s : State)
    (h : ∀ s a, (g s a).pending = s.pending) : (l.foldl g s).pending = s.pending := by
  induction l generalizing s with
  | nil => rfl
  | cons a t ih => rw [List.foldl_cons, ih, h]
@[simp] theorem foldl_snd_pending {α β : Type} (g : β × State → α → β × State) (l : List α) (p : β × State)
    (h : ∀ p a, (g p a).2.pending = p.2.pending) : (l.foldl g p).2.pending = p.2.pending := by
  induction l generalizing p with
  | nil => rfl
  | cons a t ih => rw [List.foldl_cons, ih, h]
@[simp] theorem foldl_fst_pending {α β : Type} (g : State × β → α → State × β) (l : List α) (p : State × β)
    (h : ∀ p a, (g p a).1.pending = p.1.pending) : (l.foldl g p).1.pending = p.1.pending := by
  induction l generalizing p with
  | nil => rfl
  | cons a t ih => rw [List.foldl_cons, ih, h]

/-! ## Ops -/

@[simp] theorem State.put_pending (s : State) (o : ObjInfo) (e : Nat) (v : W64) :
    (State.put s o e v).pending = s.pending := by cases s; rfl
@[simp] theorem State.bump_pending (s : State) (o : ObjInfo) (e : Nat) :
    (State.bump s o e).pending = s.pending := by cases s; rfl
@[simp] theorem State.touchIf_pending (s : State) (changed : Bool) (o : ObjInfo) (e : Nat) :
    (State.touchIf s changed o e).pending = s.pending := by cases s; rfl
@[simp] theorem State.setEl_pending (s : State) (o : ObjInfo) (e : Nat) (v : W64) :
    (State.setEl s o e v).pending = s.pending := by cases s; rfl
@[simp] theorem State.setN_pending (s : State) (o : ObjInfo) (e : Nat) (n : Nat) :
    (State.setN s o e n).pending = s.pending := by simp only [State.setN, State.setEl_pending]
@[simp] theorem State.count_pending (s : State) (o : ObjInfo) (e : Nat) (k : Nat) :
    (State.count s o e k).pending = s.pending := by simp only [State.count, State.setEl_pending]
@[simp] theorem State.inc_pending (s : State) (o : ObjInfo) (e : Nat) :
    (State.inc s o e).pending = s.pending := by simp only [State.inc, State.count_pending]
@[simp] theorem State.clearEls_pending (s : State) (o : ObjInfo) (e n : Nat) : (s.clearEls o e n).pending = s.pending := by
  induction n with
  | zero => rfl
  | succ n ih => rw [State.clearEls, State.setEl_pending, ih]
@[simp] theorem State.dropKeys_pending (s : State) (lo hi : Nat) :
    (State.dropKeys s lo hi).pending = s.pending := by cases s; rfl
@[simp] theorem State.drawn_pending (s : State) :
    (State.drawn s).pending = s.pending := by cases s; rfl
@[simp] theorem State.send_pending (s : State) (o : Out) :
    (State.send s o).pending = s.pending := by cases s; rfl
@[simp] theorem State.setLane_pending (s : State) (l : Nat) (x : Lane) :
    (State.setLane s l x).pending = s.pending := by cases s; rfl
@[simp] theorem State.modLane_pending (s : State) (l : Nat) (f : Lane → Lane) :
    (State.modLane s l f).pending = s.pending := by simp only [State.modLane, State.setLane_pending]
@[simp] theorem State.setBench_pending (s : State) (b : Nat) (x : Bench) :
    (State.setBench s b x).pending = s.pending := by cases s; rfl
@[simp] theorem State.modBench_pending (s : State) (b : Nat) (f : Bench → Bench) :
    (State.modBench s b f).pending = s.pending := by simp only [State.modBench, State.setBench_pending]
@[simp] theorem noteSeg_pending (s : State) (b : Nat) (t : State) :
    (noteSeg s b t).pending = t.pending := by cases t; rfl
@[simp] theorem State.setSeqx_pending (s : State) (q : Nat) (x : SeqX) :
    (State.setSeqx s q x).pending = s.pending := by cases s; rfl
@[simp] theorem State.setPin_pending (s : State) (n : Nat) (x : Pin) :
    (State.setPin s n x).pending = s.pending := by cases s; rfl
@[simp] theorem State.setStream_pending (s : State) (n : Nat) (x : Stream) :
    (State.setStream s n x).pending = s.pending := by cases s; rfl
@[simp] theorem State.modStream_pending (s : State) (n : Nat) (f : Stream → Stream) :
    (State.modStream s n f).pending = s.pending := by simp only [State.modStream, State.setStream_pending]
@[simp] theorem State.setDir_pending (s : State) (b : Nat) (x : List DirEntry) :
    (State.setDir s b x).pending = s.pending := by cases s; rfl
@[simp] theorem State.setEngine_pending (s : State) (a : Nat) (x : Engine) :
    (State.setEngine s a x).pending = s.pending := by cases s; rfl
@[simp] theorem State.modEngine_pending (s : State) (a : Nat) (f : Engine → Engine) :
    (State.modEngine s a f).pending = s.pending := by simp only [State.modEngine, State.setEngine_pending]
@[simp] theorem State.setLock_pending (s : State) (k : Nat) (x : Lock) :
    (State.setLock s k x).pending = s.pending := by cases s; rfl
@[simp] theorem State.setLine_pending (s : State) (k : Nat) (x : Line) :
    (State.setLine s k x).pending = s.pending := by cases s; rfl
@[simp] theorem State.setPacket_pending (s : State) (p : Nat) (x : Packet) :
    (State.setPacket s p x).pending = s.pending := by cases s; rfl
@[simp] theorem State.setQueue_pending (s : State) (q : Nat) (x : Queue) :
    (State.setQueue s q x).pending = s.pending := by cases s; rfl
@[simp] theorem State.modQueue_pending (s : State) (q : Nat) (f : Queue → Queue) :
    (State.modQueue s q f).pending = s.pending := by simp only [State.modQueue, State.setQueue_pending]
@[simp] theorem State.setChan_pending (s : State) (c : Nat) (x : Chan) :
    (State.setChan s c x).pending = s.pending := by cases s; rfl
@[simp] theorem State.setRank_pending (s : State) (r : Nat) (x : Rank) :
    (State.setRank s r x).pending = s.pending := by cases s; rfl
@[simp] theorem State.setStage_pending (s : State) (f : Nat) (x : Option Staging) :
    (State.setStage s f x).pending = s.pending := by cases s; rfl
@[simp] theorem State.setPort_pending (s : State) (h : Nat) (x : Port) :
    (State.setPort s h x).pending = s.pending := by cases s; rfl
@[simp] theorem State.modPort_pending (s : State) (h : Nat) (f : Port → Port) :
    (State.modPort s h f).pending = s.pending := by simp only [State.modPort, State.setPort_pending]
@[simp] theorem State.setFunc_pending (s : State) (f : Nat) (x : Func) :
    (State.setFunc s f x).pending = s.pending := by cases s; rfl
@[simp] theorem State.modFunc_pending (s : State) (i : Nat) (f : Func → Func) :
    (State.modFunc s i f).pending = s.pending := by simp only [State.modFunc, State.setFunc_pending]
@[simp] theorem State.setSession_pending (s : State) (k : Nat) (x : Option Session) :
    (State.setSession s k x).pending = s.pending := by cases s; rfl
@[simp] theorem State.setNetCfg_pending (s : State) (m : Nat) (x : NetCfg) :
    (State.setNetCfg s m x).pending = s.pending := by cases s; rfl
@[simp] theorem State.setRef_pending (s : State) (r : Nat) (x : Ref) :
    (State.setRef s r x).pending = s.pending := by cases s; rfl
@[simp] theorem advance_pending (d : Nat) (s : State) :
    (advance d s).pending = s.pending := by cases s; rfl
@[simp] theorem advanceTo_pending (t : Nat) (s : State) :
    (advanceTo t s).pending = s.pending := by simp only [advanceTo, advance_pending]
@[simp] theorem advanceMod_pending (t : Nat) (s : State) :
    (advanceMod t s).pending = s.pending := by simp only [advanceMod, advance_pending]
@[simp] theorem tick_pending (s : State) :
    (tick s).pending = s.pending := by simp only [tick, advance_pending]
@[simp] theorem State.setVec_pending (s : State) (f vec : Nat) (v : Vec) :
    (State.setVec s f vec v).pending = s.pending := by simp only [State.setVec, State.modFunc_pending]
@[simp] theorem sendVec_pending (f vec : Nat) (s : State) :
    (sendVec f vec s).pending = s.pending := by simp only [sendVec, State.send_pending, State.setVec_pending]
@[simp] theorem raiseVec_pending (f vec : Nat) (s : State) :
    (raiseVec f vec s).pending = s.pending := by simp only [raiseVec, State.setVec_pending, sendVec_pending, ite_pending, ite_self]
@[simp] theorem intUpdate_pending (h : Nat) (s : State) :
    (intUpdate h s).pending = s.pending := by simp only [intUpdate, State.send_pending, State.setPort_pending, raiseVec_pending, ite_pending, ite_self]
@[simp] theorem setInt1_pending (src h : Nat) (s : State) :
    (setInt1 src h s).pending = s.pending := by simp only [setInt1, State.setEl_pending, intUpdate_pending]
@[simp] theorem setInt_pending (src : Nat) (s : State) :
    (setInt src s).pending = s.pending := by simp only [setInt, setInt1_pending]
@[simp] theorem notice_pending (f vec : Nat) (s : State) :
    (notice f vec s).pending = s.pending := by simp only [notice, raiseVec_pending, setInt1_pending, ite_pending, ite_self]
@[simp] theorem refreshJournal_pending (s : State) :
    (refreshJournal s).pending = s.pending := by simp only [refreshJournal, State.setEl_pending]
@[simp] theorem journalAdd_pending (j : JEntry) (s : State) :
    (journalAdd j s).pending = s.pending := by simp only [journalAdd, refreshJournal_pending]
@[simp] theorem noteAlert_pending (before : Mode) (s : State) :
    (noteAlert before s).pending = s.pending := by simp only [noteAlert, State.send_pending, ite_pending, ite_self]
@[simp] theorem State.setMode_pending (s : State) (m : Mode) :
    (State.setMode s m).pending = s.pending := by simp only [State.setMode, State.setEl_pending, State.setN_pending, setInt_pending, noteAlert_pending, ite_pending, ite_self]
@[simp] theorem toService_pending (s : State) :
    (toService s).pending = s.pending := by simp only [toService, State.setMode_pending, ite_pending, ite_self]
@[simp] theorem State.setBenchState_pending (s : State) (b : Nat) (x : BenchState) :
    (State.setBenchState s b x).pending = s.pending := by simp only [State.setBenchState, State.setN_pending, setInt_pending, ite_pending, ite_self]
@[simp] theorem faultBench_pending (b : Nat) (c : FaultCause) (s : State) :
    (faultBench b c s).pending = s.pending := by simp only [faultBench, State.modBench_pending, ite_pending, ite_self]
@[simp] theorem faultAll_pending (s : State) :
    (faultAll s).pending = s.pending := by simp only [faultAll, faultBench_pending, foldl_pending, implies_true]
@[simp] theorem enterRecovery_pending (cls : Nat) (s : State) :
    (enterRecovery cls s).pending = s.pending := by simp only [enterRecovery, State.setMode_pending, faultAll_pending]
@[simp] theorem gateAllTiles_pending (s : State) :
    (gateAllTiles s).pending = s.pending := by simp only [gateAllTiles, State.setN_pending, ite_pending, ite_self, foldl_pending, implies_true]
@[simp] theorem enterSafe_pending (s : State) :
    (enterSafe s).pending = s.pending := by simp only [enterSafe, State.setN_pending, State.setMode_pending, faultAll_pending, gateAllTiles_pending]
@[simp] theorem safeTrigger_pending (s : State) :
    (safeTrigger s).pending = s.pending := by simp only [safeTrigger, enterSafe_pending, ite_pending, ite_self]
@[simp] theorem putRecord_pending (o : ObjInfo) (src : Nat) (w0 w1 w2 : W64) (s : State) :
    (putRecord o src w0 w1 w2 s).pending = s.pending := by simp only [putRecord, State.setEl_pending]
@[simp] theorem refreshSummary_pending (s : State) :
    (refreshSummary s).pending = s.pending := by simp only [refreshSummary, State.setEl_pending]
@[simp] theorem notifyError_pending (sev src : Nat) (w0 w1 w2 : W64) (s : State) :
    (notifyError sev src w0 w1 w2 s).pending = s.pending := by simp only [notifyError, State.setN_pending, setInt_pending, journalAdd_pending, putRecord_pending, ite_pending, ite_self]
@[simp] theorem placeError_pending (cls sev src : Nat) (w0 detail : W64) (s : State) :
    (placeError cls sev src w0 detail s).pending = s.pending := by simp only [placeError, State.setN_pending, State.send_pending, putRecord_pending, refreshSummary_pending, notifyError_pending, ite_pending, ite_self]
@[simp] theorem raiseError_pending (cls sev src unit bench : Nat) (detail : W64) (s : State) :
    (raiseError cls sev src unit bench detail s).pending = s.pending := by simp only [raiseError, State.drawn_pending, placeError_pending, ite_pending, ite_self]

/-! ## Wire -/

@[simp] theorem sendMessage_pending (slot : Nat) (out : List Byte → Out) (msg : Session → List Byte) (s : State) :
    (sendMessage slot out msg s).pending = s.pending := by unfold sendMessage; (repeat' split) <;> (try simp only [State.send_pending, State.setSession_pending])
@[simp] theorem respond_pending (slot : Nat) (id : BitVec 32) (ref : W64) (st orig : Status) (counter : BitVec 32) (sub : Nat) (vals : List W64) (s : State) :
    (respond slot id ref st orig counter sub vals s).pending = s.pending := by simp only [respond, sendMessage_pending]
@[simp] theorem sendNotify_pending (slot sub : Nat) (ref : W64) (denied : Bool) (counter : BitVec 32) (vals : List W64) (s : State) :
    (sendNotify slot sub ref denied counter vals s).pending = s.pending := by unfold sendNotify; (repeat' split) <;> (try simp only [State.setSession_pending, sendMessage_pending])

/-! ## Lanes -/

@[simp] theorem State.setLaneState_pending (s : State) (l : Nat) (x : LaneState) :
    (State.setLaneState s l x).pending = s.pending := by simp only [State.setLaneState, State.setN_pending, State.modLane_pending]
@[simp] theorem State.setAlign_pending (s : State) (l : Nat) (x : AlignState) :
    (State.setAlign s l x).pending = s.pending := by simp only [State.setAlign, State.setN_pending]
@[simp] theorem State.setLaneFlag_pending (s : State) (l i : Nat) (b : Bool) :
    (State.setLaneFlag s l i b).pending = s.pending := by simp only [State.setLaneFlag, State.setEl_pending]
@[simp] theorem benchEvent_pending (b kind : Nat) (sq level : Nat) (arg : W40) (s : State) :
    (benchEvent b kind sq level arg s).pending = s.pending := by simp only [benchEvent, State.modBench_pending]
@[simp] theorem laneTrouble1_pending (l cause b : Nat) (s : State) :
    (laneTrouble1 l cause b s).pending = s.pending := by simp only [laneTrouble1, State.modBench_pending, faultBench_pending, State.setLaneFlag_pending, benchEvent_pending, ite_pending, ite_self]
@[simp] theorem laneTrouble_pending (l cause : Nat) (s : State) :
    (laneTrouble l cause s).pending = s.pending := by simp only [laneTrouble, laneTrouble1_pending, foldl_pending, implies_true]
@[simp] theorem laneRejoin_pending (l : Nat) (s : State) :
    (laneRejoin l s).pending = s.pending := by simp only [laneRejoin, State.modBench_pending, ite_pending, ite_self, foldl_pending, implies_true]
@[simp] theorem clearForeign_pending (b : Nat) (s : State) :
    (clearForeign b s).pending = s.pending := by simp only [clearForeign, State.modBench_pending, State.setLaneFlag_pending, ite_pending, ite_self, foldl_pending, implies_true]
@[simp] theorem refreshConflict1_pending (l : Nat) (s : State) :
    (refreshConflict1 l s).pending = s.pending := by simp only [refreshConflict1, State.setLaneFlag_pending, laneTrouble_pending, laneRejoin_pending, ite_pending, ite_self]
@[simp] theorem refreshConflicts_pending (s : State) :
    (refreshConflicts s).pending = s.pending := by simp only [refreshConflicts, refreshConflict1_pending, foldl_pending, implies_true]
@[simp] theorem sendDescReq_pending (l : Nat) (s : State) :
    (sendDescReq l s).pending = s.pending := by simp only [sendDescReq, State.send_pending, State.modLane_pending, ite_pending, ite_self]
@[simp] theorem countWait_pending (l : Nat) (s : State) :
    (countWait l s).pending = s.pending := by cases s; rfl
@[simp] theorem raiseLimit_pending (l : Nat) (s : State) :
    (raiseLimit l s).pending = s.pending := by simp only [raiseLimit, State.modLane_pending, countWait_pending, ite_pending, ite_self]
@[simp] theorem sendCredit_pending (l : Nat) (s : State) :
    (sendCredit l s).pending = s.pending := by simp only [sendCredit, State.send_pending, State.modLane_pending]
@[simp] theorem creditAfterFree_pending (l : Nat) (s : State) :
    (creditAfterFree l s).pending = s.pending := by simp only [creditAfterFree, raiseLimit_pending, sendCredit_pending, ite_pending, ite_self]
@[simp] theorem startCalibration_pending (l : Nat) (s : State) :
    (startCalibration l s).pending = s.pending := by simp only [startCalibration, State.modLane_pending, State.setAlign_pending]
@[simp] theorem admitOrRefuse_pending (l : Nat) (s : State) :
    (admitOrRefuse l s).pending = s.pending := by unfold admitOrRefuse; (repeat' split) <;> (try simp only [State.setN_pending, State.modLane_pending, raiseError_pending, State.setAlign_pending])
@[simp] theorem reevaluate_pending (design : W64) (s : State) :
    (reevaluate design s).pending = s.pending := by simp only [reevaluate, admitOrRefuse_pending, ite_pending, ite_self, foldl_pending, implies_true]
@[simp] theorem leaveAligned_pending (l : Nat) (next : AlignState) (s : State) :
    (leaveAligned l next s).pending = s.pending := by unfold leaveAligned; (repeat' split) <;> (try simp only [State.modLane_pending, State.setAlign_pending, creditAfterFree_pending, reevaluate_pending])
@[simp] theorem leaveUp_pending (l : Nat) (s : State) :
    (leaveUp l s).pending = s.pending := by simp only [leaveUp, State.modLane_pending, State.setLaneFlag_pending, laneTrouble_pending, countWait_pending, leaveAligned_pending, ite_pending, ite_self]
@[simp] theorem enterHunt_pending (l : Nat) (s : State) :
    (enterHunt l s).pending = s.pending := by simp only [enterHunt, State.modLane_pending, State.setLaneState_pending, leaveUp_pending]
@[simp] theorem laneFault_pending (l : Nat) (c : LaneCause) (s : State) :
    (laneFault l c s).pending = s.pending := by simp only [laneFault, State.setN_pending, raiseError_pending, State.setLaneState_pending, leaveUp_pending]
@[simp] theorem enterFramed_pending (l : Nat) (s : State) :
    (enterFramed l s).pending = s.pending := by simp only [enterFramed, State.setLaneState_pending, sendDescReq_pending]
@[simp] theorem enterUp_pending (l : Nat) (s : State) :
    (enterUp l s).pending = s.pending := by simp only [enterUp, State.modLane_pending, State.setLaneState_pending, laneRejoin_pending, sendCredit_pending, startCalibration_pending]
@[simp] theorem laneOff_pending (l : Nat) (s : State) :
    (laneOff l s).pending = s.pending := by simp only [laneOff, State.setN_pending, State.dropKeys_pending, State.modLane_pending, State.setLaneState_pending, leaveUp_pending]
@[simp] theorem frameError_pending (l : Nat) (s : State) :
    (frameError l s).pending = s.pending := by simp only [frameError, State.inc_pending, State.modLane_pending, laneFault_pending, ite_pending, ite_self]
@[simp] theorem stampError_pending (l : Nat) (s : State) :
    (stampError l s).pending = s.pending := by simp only [stampError, State.inc_pending, laneFault_pending]
@[simp] theorem countMissing_pending (l d : Nat) (stamp : W40) (s : State) :
    (countMissing l d stamp s).pending = s.pending := by simp only [countMissing, State.inc_pending, State.modLane_pending, ite_pending, ite_self]
@[simp] theorem dropClocks_pending (l : Nat) (which : Nat → Bool) (s : State) :
    (dropClocks l which s).pending = s.pending := by simp only [dropClocks, State.modLane_pending, countMissing_pending, foldl_pending, implies_true]
@[simp] theorem uncorrectable_pending (l : Nat) (s : State) :
    (uncorrectable l s).pending = s.pending := by simp only [uncorrectable, State.inc_pending, State.modLane_pending, laneFault_pending, ite_pending, ite_self]

/-! ## Dict -/

@[simp] theorem setPropStatus_pending (w : W64) (s : State) :
    (setPropStatus w s).pending = s.pending := by simp only [setPropStatus, State.setEl_pending, setInt_pending, ite_pending, ite_self]
@[simp] theorem setPropState_pending (st cause : Nat) (s : State) :
    (setPropState st cause s).pending = s.pending := by simp only [setPropState, setPropStatus_pending]
@[simp] theorem propRefuse_pending (st : Status) (s : State) :
    (propRefuse st s).1.pending = s.pending := by simp only [propRefuse, setPropStatus_pending]
@[simp] theorem noteRefusal_pending (via : Via) (o : ObjInfo) (e : Nat) (st : Status) (s : State) :
    (noteRefusal via o e st s).1.pending = s.pending := by simp only [noteRefusal, propRefuse_pending, ite_fst_pending, ite_self]
@[simp] theorem setAct_pending (o : ObjInfo) (e : Nat) (v : W64) (s : State) : (setAct o e v s).1.pending = s.pending := by
  rw [setAct, State.put_pending]
theorem dictWrite_pending (via : Via) (expect : Option (BitVec 32)) (o : ObjInfo) (e : Nat) (v : W64) (act : State → State × Status)
    (s : State) (h : (act s).1.pending = s.pending) : (dictWrite via expect o e v act s).1.pending = s.pending := by
  unfold dictWrite
  split
  · dsimp only; split
    · rw [State.bump_pending, h]
    · exact h
  · split
    · exact h
    · exact noteRefusal_pending ..
@[simp] theorem disarmCas_pending (via : Via) (s : State) :
    (disarmCas via s).pending = s.pending := by unfold disarmCas; (repeat' split) <;> (try simp only [State.setEl_pending, ite_pending, ite_self])
@[simp] theorem relaySpends_pending (via : Via) (o : ObjInfo) (s : State) :
    (relaySpends via o s).pending = s.pending := by simp only [relaySpends, disarmCas_pending, ite_pending, ite_self]
@[simp] theorem spendCas_pending (via : Via) (obj : Nat) (s : State) :
    (spendCas via obj s).pending = s.pending := by simp only [spendCas, disarmCas_pending, ite_pending, ite_self]
@[simp] theorem takeCas_pending (via : Via) (o : ObjInfo) (s : State) :
    (takeCas via o s).2.pending = s.pending := by unfold takeCas; (repeat' split) <;> (try simp only [State.setEl_pending, ite_snd_pending, ite_self])
@[simp] theorem relayAdvance_pending (c : Nat) (s : State) :
    (relayAdvance c s).pending = s.pending := by simp only [relayAdvance, State.setEl_pending]
@[simp] theorem answerWrite_pending (via : Via) (ref : W64) (counter : BitVec 32) (st : Status) (s : State) :
    (answerWrite via ref counter st s).pending = s.pending := by unfold answerWrite; (repeat' split) <;> (try simp only [State.setEl_pending, State.send_pending, respond_pending])
@[simp] theorem recordWrite_pending (via : Via) (o : ObjInfo) (e : Nat) (st : Status) (s : State) :
    (recordWrite via o e st s).pending = s.pending := by simp only [recordWrite, answerWrite_pending]
@[simp] theorem holdOp_pending (f b : Nat) (op : HeldOp) (s : State) :
    (holdOp f b op s).pending = s.pending := by cases s; rfl
theorem postedWrite_pending (f : Nat) (a : HostAccess) (now : State → State) (s : State) (h : (now s).pending = s.pending) :
    (postedWrite f a now s).pending = s.pending := by
  unfold postedWrite
  split
  · rfl
  · split
    · exact holdOp_pending ..
    · exact h
theorem windowRead_pending (f : Nat) (a : HostAccess) (now : State → State) (s : State) (h : (now s).pending = s.pending) :
    (windowRead f a now s).pending = s.pending := by
  unfold windowRead
  split
  · rfl
  · split
    · exact State.send_pending ..
    · split
      · exact holdOp_pending ..
      · exact h
theorem writeNow_pending (via : Via) (o : ObjInfo) (e : Nat) (v : W64) (act : State → State × Status) (s : State)
    (h : ∀ t, (act t).1.pending = t.pending) : (writeNow via o e v act s).pending = s.pending := by
  unfold writeNow
  dsimp only
  rw [recordWrite_pending, relaySpends_pending]
  split
  · split
    · rw [relayAdvance_pending, dictWrite_pending _ _ _ _ _ _ _ (h _), takeCas_pending]
    · rw [dictWrite_pending _ _ _ _ _ _ _ (h _), takeCas_pending]
  · rw [dictWrite_pending _ _ _ _ _ _ _ (h _), takeCas_pending]
theorem cmdWrite_pending (via : Via) (o : ObjInfo) (e : Nat) (v : W64) (act : State → State × Status) (s : State)
    (h : ∀ t, (act t).1.pending = t.pending) : (cmdWrite via o e v act s).pending = s.pending := by
  unfold cmdWrite
  split
  · exact writeNow_pending _ _ _ _ _ _ h
  · exact postedWrite_pending _ _ _ _ (writeNow_pending _ _ _ _ _ _ h)
@[simp] theorem answerRead_pending (via : Via) (ref : W64) (counter : BitVec 32) (st : Status) (v : W64) (s : State) :
    (answerRead via ref counter st v s).pending = s.pending := by unfold answerRead; (repeat' split) <;> (try simp only [State.setEl_pending, State.send_pending, respond_pending])
@[simp] theorem recordRead_pending (via : Via) (o : ObjInfo) (e : Nat) (st : Status) (v : W64) (s : State) :
    (recordRead via o e st v s).pending = s.pending := by simp only [recordRead, answerRead_pending]
theorem cmdRead_pending (via : Via) (o : ObjInfo) (e : Nat) (act : State → State × Status × W64) (s : State)
    (h : ∀ t, (act t).1.pending = t.pending) : (cmdRead via o e act s).pending = s.pending := by
  unfold cmdRead
  split
  · dsimp only; rw [recordRead_pending]
    split
    · split
      · rw [relayAdvance_pending, h]
      · rw [h]
    · rw [h]
  · rw [recordRead_pending]
@[simp] theorem refuse_pending (st : Status) (s : State) :
    (refuse st s).1.pending = s.pending := by cases s; rfl
theorem guardAct_pending (c : Bool) (st : Status) (act : State → State × Status) (s : State) (h : (act s).1.pending = s.pending) :
    (guardAct c st act s).1.pending = s.pending := by
  unfold guardAct; split <;> first | rfl | exact h

/-! ## Cond -/

@[simp] theorem State.setShadow_pending (s : State) (o : ObjInfo) (e : Nat) (v : W64) :
    (State.setShadow s o e v).pending = s.pending := by cases s; rfl
@[simp] theorem refreshDirty_pending (b : Nat) (s : State) :
    (refreshDirty b s).pending = s.pending := by simp only [refreshDirty, State.setEl_pending]
@[simp] theorem writeShadowed_pending (o : ObjInfo) (e : Nat) (v : W64) (s : State) :
    (writeShadowed o e v s).1.pending = s.pending := by unfold writeShadowed; (repeat' split) <;> (try simp only [State.put_pending, State.setShadow_pending, refreshDirty_pending])
@[simp] theorem applyCopies_pending (l : List (ObjInfo × Nat × W64)) (s : State) :
    (applyCopies l s).pending = s.pending := by simp only [applyCopies, State.setEl_pending, foldl_pending, implies_true]
@[simp] theorem cuConfigAct_pending (c : Nat) (v : W64) (s : State) :
    (cuConfigAct c v s).1.pending = s.pending := by simp only [cuConfigAct, writeShadowed_pending, ite_fst_pending, ite_self]
@[simp] theorem cuGroupAct_pending (c : Nat) (v : W64) (s : State) :
    (cuGroupAct c v s).1.pending = s.pending := by simp only [cuGroupAct, writeShadowed_pending, ite_fst_pending, ite_self]
@[simp] theorem cuExportAct_pending (c : Nat) (v : W64) (s : State) :
    (cuExportAct c v s).1.pending = s.pending := by simp only [cuExportAct, writeShadowed_pending, ite_fst_pending, ite_self]
@[simp] theorem State.setCuPrev_pending (s : State) (c : Nat) (w : Option W40) :
    (State.setCuPrev s c w).pending = s.pending := by cases s; rfl
@[simp] theorem cuEvaluate_pending (c : Nat) (w : W40) (s : State) :
    (cuEvaluate c w s).pending = s.pending := by simp only [cuEvaluate, State.setEl_pending, State.inc_pending, State.setCuPrev_pending, ite_pending, ite_self]
@[simp] theorem cuHold_pending (c : Nat) (s : State) :
    (cuHold c s).pending = s.pending := by simp only [cuHold, State.setEl_pending]
@[simp] theorem cuReset_pending (c : Nat) (s : State) :
    (cuReset c s).pending = s.pending := by simp only [cuReset, State.setEl_pending, State.setCuPrev_pending]
@[simp] theorem cuRow_pending (r : Row) (c : Nat) (s : State) :
    (cuRow r c s).pending = s.pending := by unfold cuRow; (repeat' split) <;> (try simp only [State.inc_pending, cuEvaluate_pending, cuHold_pending, ite_pending, ite_self])
@[simp] theorem cuRows_pending (r : Row) (s : State) :
    (cuRows r s).pending = s.pending := by simp only [cuRows, cuRow_pending, foldl_pending, implies_true]

/-! ## Mem -/

@[simp] theorem State.writeBytes_pending (s : State) (a : Nat) (bs : List Byte) :
    (State.writeBytes s a bs).pending = s.pending := by cases s; rfl
@[simp] theorem State.zeroIngot_pending (s : State) (ingot : Nat) :
    (State.zeroIngot s ingot).pending = s.pending := by cases s; rfl
@[simp] theorem State.setPoison_pending (s : State) (ingot cell : Nat) (v : Bool) :
    (State.setPoison s ingot cell v).pending = s.pending := by cases s; rfl
@[simp] theorem poisonCell_pending (ingot cell : Nat) (s : State) :
    (poisonCell ingot cell s).pending = s.pending := by simp only [poisonCell, State.setEl_pending, State.inc_pending, State.setPoison_pending, ite_pending, ite_self]
@[simp] theorem State.setHolder_pending (s : State) (ingot v : Nat) :
    (State.setHolder s ingot v).pending = s.pending := by cases s; rfl
@[simp] theorem notePoison_pending (ingot : Nat) (s : State) :
    (notePoison ingot s).pending = s.pending := by simp only [notePoison, State.setDir_pending, ite_pending, ite_self]
@[simp] theorem readCell_pending (ingot cell : Nat) (s : State) :
    (readCell ingot cell s).2.pending = s.pending := by simp only [readCell, notePoison_pending, ite_pending, ite_self]
@[simp] theorem writeCell_pending (ingot cell : Nat) (bs : List Byte) (s : State) :
    (writeCell ingot cell bs s).pending = s.pending := by simp only [writeCell, State.writeBytes_pending, State.setPoison_pending]
@[simp] theorem mergeCell_pending (ingot cell : Nat) (bs : List (Nat × Byte)) (s : State) :
    (mergeCell ingot cell bs s).pending = s.pending := by simp only [mergeCell, State.writeBytes_pending, foldl_pending, implies_true]
@[simp] theorem State.setHomeRanks_pending (s : State) (st : Nat) (l : List Nat) :
    (State.setHomeRanks s st l).pending = s.pending := by cases s; rfl
@[simp] theorem noteRequest_pending (s : State) (r : Nat) :
    (noteRequest s r).pending = s.pending := by simp only [noteRequest, State.setRank_pending]
@[simp] theorem acceptReq_pending (r : StoreReq) (s : State) :
    (acceptReq r s).pending = s.pending := by simp only [acceptReq, toService_pending, noteRequest_pending, foldl_pending, implies_true]

/-! ## Pool -/

@[simp] theorem takeCell_pending (k : Nat) (s : State) :
    (takeCell k s).pending = s.pending := by cases s; rfl
@[simp] theorem takeCells_pending (bank : Option Nat) (n : Nat) (held : List Nat) (s : State) : (takeCells bank n held s).2.pending = s.pending := by
  induction n generalizing held s with
  | zero => rfl
  | succ n ih => rw [takeCells]; dsimp only; rw [ih, takeCell_pending]
@[simp] theorem State.setHeld_pending (s : State) (b : Option Nat) (n : Nat) :
    (State.setHeld s b n).pending = s.pending := by unfold State.setHeld; (repeat' split) <;> (try simp only [State.setN_pending])
@[simp] theorem grantPacket_pending (p : Packet) (cls : AllocClass) (tile k : Nat) (s : State) :
    (grantPacket p cls tile k s).2.pending = s.pending := by
  have h (t : State) (n : Nat) : ({ t with nextPkt := n } : State).pending = t.pending := by cases t; rfl
  unfold grantPacket; dsimp only
  rw [State.setHeld_pending, State.setPacket_pending, h, takeCells_pending]
@[simp] theorem State.setRotor_pending (s : State) (cls : AllocClass) (b : Nat) :
    (State.setRotor s cls b).pending = s.pending := by cases s; rfl
@[simp] theorem refusedCell_pending (b : Option Nat) (s : State) :
    (refusedCell b s).pending = s.pending := by unfold refusedCell; (repeat' split) <;> (try simp only [State.inc_pending])
@[simp] theorem useGrant_pending (id : Nat) (p : Packet) (s : State) :
    (useGrant id p s).pending = s.pending := by simp only [useGrant, State.setPacket_pending]
@[simp] theorem allocPacket_pending (p : Packet) (cls : AllocClass) (tile k : Nat) (s : State) :
    (allocPacket p cls tile k s).2.pending = s.pending := by unfold allocPacket; (repeat' split) <;> (try simp only [grantPacket_pending, State.setRotor_pending, refusedCell_pending, useGrant_pending])
@[simp] theorem leaveExclusive_pending (s : State) :
    (leaveExclusive s).pending = s.pending := by simp only [leaveExclusive, State.setN_pending, State.setMode_pending, ite_pending, ite_self]
@[simp] theorem freeCells_pending (p : Packet) (s : State) :
    (freeCells p s).pending = s.pending := by unfold freeCells; (repeat' split) <;> (try simp only [State.setN_pending, foldl_pending, implies_true])
@[simp] theorem releaseLink_pending (id : Nat) (s : State) :
    (releaseLink id s).pending = s.pending := by simp only [releaseLink, State.setPacket_pending, freeCells_pending, ite_pending, ite_self]
@[simp] theorem dropGrants_pending (b : Nat) (s : State) :
    (dropGrants b s).pending = s.pending := by simp only [dropGrants, releaseLink_pending, foldl_pending, implies_true]
@[simp] theorem noteQueue_pending (s : State) (q : Nat) (t : State) :
    (noteQueue s q t).pending = t.pending := by cases t; rfl
@[simp] theorem advIndex_pending (o : ObjInfo) (q k : Nat) (s : State) :
    (advIndex o q k s).pending = s.pending := by simp only [advIndex, State.setN_pending]
@[simp] theorem postNotice_pending (q : Nat) (vec : Option Nat) (s : State) :
    (postNotice q vec s).pending = s.pending := by unfold postNotice; (repeat' split) <;> (try simp only [notice_pending])
@[simp] theorem dropAt_pending (q i : Nat) (s : State) :
    (dropAt q i s).pending = s.pending := by unfold dropAt; dsimp only; (repeat' split) <;> (try simp only [State.setQueue_pending, releaseLink_pending, advIndex_pending])
@[simp] theorem enterQueue_pending (q id : Nat) (s : State) :
    (enterQueue q id s).pending = s.pending := by simp only [enterQueue, State.setPacket_pending, State.modQueue_pending, advIndex_pending, postNotice_pending, ite_pending, ite_self]
@[simp] theorem discardNew_pending (q id : Nat) (s : State) :
    (discardNew q id s).pending = s.pending := by simp only [discardNew, State.inc_pending, releaseLink_pending, advIndex_pending]
@[simp] theorem offerPacket_pending (q id : Nat) (s : State) :
    (offerPacket q id s).2.pending = s.pending := by simp only [offerPacket, State.inc_pending, State.setQueue_pending, releaseLink_pending, dropAt_pending, enterQueue_pending, discardNew_pending, ite_snd_pending, ite_self]
@[simp] theorem postEvent_pending (b sq level code dclk : Nat) (stamp : W40) (s : State) :
    (postEvent b sq level code dclk stamp s).pending = s.pending := by
  unfold postEvent
  split
  · exact State.inc_pending ..
  · rename_i q _
    have ha := allocPacket_pending { kind := .event, bench := some b, cells := [], words := eventWords sq level code dclk stamp }
      .acquisition (sq / 8) 1 s
    dsimp only
    split <;> rename_i h <;> rw [h] at ha
    · rw [State.inc_pending]; exact ha
    · rename_i id s1
      have ho := offerPacket_pending q id s1
      split <;> rename_i h2 <;> rw [h2] at ho
      · exact ho.trans ha
      · rw [State.inc_pending]; exact ho.trans ha
@[simp] theorem discardAll_pending (q : Nat) (count keepHead : Bool) (s : State) :
    (discardAll q count keepHead s).pending = s.pending := by simp only [discardAll, State.count_pending, State.setQueue_pending, releaseLink_pending, advIndex_pending, ite_pending, ite_self, foldl_pending, implies_true]
@[simp] theorem flushQueue_pending (q : Nat) (s : State) :
    (flushQueue q s).pending = s.pending := by unfold flushQueue; (repeat' split) <;> (try simp only [State.modQueue_pending, discardAll_pending])
@[simp] theorem unlinkFilling_pending (q : Nat) (s : State) :
    (unlinkFilling q s).pending = s.pending := by simp only [unlinkFilling, State.inc_pending, State.modStream_pending, ite_pending, ite_self]
@[simp] theorem resetQueue_pending (q : Nat) (forced : Bool) (s : State) :
    (resetQueue q forced s).pending = s.pending := by simp only [resetQueue, State.setEl_pending, State.modQueue_pending, discardAll_pending, unlinkFilling_pending]
@[simp] theorem defaultQueue_pending (q : Nat) (s : State) :
    (defaultQueue q s).pending = s.pending := by simp only [defaultQueue, State.setEl_pending, foldl_pending, implies_true]
@[simp] theorem freeQueue_pending (q : Nat) (s : State) :
    (freeQueue q s).pending = s.pending := by simp only [freeQueue, State.setN_pending, State.setQueue_pending, discardAll_pending, defaultQueue_pending, ite_pending, ite_self]

/-! ## Pins -/

@[simp] theorem drivePin_pending (n : Nat) (s : State) :
    (drivePin n s).pending = s.pending := by simp only [drivePin, State.send_pending, State.setPin_pending, ite_pending, ite_self]
@[simp] theorem setPinState_pending (n : Nat) (v : Bool) (s : State) :
    (setPinState n v s).pending = s.pending := by simp only [setPinState, State.setPin_pending, drivePin_pending]
@[simp] theorem pulsePin_pending (n : Nat) (s : State) :
    (pulsePin n s).pending = s.pending := by simp only [pulsePin, State.setPin_pending, drivePin_pending]
@[simp] theorem applyPinOps_pending (n : Nat) (ops : List Nat) (s : State) :
    (applyPinOps n ops s).pending = s.pending := by simp only [applyPinOps, setPinState_pending, pulsePin_pending, ite_pending, ite_self]
@[simp] theorem clearPins_pending (b : Nat) (s : State) :
    (clearPins b s).pending = s.pending := by simp only [clearPins, setPinState_pending, ite_pending, ite_self, foldl_pending, implies_true]
@[simp] theorem pulseEnds_pending (n : Nat) (s : State) :
    (pulseEnds n s).pending = s.pending := by unfold pulseEnds; (repeat' split) <;> (try simp only [State.setPin_pending, advanceTo_pending, drivePin_pending])

/-! ## Quench -/

@[simp] theorem asyncEvent_pending (b kind : Nat) (arg : W40) (s : State) :
    (asyncEvent b kind arg s).pending = s.pending := by simp only [asyncEvent, benchEvent_pending, ite_pending, ite_self]
@[simp] theorem setSkid_pending (l skid : Nat) (s : State) :
    (setSkid l skid s).pending = s.pending := by cases s; rfl
@[simp] theorem recordReport_pending (b : Nat) (q : Quench) (s : State) :
    (recordReport b q s).2.pending = s.pending := by simp only [recordReport, State.setEl_pending, setSkid_pending, foldl_pending, implies_true]
@[simp] theorem reportAsync_pending (b : Nat) (q : Quench) (s : State) :
    (reportAsync b q s).pending = s.pending := by simp only [reportAsync, asyncEvent_pending, recordReport_pending]
@[simp] theorem endWindow_pending (b : Nat) (s : State) :
    (endWindow b s).pending = s.pending := by simp only [endWindow, State.modBench_pending]
@[simp] theorem sendQuench_pending (l : Nat) (q : Quench) (leave : Nat) (s : State) :
    (sendQuench l q leave s).pending = s.pending := by cases s; rfl
@[simp] theorem requestQuench_pending (b src dclk : Nat) (stamp : W40) (s : State) :
    (requestQuench b src dclk stamp s).2.pending = s.pending := by unfold requestQuench; (repeat' split) <;> (try simp only [State.modBench_pending, recordReport_pending, endWindow_pending, sendQuench_pending, ite_snd_pending, ite_self, foldl_pending, implies_true])
@[simp] theorem recallQuench_pending (l b : Nat) (s : State) :
    (recallQuench l b s).pending = s.pending := by unfold recallQuench; (repeat' split) <;> (try simp only [State.modBench_pending, reportAsync_pending, endWindow_pending, ite_pending, ite_self])
@[simp] theorem recallQuenches_pending (l : Nat) (s : State) :
    (recallQuenches l s).pending = s.pending := by simp only [recallQuenches, recallQuench_pending, foldl_pending, implies_true]
@[simp] theorem quenchCmdAct_pending (b : Nat) (v : W64) (s : State) :
    (quenchCmdAct b v s).1.pending = s.pending := by simp only [quenchCmdAct, asyncEvent_pending, requestQuench_pending, ite_fst_pending, ite_self, foldl_pending, implies_true]
@[simp] theorem resumeCmdAct_pending (b : Nat) (v : W64) (s : State) :
    (resumeCmdAct b v s).1.pending = s.pending := by unfold resumeCmdAct; (repeat' split) <;> (try simp only [State.setEl_pending, State.send_pending, State.modBench_pending, foldl_pending, implies_true])
@[simp] theorem takeReport_pending (l b : Nat) (q : Quench) (es : List (Nat × Nat × W40)) (s : State) :
    (takeReport l b q es s).pending = s.pending := by simp only [takeReport, State.modBench_pending, setSkid_pending, reportAsync_pending, ite_pending, ite_self]
@[simp] theorem quenchReport_pending (l : Nat) (hdr : W40) (pay : List W40) (s : State) :
    (quenchReport l hdr pay s).pending = s.pending := by unfold quenchReport; dsimp only; (repeat' split) <;> (try simp only [frameError_pending, setSkid_pending, takeReport_pending])
@[simp] theorem windowCloses_pending (b : Nat) (s : State) :
    (windowCloses b s).pending = s.pending := by unfold windowCloses; (repeat' split) <;> (try simp only [advanceTo_pending, reportAsync_pending, endWindow_pending])
@[simp] theorem takeAck_pending (l : Nat) (req : BitVec 16) (st b : Nat) (s : State) :
    (takeAck l req st b s).pending = s.pending := by simp only [takeAck, State.setEl_pending, State.modBench_pending, ite_pending, ite_self]
@[simp] theorem ackFrame_pending (l : Nat) (hdr : W40) (s : State) :
    (ackFrame l hdr s).pending = s.pending := by simp only [ackFrame, frameError_pending, takeAck_pending, ite_pending, ite_self, foldl_pending, implies_true]

/-! ## Sequencer -/

@[simp] theorem sqConfigAct_pending (q : Nat) (v : W64) (s : State) :
    (sqConfigAct q v s).1.pending = s.pending := by simp only [sqConfigAct, writeShadowed_pending, ite_fst_pending, ite_self]
@[simp] theorem sqInputsAct_pending (e : Nat) (v : W64) (s : State) :
    (sqInputsAct e v s).1.pending = s.pending := by unfold sqInputsAct; dsimp only; (repeat' split) <;> (try simp only [writeShadowed_pending])
@[simp] theorem sqLevelAct_pending (e : Nat) (v : W64) (s : State) :
    (sqLevelAct e v s).1.pending = s.pending := by simp only [sqLevelAct, writeShadowed_pending, ite_fst_pending, ite_self]
@[simp] theorem sqActionAct_pending (e : Nat) (v : W64) (s : State) :
    (sqActionAct e v s).1.pending = s.pending := by simp only [sqActionAct, writeShadowed_pending, ite_fst_pending, ite_self]
@[simp] theorem sqCntConfigAct_pending (e : Nat) (v : W64) (s : State) :
    (sqCntConfigAct e v s).1.pending = s.pending := by unfold sqCntConfigAct; dsimp only; (repeat' split) <;> (try simp only [writeShadowed_pending])
@[simp] theorem holdoffSelAct_pending (b : Nat) (v : W64) (s : State) :
    (holdoffSelAct b v s).1.pending = s.pending := by unfold holdoffSelAct; (repeat' split) <;> (try simp only [writeShadowed_pending])
@[simp] theorem trigPulseAct_pending (n : Nat) (v : W64) (s : State) :
    (trigPulseAct n v s).1.pending = s.pending := by simp only [trigPulseAct, State.put_pending, ite_fst_pending, ite_self]
@[simp] theorem setCounters_pending (q : Nat) (cs : List Nat) (s : State) :
    (setCounters q cs s).pending = s.pending := by simp only [setCounters, State.setN_pending, foldl_pending, implies_true]
@[simp] theorem setMark_pending (q m : Nat) (r : Row) (s : State) :
    (setMark q m r s).pending = s.pending := by cases s; rfl
@[simp] theorem setLine_pending (k : Nat) (v : Bool) (t : Int) (s : State) :
    (setLine k v t s).pending = s.pending := by cases s; rfl
@[simp] theorem xsActions_pending (q : Nat) (a : W64) (t : Int) (s : State) :
    (xsActions q a t s).pending = s.pending := by simp only [xsActions, setLine_pending, ite_pending, ite_self, foldl_pending, implies_true]
@[simp] theorem doActions_pending (b q level : Nat) (r : Row) (a : W64) (s : State) :
    (doActions b q level r a s).2.pending = s.pending := by simp only [doActions, State.inc_pending, postEvent_pending, requestQuench_pending, setMark_pending, xsActions_pending, ite_pending, ite_snd_pending, ite_self]
@[simp] theorem sqStep_pending (b q : Nat) (r : Row) (s : State) :
    (sqStep b q r s).2.pending = s.pending := by unfold sqStep; dsimp only; (repeat' split) <;> (try simp only [State.setEl_pending, State.inc_pending, State.setSeqx_pending, setCounters_pending, doActions_pending])
@[simp] theorem clearLines_pending (q : Nat) (s : State) :
    (clearLines q s).pending = s.pending := by cases s; rfl
@[simp] theorem sqArm_pending (q : Nat) (s : State) :
    (sqArm q s).pending = s.pending := by cases s; rfl
@[simp] theorem sqStop_pending (q : Nat) (s : State) :
    (sqStop q s).pending = s.pending := by simp only [sqStop, State.setEl_pending]
@[simp] theorem stepBench_pending (b : Nat) (r : Row) (s : State) : (stepBench b r s).2.pending = s.pending := by
  unfold stepBench
  exact foldl_snd_pending _ _ _ (fun p q => sqStep_pending ..)

/-! ## Segment -/

@[simp] theorem State.modSeg_pending (s : State) (b : Nat) (f : Seg → Seg) :
    (State.modSeg s b f).pending = s.pending := by simp only [State.modSeg, State.modBench_pending]
@[simp] theorem State.setTrigState_pending (s : State) (b : Nat) (x : TrigState) :
    (State.setTrigState s b x).pending = s.pending := by simp only [State.setTrigState, State.setN_pending]
@[simp] theorem refreshGate_pending (b : Nat) (s : State) :
    (refreshGate b s).pending = s.pending := by simp only [refreshGate, State.setEl_pending]
@[simp] theorem takeTrigger_pending (b : Nat) (r : Row) (sq level rank : Nat) (engine : Bool) (post : W40) (s : State) :
    (takeTrigger b r sq level rank engine post s).2.pending = s.pending := by simp only [takeTrigger, State.modSeg_pending, State.setTrigState_pending, ite_snd_pending, ite_self]
@[simp] theorem takeResolve_pending (b : Nat) (r : Row) (sq level m : Nat) (mark : Option (W40 × Int)) (s : State) :
    (takeResolve b r sq level m mark s).2.pending = s.pending := by simp only [takeResolve, State.drawn_pending, State.modSeg_pending, ite_pending, ite_snd_pending, ite_self]
@[simp] theorem takeAct_pending (b : Nat) (r : Row) (lead : Nat × Nat) (post : W40) (a : Act) (s : State) :
    (takeAct b r lead post a s).2.pending = s.pending := by unfold takeAct; (repeat' split) <;> (try simp only [takeTrigger_pending, takeResolve_pending])
@[simp] theorem takeActs_pending (b : Nat) (r : Row) (lead : Nat × Nat) (post : W40) (l : List Act) (s : State) :
    (takeActs b r lead post l s).2.pending = s.pending := by
  induction l generalizing s with
  | nil => rfl
  | cons a t ih => rw [takeActs]; dsimp only; rw [ih, takeAct_pending]
@[simp] theorem takeStore_pending (b : Nat) (r : Row) (inside start : Bool) (acc : SlotRows) (s : State) :
    (takeStore b r inside start acc s).2.pending = s.pending := by simp only [takeStore, State.modSeg_pending, ite_snd_pending, ite_self]
@[simp] theorem takeStores_pending (b : Nat) (r : Row) (inside : Bool) (l : List Act) (acc : SlotRows) (s : State) :
    (takeStores b r inside l acc s).2.pending = s.pending := by
  induction l generalizing acc s with
  | nil => rfl
  | cons a t ih =>
    unfold takeStores; dsimp only; rw [ih]
    split <;> simp only [takeStore_pending]
@[simp] theorem openSegment_pending (b : Nat) (r : Row) (hist : List (Nat × W40 × Int)) (s : State) :
    (openSegment b r hist s).pending = s.pending := by cases s; rfl
@[simp] theorem closeSegment_pending (b : Nat) (r : Row) (lead : Nat × Nat) (hold : Nat × Nat) (s : State) :
    (closeSegment b r lead hold s).2.pending = s.pending := by simp only [closeSegment, State.setN_pending, State.modSeg_pending, State.setTrigState_pending, ite_snd_pending, ite_self]
@[simp] theorem holdoffRow_pending (b : Nat) (d : RowDec) (s : State) :
    (holdoffRow b d s).2.pending = s.pending := by simp only [holdoffRow, State.modSeg_pending, State.setTrigState_pending, ite_snd_pending, ite_self]
@[simp] theorem decideRow_pending (b : Nat) (d : RowDec) (before : SlotRows) (s : State) :
    (decideRow b d before s).2.pending = s.pending := by simp only [decideRow, State.modBench_pending, State.modSeg_pending, takeActs_pending, takeStores_pending, openSegment_pending, closeSegment_pending, holdoffRow_pending, ite_pending, ite_snd_pending, ite_self]
@[simp] theorem decideRows_pending (b : Nat) (l : List RowDec) (acc : SlotRows) (s : State) :
    (decideRows b l acc s).2.pending = s.pending := by
  induction l generalizing acc s with
  | nil => rfl
  | cons d t ih => rw [decideRows, ih, decideRow_pending]
@[simp] theorem decideSlot_pending (b : Nat) (ds : List RowDec) (s : State) :
    (decideSlot b ds s).pending = s.pending := by simp only [decideSlot, State.modBench_pending, State.modSeg_pending, refreshGate_pending, decideRows_pending, ite_pending, ite_self]
@[simp] theorem settleN_pending (b n : Nat) (s : State) : (settleN b n s).pending = s.pending := by
  induction n generalizing s with
  | zero => rfl
  | succ n ih =>
    rw [settleN]; split
    · rfl
    · rw [ih, decideSlot_pending, State.modBench_pending]
@[simp] theorem settle_pending (b : Nat) (s : State) :
    (settle b s).pending = s.pending := by simp only [settle, settleN_pending]

/-! ## Queues -/

@[simp] theorem qClaimAct_pending (b : Nat) (v : W64) (s : State) :
    (qClaimAct b v s).1.pending = s.pending := by simp only [qClaimAct, State.setN_pending, ite_fst_pending, ite_self]
@[simp] theorem qReleaseAct_pending (b : Nat) (v : W64) (s : State) :
    (qReleaseAct b v s).1.pending = s.pending := by simp only [qReleaseAct, freeQueue_pending, ite_fst_pending, ite_self]
@[simp] theorem qFlushAct_pending (q : Nat) (v : W64) (s : State) :
    (qFlushAct q v s).1.pending = s.pending := by simp only [qFlushAct, flushQueue_pending, ite_fst_pending, ite_self]
@[simp] theorem qResetAct_pending (q : Nat) (v : W64) (s : State) :
    (qResetAct q v s).1.pending = s.pending := by simp only [qResetAct, resetQueue_pending, ite_fst_pending, ite_self]
@[simp] theorem qPopAct_pending (q : Nat) (s : State) :
    (qPopAct q s).1.pending = s.pending := by unfold qPopAct; dsimp only; (repeat' split) <;> (try simp only [State.drawn_pending, State.setQueue_pending, releaseLink_pending, advIndex_pending])
@[simp] theorem resetStoreList_pending (stream : Nat) (s : State) :
    (resetStoreList stream s).pending = s.pending := by unfold resetStoreList; (try dsimp only); repeat' (first | rfl | (simp only [releaseLink_pending]; done) | split | (refine (foldl_pending _ _ _ ?_).trans ?_; intro _ _))
@[simp] theorem forceQueue_pending (q : Nat) (s : State) :
    (forceQueue q s).pending = s.pending := by simp only [forceQueue, faultBench_pending, resetQueue_pending]
@[simp] theorem pointerRecord_pending (q : Nat) (s : State) :
    (pointerRecord q s).pending = s.pending := by simp only [pointerRecord, raiseError_pending]
@[simp] theorem forceList_pending (stream : Nat) (s : State) :
    (forceList stream s).pending = s.pending := by simp only [forceList, faultBench_pending, raiseError_pending, resetStoreList_pending]
@[simp] theorem sweepDone_pending (q : Nat) (s : State) :
    (sweepDone q s).pending = s.pending := by simp only [sweepDone, State.modQueue_pending, advanceTo_pending, pointerRecord_pending, ite_pending, ite_self]
@[simp] theorem fenceBank_pending (k : Nat) (s : State) :
    (fenceBank k s).pending = s.pending := by simp only [fenceBank, State.setEl_pending, State.setN_pending, State.setMode_pending]
@[simp] theorem poolError_pending (k : Nat) (s : State) :
    (poolError k s).pending = s.pending := by simp only [poolError, raiseError_pending, forceQueue_pending, forceList_pending, fenceBank_pending, foldl_pending, implies_true]
@[simp] theorem discardDrains_pending (s : State) :
    (discardDrains s).pending = s.pending := by simp only [discardDrains, State.modQueue_pending, discardAll_pending, foldl_pending, implies_true]

/-! ## Planisher -/

@[simp] theorem State.setDirAt_pending (s : State) (b pos : Nat) (e : DirEntry) :
    (State.setDirAt s b pos e).pending = s.pending := by simp only [State.setDirAt, State.setDir_pending]
@[simp] theorem dropHand_pending (k : Nat) (s : State) :
    (dropHand k s).pending = s.pending := by unfold dropHand; (repeat' split) <;> (try simp only [State.modStream_pending, State.modQueue_pending, releaseLink_pending])
@[simp] theorem commitCell_pending (k : Nat) (s : State) :
    (commitCell k s).pending = s.pending := by unfold commitCell; dsimp only; (repeat' split) <;> (try simp only [State.inc_pending, State.setStream_pending, State.setPacket_pending, acceptReq_pending, noteQueue_pending, offerPacket_pending, State.setDirAt_pending])
@[simp] theorem appendWords_pending (k : Nat) (ws : List W40) (s : State) :
    (appendWords k ws s).pending = s.pending := by simp only [appendWords, State.modStream_pending, commitCell_pending, ite_pending, ite_self]
@[simp] theorem padCell_pending (k : Nat) (s : State) :
    (padCell k s).pending = s.pending := by simp only [padCell, appendWords_pending, ite_pending, ite_self]
theorem Put.andThen_pending (p : Put) (f : State → Put) (h : ∀ t, (f t).1.pending = t.pending) : (p.andThen f).1.pending = p.1.pending := by
  obtain ⟨s, c⟩ := p
  cases c with
  | none => exact h s
  | some c => rfl
@[simp] theorem takeHand_pending (k : Nat) (s : State) : (takeHand k s).1.pending = s.pending := by
  unfold takeHand
  split
  · rfl
  · split
    · rfl
    · split
      · exact State.modStream_pending ..
      · have h := allocPacket_pending { kind := .storeCell, bench := some (k / 16), cells := [], complete := false } .acquisition
          (k % 16) 4 s
        split <;> rename_i e <;> rw [e] at h
        · exact h
        · dsimp only
          split
          · rw [State.modStream_pending]; exact h
          · rw [noteQueue_pending, State.modStream_pending]; exact h
@[simp] theorem putOne_pending (k : Nat) (ws : List W40) (s : State) : (putOne k ws s).1.pending = s.pending := by
  unfold putOne
  split
  · exact appendWords_pending ..
  · rw [Put.andThen_pending _ _ (fun t => appendWords_pending k ws t), takeHand_pending, padCell_pending]
@[simp] theorem putVec_pending (k ty n g delta : Nat) (vals : List W40) (s : State) :
    (putVec k ty n g delta vals s).1.pending = s.pending := by
  induction n generalizing g delta vals s with
  | zero => rfl
  | succ n ih =>
    unfold putVec
    split
    · rfl
    · dsimp only
      split
      · rw [ih, appendWords_pending]
      · refine (Put.andThen_pending _ _ (fun t => ?_)).trans ?_
        · rw [ih, appendWords_pending]
        · rw [takeHand_pending, padCell_pending]
@[simp] theorem putRec_pending (k : Nat) (r : Rec) (s : State) : (putRec k r s).1.pending = s.pending := by
  unfold putRec; split
  · exact putOne_pending ..
  · exact putVec_pending ..
@[simp] theorem giveUp_pending (b seg : Nat) (s : State) :
    (giveUp b seg s).pending = s.pending := by cases s; rfl
@[simp] theorem leaveIngot_pending (k : Nat) (s : State) :
    (leaveIngot k s).pending = s.pending := by unfold leaveIngot; (repeat' split) <;> (try simp only [State.modStream_pending, State.setDirAt_pending])
@[simp] theorem openIngot_pending (k pos seg : Nat) (s : State) :
    (openIngot k pos seg s).pending = s.pending := by simp only [openIngot, State.setStream_pending, State.setDirAt_pending]
@[simp] theorem noSpace_pending (k : Nat) (s : State) :
    (noSpace k s).pending = s.pending := by cases s; rfl
@[simp] theorem chooseIngot_pending (k : Nat) (keep : Option Int) (n : Nat) (s : State) : (chooseIngot k keep n s).2.pending = s.pending := by
  induction n generalizing s with
  | zero => rfl
  | succ n ih =>
    unfold chooseIngot
    split
    · rfl
    · split
      · split
        · exact noSpace_pending ..
        · rw [ih, giveUp_pending]
      · rw [State.modStream_pending, State.modSeg_pending, noSpace_pending]
@[simp] theorem afterSync_pending (k d : Nat) (s : State) :
    (afterSync k d s).pending = s.pending := by simp only [afterSync, State.modStream_pending]
@[simp] theorem setCtx_pending (k d : Nat) (st : W40) (s : State) :
    (setCtx k d st s).pending = s.pending := by simp only [setCtx, State.modStream_pending]
@[simp] theorem groupValues_pending (k : Nat) (l : List Nat) (s : State) : (groupValues k l s).2.pending = s.pending := by
  induction l generalizing s with
  | nil => rfl
  | cons g t ih =>
    unfold groupValues; split
    · exact ih s
    · dsimp only; rw [ih, State.drawn_pending]
theorem putThen_pending (k : Nat) (r : Rec) (f : State → State) (s : State) (h : ∀ t, (f t).pending = t.pending) :
    (putThen k r f s).1.pending = s.pending := by
  rw [putThen, Put.andThen_pending _ _ h, putRec_pending]
theorem tryRec_pending (k : Nat) (r : Rec) (f : State → State) (s : State) (h : ∀ t, (f t).pending = t.pending) (p : Put)
    (e : tryRec k r f s = some p) : p.1.pending = s.pending := by
  unfold tryRec at e; split at e
  · cases e; exact putThen_pending _ _ _ _ h
  · cases e
theorem tryAll_pending (k : Nat) (l : List (State → Option (Rec × (State → State)))) (s : State)
    (h : ∀ m ∈ l, ∀ u r f, m u = some (r, f) → ∀ t, (f t).pending = t.pending) :
    (tryAll k l s).2.pending = s.pending ∧ ∀ p, (tryAll k l s).1 = some p → p.1.pending = s.pending := by
  induction l generalizing s with
  | nil => exact ⟨rfl, fun p e => by cases e; rfl⟩
  | cons m t ih =>
    have ht := fun u => ih u (fun m' hm => h m' (List.mem_cons_of_mem _ hm))
    unfold tryAll
    split
    · exact ht s
    · rename_i r f e
      have hf := h m List.mem_cons_self s r f e
      split
      · exact ⟨rfl, fun p e => by cases e⟩
      · rename_i s1 e1
        have h1 : s1.pending = s.pending := tryRec_pending k r f s hf _ e1
        exact ⟨((ht s1).1).trans h1, fun p e => ((ht s1).2 p e).trans h1⟩
      · rename_i s1 c e1
        have h1 : s1.pending = s.pending := tryRec_pending k r f s hf _ e1
        exact ⟨h1, fun p e => by cases e; exact h1⟩
theorem needCtx_pending (k d seg interval : Nat) (u : State) (r : Rec) (f : State → State)
    (e : needCtx k d seg interval u = some (r, f)) (t : State) : (f t).pending = t.pending := by
  unfold needCtx at e
  dsimp only at e
  split at e
  · cases e; exact afterSync_pending ..
  · split at e
    · cases e; exact State.modStream_pending ..
    · cases e
theorem needClock_pending (k d : Nat) (u : State) (r : Rec) (f : State → State)
    (e : needClock k d u = some (r, f)) (t : State) : (f t).pending = t.pending := by
  unfold needClock at e
  split at e
  · cases e; exact State.modStream_pending ..
  · cases e
theorem needDelta_pending (k d seg bits : Nat) (u : State) (r : Rec) (f : State → State)
    (e : needDelta k d seg bits u = some (r, f)) (t : State) : (f t).pending = t.pending := by
  unfold needDelta at e
  dsimp only at e
  split at e
  · cases e
  · split at e
    · cases e; exact setCtx_pending ..
    · cases e; exact afterSync_pending ..
@[simp] theorem ctxNow_pending (k d : Nat) (s : State) :
    (ctxNow k d s).pending = s.pending := by simp only [ctxNow, setCtx_pending]
@[simp] theorem snapRuns_pending (k d : Nat) (s : State) : (snapRuns k d s).2.pending = s.pending := groupValues_pending ..
theorem dataRecs_pending (k d seg : Nat) (full : Bool) (g : Nat) (vals : List W40) (m : State → Option (Rec × (State → State)))
    (h : m ∈ dataRecs k d seg full g vals) (u : State) (r : Rec) (f : State → State) (e : m u = some (r, f)) (t : State) :
    (f t).pending = t.pending := by
  simp only [dataRecs, List.mem_cons, List.not_mem_nil, or_false] at h
  obtain rfl | rfl | rfl := h
  · exact needClock_pending _ _ _ _ _ e t
  · exact needDelta_pending _ _ _ _ _ _ _ e t
  · cases e; exact ctxNow_pending ..
theorem itemRecs_pending (k dr seg interval : Nat) (it : Item) (m : State → Option (Rec × (State → State)))
    (h : m ∈ itemRecs k dr seg interval it) (u : State) (r : Rec) (f : State → State) (e : m u = some (r, f)) (t : State) :
    (f t).pending = t.pending := by
  cases it with
  | gap d c n q =>
    simp only [itemRecs, List.mem_cons, List.not_mem_nil, or_false] at h; subst h; cases e; rfl
  | resync d =>
    simp only [itemRecs, List.mem_cons, List.not_mem_nil, or_false] at h; subst h; cases e; exact afterSync_pending ..
  | snap d g vals => exact dataRecs_pending _ _ _ _ _ _ m h u r f e t
  | ctx d =>
    simp only [itemRecs, List.mem_cons, List.not_mem_nil, or_false] at h; subst h; exact needCtx_pending _ _ _ _ _ _ _ e t
  | data d full g vals => exact dataRecs_pending _ _ _ _ _ _ m h u r f e t
  | event ev =>
    simp only [itemRecs, List.mem_cons, List.not_mem_nil, or_false] at h
    obtain rfl | rfl | rfl := h
    · exact needCtx_pending _ _ _ _ _ _ _ e t
    · exact needDelta_pending _ _ _ _ _ _ _ e t
    · cases e; exact ctxNow_pending ..
  | ending reason =>
    simp only [itemRecs, List.mem_cons, List.not_mem_nil, or_false] at h; subst h; cases e; rfl
@[simp] theorem undo_pending (k cause : Nat) (s : State) :
    (undo k cause s).pending = s.pending := by simp only [undo, State.modStream_pending, refusedCell_pending, ite_pending, ite_self]
theorem startRecs_pending (k seg : Nat) (s : State) :
    (startRecs k seg s).2.pending = s.pending ∧
    ∀ m ∈ (startRecs k seg s).1, ∀ u r f, m u = some (r, f) → ∀ t, (f t).pending = t.pending := by
  unfold startRecs
  dsimp only
  split
  · refine ⟨rfl, fun m hm u r f e t => ?_⟩
    simp only [List.mem_cons, List.not_mem_nil, or_false] at hm; subst hm; cases e; exact State.modStream_pending ..
  · split
    · exact ⟨rfl, fun m hm => nomatch hm⟩
    · split
      · refine ⟨rfl, fun m hm u r f e t => ?_⟩
        simp only [List.mem_cons, List.not_mem_nil, or_false] at hm; subst hm; cases e
        rw [State.modStream_pending, afterSync_pending]
      · split
        · exact ⟨State.modStream_pending .., fun m hm => nomatch hm⟩
        · refine ⟨?_, fun m hm u r f e t => dataRecs_pending _ _ _ _ _ _ m hm u r f e t⟩
          rw [State.modStream_pending, groupValues_pending]
@[simp] theorem writeStarts_pending (k seg n : Nat) (s : State) : (writeStarts k seg n s).1.pending = s.pending := by
  induction n generalizing s with
  | zero => rfl
  | succ n ih =>
    have hs := startRecs_pending k seg s
    have ha := tryAll_pending k (startRecs k seg s).1 (startRecs k seg s).2 hs.2
    unfold writeStarts
    split
    · rfl
    · dsimp only
      split
      · rename_i t _ e; rw [e] at ha; rw [ih]; exact (ha.2 _ rfl).trans hs.1
      · exact undo_pending ..
      · rfl
@[simp] theorem startIngot_pending (k seg : Nat) (keep : Option Int) (s : State) : (startIngot k seg keep s).1.pending = s.pending := by
  unfold startIngot
  split
  · rfl
  · dsimp only
    split
    · rw [chooseIngot_pending, leaveIngot_pending, padCell_pending]
    · rw [writeStarts_pending, openIngot_pending, chooseIngot_pending, leaveIngot_pending, padCell_pending]
@[simp] theorem noteSpan_pending (k : Nat) (t : Int) (s : State) :
    (noteSpan k t s).pending = s.pending := by unfold noteSpan; (repeat' split) <;> (try simp only [State.modStream_pending])
@[simp] theorem writeHere_pending (k : Nat) (pr : PlanRow) (interval : Nat) (its : List Item) (s : State) :
    (writeHere k pr interval its s).2.1.pending = s.pending := by
  induction its generalizing s with
  | nil => rfl
  | cons it rest ih =>
    have ha := tryAll_pending k (itemRecs k pr.row.dclk pr.segment interval it) s
      (fun m hm u r f e t => itemRecs_pending k _ _ _ it m hm u r f e t)
    unfold writeHere
    split
    · rename_i t _ e; rw [e] at ha; rw [ih]; exact ha.2 _ rfl
    · rename_i t c _ e; rw [e] at ha; exact ha.2 _ rfl
    · rename_i t e; rw [e] at ha; exact ha.1
@[simp] theorem writeItems_pending (k : Nat) (pr : PlanRow) (interval n : Nat) (its : List Item) (s : State) :
    (writeItems k pr interval n its s).1.pending = s.pending := by
  induction n generalizing its s with
  | zero => rfl
  | succ n ih =>
    unfold writeItems
    dsimp only
    split
    · rw [noteSpan_pending, writeHere_pending]
    · rw [writeHere_pending]
    · refine (Put.andThen_pending _ _ (fun u => ih _ u)).trans ?_
      rw [startIngot_pending]
      split
      · rw [noteSpan_pending, writeHere_pending]
      · rw [writeHere_pending]
@[simp] theorem placeRow_pending (k : Nat) (pr : PlanRow) (interval : Nat) (its : List Item) (s : State) :
    (placeRow k pr interval its s).1.pending = s.pending := by
  unfold placeRow
  split
  · rfl
  · refine (Put.andThen_pending _ _ (fun t => ?_)).trans (writeStarts_pending ..)
    dsimp only
    split
    · exact writeItems_pending ..
    · split
      · dsimp only; split
        · rw [undo_pending, startIngot_pending]
        · exact startIngot_pending ..
      · exact undo_pending ..
@[simp] theorem keepWords_pending (k : Nat) (ws : List (Nat × Option W40)) (s : State) :
    (keepWords k ws s).pending = s.pending := by simp only [keepWords, State.modStream_pending]
@[simp] theorem noteGapped_pending (b seg : Nat) (s : State) :
    (noteGapped b seg s).pending = s.pending := by cases s; rfl
@[simp] theorem loseRow_pending (k : Nat) (pr : PlanRow) (cause events : Nat) (s : State) :
    (loseRow k pr cause events s).pending = s.pending := by simp only [loseRow, State.count_pending, State.inc_pending, State.modStream_pending, noteGapped_pending, ite_pending, ite_self]
@[simp] theorem growLaneGap_pending (k : Nat) (r : Row) (missing : List Nat) (s : State) :
    (growLaneGap k r missing s).pending = s.pending := by simp only [growLaneGap, State.modStream_pending]
@[simp] theorem dataItems_pending (k : Nat) (pr : PlanRow) (changed : List (Nat × W40)) (hidden : List Nat) (s : State) :
    (dataItems k pr changed hidden s).2.pending = s.pending := by simp only [dataItems, groupValues_pending]
@[simp] theorem laneGapItems_pending (k dr : Nat) (g : LaneGap) (s : State) : (laneGapItems k dr g s).2.pending = s.pending := by
  unfold laneGapItems; dsimp only; split
  · rfl
  · exact groupValues_pending ..
@[simp] theorem lostGapItems_pending (k : Nat) (g : Gap) (s : State) :
    (lostGapItems k g s).2.pending = s.pending := by simp only [lostGapItems, snapRuns_pending]
theorem gather_pending {α : Type} (f : α → State → List Item × State) (h : ∀ a s, (f a s).2.pending = s.pending) (l : List α) (s : State) :
    (gather f l s).2.pending = s.pending := by
  induction l generalizing s with
  | nil => rfl
  | cons a t ih => unfold gather; dsimp only; rw [ih, h]
@[simp] theorem finishRow_pending (k : Nat) (pr : PlanRow) (evs : List Event) (r : Put) : (finishRow k pr evs r).pending = r.1.pending := by
  unfold finishRow
  split
  · rw [State.modStream_pending]
  · rw [loseRow_pending]
@[simp] theorem storedRow_pending (k : Nat) (pr : PlanRow) (changed : List (Nat × W40)) (evs : List Event) (s : State) :
    (storedRow k pr changed evs s).pending = s.pending := by
  unfold storedRow
  dsimp only
  rw [finishRow_pending, placeRow_pending]
  split
  · rw [gather_pending _ (fun g u => laneGapItems_pending ..), gather_pending _ (fun g u => lostGapItems_pending ..)]
  · rw [dataItems_pending, gather_pending _ (fun g u => laneGapItems_pending ..), gather_pending _ (fun g u => lostGapItems_pending ..)]
@[simp] theorem unstoredRow_pending (k : Nat) (pr : PlanRow) (evs : List Event) (s : State) :
    (unstoredRow k pr evs s).pending = s.pending := by simp only [unstoredRow, placeRow_pending, finishRow_pending]
@[simp] theorem laneGapsOn_pending (k : Nat) (pr : PlanRow) (missing : List Nat) (off : Bool) (s : State) :
    (laneGapsOn k pr missing off s).pending = s.pending := by simp only [laneGapsOn, State.modStream_pending, growLaneGap_pending, ite_pending, ite_self]
@[simp] theorem reachRow_pending (k : Nat) (pr : PlanRow) (s : State) :
    (reachRow k pr s).pending = s.pending := by cases s; rfl
@[simp] theorem foreignRow_pending (k : Nat) (pr : PlanRow) (evs : List Event) (s0 : State) :
    (foreignRow k pr evs s0).pending = s0.pending := by simp only [foreignRow, placeRow_pending, laneGapItems_pending, gather_pending, finishRow_pending, unstoredRow_pending, laneGapsOn_pending, reachRow_pending, ite_pending, ite_self, implies_true]
@[simp] theorem streamRow_pending (k : Nat) (pr : PlanRow) (es : List Event) (s : State) :
    (streamRow k pr es s).pending = s.pending := by simp only [streamRow, State.modStream_pending, keepWords_pending, loseRow_pending, storedRow_pending, unstoredRow_pending, laneGapsOn_pending, reachRow_pending, foreignRow_pending, ite_pending, ite_self]
@[simp] theorem endStream_pending (k reason : Nat) (pr : PlanRow) (s : State) : (endStream k reason pr s).pending = s.pending := by
  unfold endStream; split
  · dsimp only; rw [State.setEl_pending, State.modStream_pending, placeRow_pending]
  · rfl
@[simp] theorem closeCell_pending (k : Nat) (s : State) :
    (closeCell k s).pending = s.pending := by simp only [closeCell, padCell_pending]
@[simp] theorem sealStream_pending (k seg : Nat) (start : Int) (s : State) :
    (sealStream k seg start s).pending = s.pending := by simp only [sealStream, State.setDirAt_pending, foldl_pending, implies_true]
@[simp] theorem writeEntry_pending (b seg : Nat) (e : SegEntry) (s : State) :
    (writeEntry b seg e s).pending = s.pending := by cases s; rfl
@[simp] theorem segmentClose_pending (b seg : Nat) (c : Closing) (reason : Nat) (s : State) :
    (segmentClose b seg c reason s).pending = s.pending := by simp only [segmentClose, State.modStream_pending, sealStream_pending, writeEntry_pending, ite_pending, ite_self, foldl_pending, implies_true]
@[simp] theorem endForSpace_pending (b seg : Nat) (pr : PlanRow) (s : State) :
    (endForSpace b seg pr s).pending = s.pending := by simp only [endForSpace, State.setN_pending, State.modBench_pending, State.setTrigState_pending, endStream_pending, ite_pending, ite_self, foldl_pending, implies_true]
@[simp] theorem snapAll_pending (k : Nat) (s : State) :
    (snapAll k s).pending = s.pending := by simp only [snapAll, State.modStream_pending]
@[simp] theorem planRow_pending (b : Nat) (pr : PlanRow) (s : State) :
    (planRow b pr s).pending = s.pending := by unfold planRow; (repeat' split) <;> (try simp only [State.modBench_pending, streamRow_pending, endStream_pending, segmentClose_pending, endForSpace_pending, snapAll_pending, ite_pending, ite_self, foldl_pending, implies_true])
@[simp] theorem planNext_pending (b : Nat) (s : State) :
    (planNext b s).pending = s.pending := by unfold planNext; (repeat' split) <;> (try simp only [State.modBench_pending, planRow_pending])
@[simp] theorem planAll_pending (b n : Nat) (s : State) : (planAll b n s).pending = s.pending := by
  induction n generalizing s with
  | zero => rfl
  | succ n ih =>
    rw [planAll]; split
    · rfl
    · rw [ih, planNext_pending]

/-! ## Journal -/

@[simp] theorem refreshMig_pending (s : State) :
    (refreshMig s).pending = s.pending := by unfold refreshMig; (repeat' split) <;> (try simp only [State.setEl_pending])
@[simp] theorem checkpointSealed_pending (src tgt chunks : Nat) (s : State) : (checkpointSealed src tgt chunks s).pending = s.pending := by
  have h (t : State) (m : Option Mig) : ({ t with mig := m } : State).pending = t.pending := by cases t; rfl
  unfold checkpointSealed
  split
  · rfl
  · split
    · dsimp only
      split
      · rw [journalAdd_pending, refreshMig_pending, h]
      · rw [refreshMig_pending, h]
    · rfl
@[simp] theorem sealEffect_pending (e : JEntry) (s : State) : (sealEffect e s).pending = s.pending := by
  unfold sealEffect
  split
  · cases s; rfl
  · dsimp only
    split
    · rw [State.setN_pending, State.setN_pending]
    · rw [State.setN_pending]
  · exact checkpointSealed_pending ..
  · rfl
@[simp] theorem sealFirst_pending (s : State) :
    (sealFirst s).pending = s.pending := by unfold sealFirst; (repeat' split) <;> (try simp only [State.setEl_pending, refreshJournal_pending, sealEffect_pending])
@[simp] theorem sealAll_pending (n : Nat) (s : State) : (sealAll n s).pending = s.pending := by
  induction n generalizing s with
  | zero => rfl
  | succ n ih =>
    rw [sealAll]; split
    · rfl
    · rw [ih, sealFirst_pending]
@[simp] theorem programOver_pending (s : State) :
    (programOver s).pending = s.pending := by simp only [programOver, enterSafe_pending, ite_pending, ite_self]
@[simp] theorem journalSealed_pending (s : State) :
    (journalSealed s).pending = s.pending := by simp only [journalSealed, sealFirst_pending, programOver_pending, ite_pending, ite_self]
@[simp] theorem blockRetired_pending (bad : Bool) (s : State) :
    (blockRetired bad s).pending = s.pending := by simp only [blockRetired, raiseError_pending, ite_pending, ite_self]
@[simp] theorem contentProgram_pending (s : State) :
    (contentProgram s).pending = s.pending := by simp only [contentProgram, State.drawn_pending, programOver_pending, blockRetired_pending, ite_pending, ite_self]

/-! ## Ranks -/

@[simp] theorem refreshStore_pending (s : State) :
    (refreshStore s).pending = s.pending := by simp only [refreshStore, State.setN_pending]
@[simp] theorem startMig_pending (src tgt : Nat) (s : State) :
    (startMig src tgt s).pending = s.pending := by simp only [startMig, State.setN_pending, State.setRank_pending, State.setMode_pending, toService_pending, refreshMig_pending]
@[simp] theorem noSpare_pending (r : Nat) (s : State) :
    (noSpare r s).pending = s.pending := by simp only [noSpare, State.setN_pending, State.setRank_pending, State.setMode_pending, raiseError_pending]
@[simp] theorem beginRetire_pending (r : Nat) (s : State) :
    (beginRetire r s).pending = s.pending := by unfold beginRetire; (repeat' split) <;> (try simp only [startMig_pending, noSpare_pending])
@[simp] theorem targetLost_pending (m : Mig) (s : State) :
    (targetLost m s).pending = s.pending := by simp only [targetLost, State.setN_pending, State.setRank_pending, State.setMode_pending, refreshMig_pending, beginRetire_pending, ite_pending, ite_self]
@[simp] theorem nextRetire_pending (s : State) :
    (nextRetire s).pending = s.pending := by unfold nextRetire; (repeat' split) <;> (try simp only [beginRetire_pending, targetLost_pending])
@[simp] theorem retireRank_pending (r : Nat) (s : State) :
    (retireRank r s).pending = s.pending := by unfold retireRank; (repeat' split) <;> (try simp only [State.setRank_pending, nextRetire_pending])
@[simp] theorem migDone_pending (m : Mig) (s : State) :
    (migDone m s).pending = s.pending := by simp only [migDone, State.setN_pending, State.setMode_pending, raiseError_pending, State.setHomeRanks_pending, refreshMig_pending, nextRetire_pending, foldl_pending, implies_true]
@[simp] theorem checkpoint_pending (m : Mig) (s : State) :
    (checkpoint m s).pending = s.pending := by simp only [checkpoint, journalAdd_pending, ite_pending, ite_self]
@[simp] theorem chunkCopied_pending (m : Mig) (s : State) :
    (chunkCopied m s).pending = s.pending := by simp only [chunkCopied, State.setMode_pending, refreshMig_pending, migDone_pending, checkpoint_pending, ite_pending, ite_self]
@[simp] theorem rankRetireAct_pending (v : W64) (s : State) :
    (rankRetireAct v s).1.pending = s.pending := by unfold rankRetireAct; (repeat' split) <;> (try simp only [retireRank_pending])
@[simp] theorem allSelfRefresh_pending (v : Bool) (s : State) :
    (allSelfRefresh v s).pending = s.pending := by simp only [allSelfRefresh, State.setRank_pending, foldl_pending, implies_true]
@[simp] theorem storeSpeedAct_pending (v : W64) (s : State) :
    (storeSpeedAct v s).1.pending = s.pending := by simp only [storeSpeedAct, State.put_pending, refreshStore_pending, allSelfRefresh_pending, ite_fst_pending, ite_self]
@[simp] theorem speedDone_pending (s : State) :
    (speedDone s).pending = s.pending := by simp only [speedDone, refreshStore_pending, allSelfRefresh_pending, ite_pending, ite_self]
@[simp] theorem loadDelays_pending (s : State) :
    (loadDelays s).pending = s.pending := by simp only [loadDelays, State.setEl_pending, State.drawn_pending, State.setChan_pending, refreshStore_pending, foldl_pending, implies_true]
@[simp] theorem delayLoadAct_pending (s : State) :
    (delayLoadAct s).1.pending = s.pending := by simp only [delayLoadAct, loadDelays_pending]
@[simp] theorem bandChange_pending (stack band : Nat) (s : State) :
    (bandChange stack band s).pending = s.pending := by simp only [bandChange, State.setChan_pending, ite_pending, ite_self, foldl_pending, implies_true]

/-! ## Golden -/

@[simp] theorem setAeCause_pending (a cause cell : Nat) (s : State) :
    (setAeCause a cause cell s).pending = s.pending := by simp only [setAeCause, State.setEl_pending]
@[simp] theorem trimAhead_pending (a lo : Nat) (s : State) :
    (trimAhead a lo s).pending = s.pending := by simp only [trimAhead, State.modEngine_pending, releaseLink_pending, foldl_pending, implies_true]
@[simp] theorem dropAhead_pending (a : Nat) (s : State) :
    (dropAhead a s).pending = s.pending := by unfold dropAhead; (try dsimp only); repeat' (first | rfl | (simp only [releaseLink_pending, trimAhead_pending]; done) | split | (refine (foldl_pending _ _ _ ?_).trans ?_; intro _ _))
@[simp] theorem finishEngine_pending (a : Nat) (failed : Bool) (s : State) :
    (finishEngine a failed s).pending = s.pending := by simp only [finishEngine, State.setN_pending, State.modEngine_pending, dropAhead_pending]

/-! ## Store -/

@[simp] theorem State.setRowTab_pending (s : State) (k : Nat) (t : List (Nat × Nat)) :
    (State.setRowTab s k t).pending = s.pending := by cases s; rfl
@[simp] theorem activateRows_pending (l : List (Nat × Nat)) (s : State) :
    (activateRows l s).pending = s.pending := by cases s; rfl
@[simp] theorem accessAt_pending (write : Bool) (c bk row : Nat) (s : State) (r : Nat) :
    (accessAt write c bk row s r).pending = s.pending := by cases s; rfl
@[simp] theorem accessRank_pending (write : Bool) (ingot cell : Nat) (s : State) (r : Nat) :
    (accessRank write ingot cell s r).pending = s.pending := by cases s; rfl
@[simp] theorem jobAccesses_pending (ranks : List Nat) (rows : List (Nat × Nat)) (s : State) :
    (jobAccesses ranks rows s).pending = s.pending := by cases s; rfl
@[simp] theorem correctedAt_pending (r bench : Nat) (detail : W64) (s : State) :
    (correctedAt r bench detail s).pending = s.pending := by simp only [correctedAt, State.inc_pending, State.setRank_pending, raiseError_pending, retireRank_pending, ite_pending, ite_self]
@[simp] theorem correctedError_pending (r ingot cell : Nat) (s : State) :
    (correctedError r ingot cell s).pending = s.pending := by simp only [correctedError, correctedAt_pending]
@[simp] theorem freezeAt_pending (r bench : Nat) (s : State) :
    (freezeAt r bench s).pending = s.pending := by simp only [freezeAt, State.drawn_pending, enterRecovery_pending, raiseError_pending, refreshStore_pending]
@[simp] theorem writeBackCell_pending (ingot cell : Nat) (s : State) :
    (writeBackCell ingot cell s).pending = s.pending := by simp only [writeBackCell, poisonCell_pending, accessRank_pending, foldl_pending, implies_true]
@[simp] theorem uncorrectableError_pending (r ingot cell : Nat) (s : State) :
    (uncorrectableError r ingot cell s).pending = s.pending := by simp only [uncorrectableError, State.inc_pending, raiseError_pending, retireRank_pending, freezeAt_pending, writeBackCell_pending, ite_pending, ite_self]
@[simp] theorem garble_pending (ingot cell burst : Nat) (s : State) :
    (garble ingot cell burst s).pending = s.pending := by simp only [garble, State.drawn_pending, State.writeBytes_pending, foldl_pending, implies_true]
@[simp] theorem burstError_pending (r ingot cell : Nat) (s : State) (p : Nat × Nat) :
    (burstError r ingot cell s p).pending = s.pending := by simp only [burstError, correctedError_pending, uncorrectableError_pending, garble_pending, ite_pending, ite_self]
@[simp] theorem readErrors_pending (r ingot cell : Nat) (errs : List Nat) (s : State) :
    (readErrors r ingot cell errs s).pending = s.pending := by simp only [readErrors, burstError_pending, ite_pending, ite_self, foldl_pending, implies_true]
@[simp] theorem reserveAccess_pending (c r : Nat) (errs : List Nat) (s : State) :
    (reserveAccess c r errs s).pending = s.pending := by simp only [reserveAccess, State.inc_pending, State.drawn_pending, enterRecovery_pending, raiseError_pending, accessAt_pending, correctedAt_pending, ite_pending, ite_self, foldl_pending, implies_true]
@[simp] theorem State.dropReq_pending (s : State) (i : Nat) :
    (State.dropReq s i).pending = s.pending := by cases s; rfl
@[simp] theorem fetchCell_pending (ingot cell : Nat) (errs : List Nat) (s : State) :
    (fetchCell ingot cell errs s).pending = s.pending := by simp only [fetchCell, accessRank_pending, readErrors_pending]
@[simp] theorem storeCell_pending (ingot cell : Nat) (bs : List Byte) (s : State) :
    (storeCell ingot cell bs s).pending = s.pending := by simp only [storeCell, writeCell_pending, accessRank_pending, foldl_pending, implies_true]
@[simp] theorem mergeStaged_pending (ingot cell : Nat) (bs : List (Nat × Byte)) (errs : List Nat) (s : State) :
    (mergeStaged ingot cell bs errs s).pending = s.pending := by simp only [mergeStaged, readCell_pending, mergeCell_pending, accessRank_pending, fetchCell_pending, ite_pending, ite_self, foldl_pending, implies_true]
@[simp] theorem goldArrives_pending (r : StoreReq) (a pkt : Nat) (s : State) :
    (goldArrives r a pkt s).pending = s.pending := by simp only [goldArrives, State.modEngine_pending, State.setPacket_pending, readCell_pending, finishEngine_pending, ite_pending, ite_self]
@[simp] theorem scrubCells_pending (ingot : Nat) (s : State) :
    (scrubCells ingot s).pending = s.pending := by cases s; rfl
@[simp] theorem performReq_pending (i : Nat) (errs : List Nat) (s : State) :
    (performReq i errs s).pending = s.pending := by unfold performReq; (repeat' split) <;> (try simp only [releaseLink_pending, State.dropReq_pending, fetchCell_pending, storeCell_pending, mergeStaged_pending, goldArrives_pending, scrubCells_pending, ite_pending, ite_self])
@[simp] theorem cellAccess_pending (c : Nat) (x : CellAccess) (s : State) :
    (cellAccess c x s).pending = s.pending := by unfold cellAccess; dsimp only; (repeat' split) <;> (try simp only [advanceTo_pending, toService_pending, refreshStore_pending, reserveAccess_pending, performReq_pending])
@[simp] theorem refreshBank_pending (c bk : Nat) (s : State) :
    (refreshBank c bk s).pending = s.pending := by simp only [refreshBank, State.setChan_pending, State.setRowTab_pending]
@[simp] theorem poisonClearAct_pending (s : State) :
    (poisonClearAct s).1.pending = s.pending := by unfold poisonClearAct; (try dsimp only); repeat' (first | rfl | (simp only [State.clearEls_pending]; done) | split | (refine (foldl_pending _ _ _ ?_).trans ?_; intro _ _))
@[simp] theorem commitStage_pending (f : Nat) (s : State) :
    (commitStage f s).pending = s.pending := by unfold commitStage; (repeat' split) <;> (try simp only [State.setStage_pending, acceptReq_pending])
@[simp] theorem commitStages_pending (cells : Nat → Nat → Bool) (s : State) :
    (commitStages cells s).pending = s.pending := by simp only [commitStages, commitStage_pending, foldl_pending, implies_true]
@[simp] theorem performDue_pending (i : Nat) (s : State) :
    (performDue i s).pending = s.pending := by simp only [performDue, State.drawn_pending, performReq_pending, ite_pending, ite_self]
@[simp] theorem drainWrites_pending (pick : StoreReq → Bool) (n : Nat) (s : State) : (drainWrites pick n s).pending = s.pending := by
  induction n generalizing s with
  | zero => rfl
  | succ n ih =>
    rw [drainWrites]; split
    · rfl
    · rw [ih, performDue_pending]
@[simp] theorem settleIngot_pending (ingot : Nat) (s : State) :
    (settleIngot ingot s).pending = s.pending := by simp only [settleIngot, drainWrites_pending]
@[simp] theorem settleCells_pending (cells : Nat → Nat → Bool) (s : State) :
    (settleCells cells s).pending = s.pending := by simp only [settleCells, commitStages_pending, drainWrites_pending, settleIngot_pending, foldl_pending, implies_true]
@[simp] theorem settleCell_pending (ingot cell : Nat) (s : State) :
    (settleCell ingot cell s).pending = s.pending := by simp only [settleCell, settleCells_pending]
@[simp] theorem copyRead_pending (m : Mig) (errs : List (Nat × Nat × List Nat)) (s : State) :
    (copyRead m errs s).pending = s.pending := by simp only [copyRead, notePoison_pending, readErrors_pending, settleCells_pending, ite_pending, ite_self, foldl_pending, implies_true]
@[simp] theorem targetFails_pending (m : Mig) (s : State) :
    (targetFails m s).pending = s.pending := by simp only [targetFails, State.inc_pending, State.drawn_pending, raiseError_pending, refreshStore_pending, targetLost_pending, freezeAt_pending, ite_pending, ite_self]
@[simp] theorem migStep_pending (x : ChunkCopy) (s : State) :
    (migStep x s).pending = s.pending := by unfold migStep; (repeat' split) <;> (try simp only [refreshStore_pending, chunkCopied_pending, jobAccesses_pending, copyRead_pending, targetFails_pending, ite_pending, ite_self])

/-! ## Assay -/

@[simp] theorem freshIngot_pending (b pos : Nat) (s : State) :
    (freshIngot b pos s).pending = s.pending := by unfold freshIngot; (repeat' split) <;> (try simp only [State.setDir_pending, acceptReq_pending, refreshStore_pending, commitStages_pending, settleIngot_pending, ite_pending, ite_self])
@[simp] theorem goldIngotsAct_pending (b : Nat) (v : W64) (s : State) :
    (goldIngotsAct b v s).1.pending = s.pending := by simp only [goldIngotsAct, State.put_pending, State.setN_pending, State.setDir_pending, State.modEngine_pending, freshIngot_pending, ite_fst_pending, ite_self, foldl_pending, implies_true]
@[simp] theorem goldSealAct_pending (a : Nat) (v : W64) (s : State) :
    (goldSealAct a v s).1.pending = s.pending := by simp only [goldSealAct, State.setN_pending, toService_pending, ite_fst_pending, ite_self]
@[simp] theorem sealRead_pending (a : Nat) (errs : List (Nat × List Nat)) (s : State) :
    (sealRead a errs s).pending = s.pending := by unfold sealRead; (try dsimp only); repeat' (first | rfl | (simp only [readCell_pending, readErrors_pending, foldl_pending, implies_true]; done) | split | (refine (foldl_pending _ _ _ ?_).trans ?_; intro _ _))
@[simp] theorem judgeTrace_pending (a : Nat) (s : State) :
    (judgeTrace a s).pending = s.pending := by unfold judgeTrace; (repeat' split) <;> (try simp only [State.setN_pending, State.modEngine_pending, setAeCause_pending])
@[simp] theorem sealTraced_pending (a : Nat) (errs : List (Nat × List Nat)) (s : State) :
    (sealTraced a errs s).pending = s.pending := by simp only [sealTraced, settleCells_pending, sealRead_pending]
@[simp] theorem sealDone_pending (a : Nat) (errs : List (Nat × List Nat)) (s : State) :
    (sealDone a errs s).pending = s.pending := by simp only [sealDone, refreshStore_pending, judgeTrace_pending, sealTraced_pending, ite_pending, ite_self]
@[simp] theorem unsealTrace_pending (a : Nat) (s : State) :
    (unsealTrace a s).pending = s.pending := by simp only [unsealTrace, State.setN_pending, ite_pending, ite_self]
@[simp] theorem unsealCell_pending (b pos cell : Nat) (s : State) :
    (unsealCell b pos cell s).pending = s.pending := by simp only [unsealCell, unsealTrace_pending, ite_pending, ite_self, foldl_pending, implies_true]
@[simp] theorem aeSetAct_pending (o : ObjInfo) (a e : Nat) (v : W64) (s : State) :
    (aeSetAct o a e v s).1.pending = s.pending := by simp only [aeSetAct, State.put_pending, ite_fst_pending, ite_self]
@[simp] theorem aeTraceAct_pending (o : ObjInfo) (a e : Nat) (v : W64) (s : State) :
    (aeTraceAct o a e v s).1.pending = s.pending := by simp only [aeTraceAct, State.put_pending, unsealTrace_pending, ite_fst_pending, ite_self]
@[simp] theorem aeConfigAct_pending (a : Nat) (v : W64) (s : State) :
    (aeConfigAct a v s).1.pending = s.pending := by simp only [aeConfigAct, aeSetAct_pending, ite_fst_pending, ite_self]
@[simp] theorem aeListAct_pending (e : Nat) (v : W64) (s : State) :
    (aeListAct e v s).1.pending = s.pending := by simp only [aeListAct, aeTraceAct_pending, ite_fst_pending, ite_self]
@[simp] theorem goldFirstAct_pending (a : Nat) (v : W64) (s : State) :
    (goldFirstAct a v s).1.pending = s.pending := by simp only [goldFirstAct, aeTraceAct_pending, ite_fst_pending, ite_self]
@[simp] theorem goldCellsAct_pending (a : Nat) (v : W64) (s : State) :
    (goldCellsAct a v s).1.pending = s.pending := by simp only [goldCellsAct, aeTraceAct_pending, ite_fst_pending, ite_self]
@[simp] theorem aeArm_pending (a : Nat) (s : State) :
    (aeArm a s).pending = s.pending := by unfold aeArm; (try dsimp only); repeat' (first | rfl | (simp only [State.setEl_pending, State.setN_pending, State.clearEls_pending, State.setEngine_pending, dropAhead_pending, ite_pending, ite_self, foldl_pending, implies_true]; done) | split | (refine (foldl_pending _ _ _ ?_).trans ?_; intro _ _))
@[simp] theorem stopEngine_pending (a : Nat) (s : State) :
    (stopEngine a s).pending = s.pending := by simp only [stopEngine, State.setN_pending, State.modEngine_pending, dropAhead_pending, ite_pending, ite_self]
@[simp] theorem stopEngines_pending (b : Nat) (s : State) :
    (stopEngines b s).pending = s.pending := by simp only [stopEngines, stopEngine_pending, foldl_pending, implies_true]
@[simp] theorem addActs_pending (b a : Nat) (r : Row) (acts : List Act) (s : State) :
    (addActs b a r acts s).pending = s.pending := by simp only [addActs, State.modBench_pending]
@[simp] theorem abortEngine_pending (b a cause cell : Nat) (r : Row) (s : State) :
    (abortEngine b a cause cell r s).pending = s.pending := by simp only [abortEngine, State.setN_pending, State.modEngine_pending, raiseError_pending, setAeCause_pending, dropAhead_pending, addActs_pending]
@[simp] theorem writeReport_pending (k : Nat) (l : List W64) (s : State) : (writeReport k l s).pending = s.pending := by
  induction l generalizing k s with
  | nil => rfl
  | cons w t ih => rw [writeReport, ih, State.setEl_pending]
@[simp] theorem giveVerdict_pending (b a : Nat) (r : Row) (e : Engine) (ps : List Probe) (s : State) :
    (giveVerdict b a r e ps s).pending = s.pending := by unfold giveVerdict; (try dsimp only); repeat' (first | rfl | (simp only [requestQuench_pending, addActs_pending, writeReport_pending, ite_snd_pending, ite_self]; done) | split | (refine (foldl_pending _ _ _ ?_).trans ?_; intro _ _))
@[simp] theorem compareRow_pending (b a : Nat) (r : Row) (e : Engine) (words : Nat) (s : State) :
    (compareRow b a r e words s).pending = s.pending := by simp only [compareRow, State.setEl_pending, State.count_pending, State.inc_pending, State.setEngine_pending, State.modEngine_pending, trimAhead_pending, abortEngine_pending, giveVerdict_pending, finishEngine_pending, ite_pending, ite_self]
@[simp] theorem countGap_pending (a rows : Nat) (s : State) :
    (countGap a rows s).pending = s.pending := by cases s; rfl
@[simp] theorem engineRow_pending (b a : Nat) (r : Row) (k : Nat) (s : State) :
    (engineRow b a r k s).pending = s.pending := by unfold engineRow; dsimp only; (repeat' split) <;> (try simp only [State.setN_pending, finishEngine_pending, abortEngine_pending, compareRow_pending, countGap_pending])
@[simp] theorem assayCompare_pending (a : Nat) (inHand : Bool) (s : State) :
    (assayCompare a inHand s).pending = s.pending := by unfold assayCompare; dsimp only; (repeat' split) <;> (try simp only [State.modEngine_pending, settle_pending, abortEngine_pending, countGap_pending, engineRow_pending])

/-! ## Ends -/

@[simp] theorem endCommit_pending (b : Nat) (s : State) :
    (endCommit b s).pending = s.pending := by simp only [endCommit, State.setEl_pending, State.modBench_pending, ite_pending, ite_self]
@[simp] theorem endShadows_pending (b : Nat) (s : State) :
    (endShadows b s).pending = s.pending := by simp only [endShadows, refreshDirty_pending, applyCopies_pending]
@[simp] theorem pendingGaps_pending (k : Nat) (s : State) : (pendingGaps k s).2.pending = s.pending :=
  gather_pending _ (fun g s => lostGapItems_pending ..) _ _
@[simp] theorem finishStream_pending (seg record : Nat) (gaps : Bool) (lead : Nat × Nat) (es : List Event) (row : Option RowKey) (s0 : State) (k : Nat) :
    (finishStream seg record gaps lead es row s0 k).pending = s0.pending := by
  unfold finishStream
  split
  · rfl
  · have hg (t : State) : (if gaps then pendingGaps k t else ([], t)).2.pending = t.pending := by
      split
      · exact pendingGaps_pending ..
      · rfl
    have hr (c : Bool) (pr : PlanRow) : (if c then s0 else reachRow k pr s0).pending = s0.pending := by
      split
      · rfl
      · exact reachRow_pending ..
    dsimp only
    rw [endStream_pending]
    split
    · rw [placeRow_pending, hg, hr]
    · rw [State.count_pending, placeRow_pending, hg, hr]
@[simp] theorem endSegment_pending (b reason : Nat) (s : State) : (endSegment b reason s).pending = s.pending := by
  unfold endSegment
  split
  · exact segmentClose_pending ..
  · rfl
@[simp] theorem finishStreams_pending (b record reason : Nat) (gaps : Bool) (row : Option RowKey) (s : State) :
    (finishStreams b record reason gaps row s).pending = s.pending := by
  unfold finishStreams
  rw [endSegment_pending, foldl_pending _ _ _ (fun t k => finishStream_pending ..), planAll_pending, settle_pending, stopEngines_pending]
@[simp] theorem endAcquisition_pending (b record reason cause : Nat) (gaps commitCells : Bool) (row : Option RowKey) (next : BenchState) (s : State) :
    (endAcquisition b record reason cause gaps commitCells row next s).pending = s.pending := by simp only [endAcquisition, State.setN_pending, State.modBench_pending, State.setBenchState_pending, clearForeign_pending, clearPins_pending, sqStop_pending, State.setTrigState_pending, refreshGate_pending, closeCell_pending, endCommit_pending, endShadows_pending, finishStreams_pending, ite_pending, ite_self, foldl_pending, implies_true]
@[simp] theorem disarmBench_pending (b : Nat) (s : State) :
    (disarmBench b s).pending = s.pending := by simp only [disarmBench, endAcquisition_pending]
@[simp] theorem quiesceBench_pending (b : Nat) (s : State) :
    (quiesceBench b s).pending = s.pending := by simp only [quiesceBench, endAcquisition_pending]
@[simp] theorem benchFaults_pending (b : Nat) (cause : FaultCause) (row : Option RowKey) (s : State) :
    (benchFaults b cause row s).pending = s.pending := by simp only [benchFaults, State.setEl_pending, raiseError_pending, endAcquisition_pending]
@[simp] theorem faultAtRow_pending (b : Nat) (row : RowKey) (s : State) :
    (faultAtRow b row s).pending = s.pending := by unfold faultAtRow; (repeat' split) <;> (try simp only [benchFaults_pending])
@[simp] theorem quiesceAfterRow_pending (b : Nat) (s : State) :
    (quiesceAfterRow b s).pending = s.pending := by simp only [quiesceAfterRow, quiesceBench_pending, ite_pending, ite_self]
@[simp] theorem disarmNow_pending (b : Nat) (s : State) :
    (disarmNow b s).pending = s.pending := by unfold disarmNow; (repeat' split) <;> (try simp only [disarmBench_pending, benchFaults_pending])

/-! ## Locks -/

@[simp] theorem beginDraft_pending (princ : Nat) (s : State) :
    (beginDraft princ s).pending = s.pending := by simp only [beginDraft, setPropStatus_pending]
@[simp] theorem lockRefuse_pending (k : Nat) (st : Status) (s : State) :
    (lockRefuse k st s).1.pending = s.pending := by simp only [lockRefuse, propRefuse_pending, ite_fst_pending, ite_self]
@[simp] theorem voidProposal_pending (cause : Nat) (s : State) :
    (voidProposal cause s).pending = s.pending := by simp only [voidProposal, setPropState_pending, ite_pending, ite_self]
@[simp] theorem startLease_pending (k lease : Nat) (s : State) :
    (startLease k lease s).pending = s.pending := by simp only [startLease, State.setLock_pending]
@[simp] theorem renewLease_pending (k lease : Nat) (s : State) :
    (renewLease k lease s).pending = s.pending := by cases s; rfl
@[simp] theorem takeLock_pending (k lease : Nat) (who : Nat × Nat) (s : State) :
    (takeLock k lease who s).pending = s.pending := by simp only [takeLock, State.setEl_pending, startLease_pending]
@[simp] theorem freeLock_pending (k : Nat) (broken : Bool) (s : State) :
    (freeLock k broken s).pending = s.pending := by simp only [freeLock, State.setEl_pending, State.setLock_pending]
@[simp] theorem breakLock_pending (cause k : Nat) (s : State) :
    (breakLock cause k s).pending = s.pending := by simp only [breakLock, voidProposal_pending, freeLock_pending, ite_pending, ite_self]
@[simp] theorem breakLocksOf_pending (who : Nat × Nat) (s : State) :
    (breakLocksOf who s).pending = s.pending := by simp only [breakLocksOf, breakLock_pending, foldl_pending, implies_true]
@[simp] theorem breakAllLocks_pending (s : State) :
    (breakAllLocks s).pending = s.pending := by simp only [breakAllLocks, breakLock_pending, foldl_pending, implies_true]
@[simp] theorem lockAcquireAct_pending (via : Via) (k : Nat) (v : W64) (s : State) :
    (lockAcquireAct via k v s).1.pending = s.pending := by simp only [lockAcquireAct, beginDraft_pending, lockRefuse_pending, renewLease_pending, takeLock_pending, ite_pending, ite_fst_pending, ite_self]
@[simp] theorem cancelLapsed_pending (s : State) :
    (cancelLapsed s).pending = s.pending := by simp only [cancelLapsed, setPropState_pending, ite_pending, ite_self]
@[simp] theorem lockReleaseAct_pending (via : Via) (k : Nat) (s : State) :
    (lockReleaseAct via k s).1.pending = s.pending := by simp only [lockReleaseAct, voidProposal_pending, freeLock_pending, cancelLapsed_pending, ite_pending, ite_fst_pending, ite_self]
@[simp] theorem lockRenewAct_pending (via : Via) (k : Nat) (s : State) :
    (lockRenewAct via k s).1.pending = s.pending := by simp only [lockRenewAct, renewLease_pending, ite_fst_pending, ite_self]
@[simp] theorem lockBreakAct_pending (k : Nat) (s : State) :
    (lockBreakAct k s).1.pending = s.pending := by simp only [lockBreakAct, breakLock_pending]
@[simp] theorem leaseExpires_pending (k : Nat) (s : State) :
    (leaseExpires k s).pending = s.pending := by simp only [leaseExpires, State.setLock_pending, advanceTo_pending, breakLock_pending, ite_pending, ite_self]

/-! ## Loss -/

@[simp] theorem resetCopy_pending (c : Nat) (s : State) :
    (resetCopy c s).pending = s.pending := by simp only [resetCopy, State.dropKeys_pending, foldl_pending, implies_true]
@[simp] theorem setReadout_pending (q v : Nat) (s : State) :
    (setReadout q v s).pending = s.pending := by simp only [setReadout, State.setEl_pending]
@[simp] theorem queueLosesFunc_pending (s : State) (q : Nat) :
    (queueLosesFunc s q).pending = s.pending := by unfold queueLosesFunc; (try dsimp only); repeat' (first | rfl | (simp only [State.setEl_pending, State.modQueue_pending, setReadout_pending, readAt_pending, ite_pending, ite_fst_pending, ite_snd_pending, ite_self, foldl_pending, implies_true]; done) | split | (refine (foldl_pending _ _ _ ?_).trans ?_; intro _ _))
@[simp] theorem setFill_pending (f v : Nat) (s : State) :
    (setFill f v s).pending = s.pending := by simp only [setFill, State.setEl_pending]
@[simp] theorem endFill_pending (f v : Nat) (s : State) :
    (endFill f v s).pending = s.pending := by simp only [endFill, State.modFunc_pending, setFill_pending, ite_pending, ite_self]
@[simp] theorem loseFunc_pending (s : State) (f : Nat) :
    (loseFunc s f).pending = s.pending := by simp only [loseFunc, State.modFunc_pending, breakLocksOf_pending, resetCopy_pending, queueLosesFunc_pending, endFill_pending, foldl_pending, implies_true]
@[simp] theorem lossPolicy_pending (lost : List Nat) (s : State) (b : Nat) :
    (lossPolicy lost s b).pending = s.pending := by simp only [lossPolicy, faultBench_pending, ite_pending, ite_self]
@[simp] theorem functionsLost_pending (l : List (Nat × Option Nat)) (gone : List Nat) (s : State) :
    (functionsLost l gone s).pending = s.pending := by simp only [functionsLost, loseFunc_pending, lossPolicy_pending, foldl_pending, implies_true]
@[simp] theorem noteLocals_pending (s t : State) :
    (noteLocals s t).pending = t.pending := by simp only [noteLocals, State.touchIf_pending, foldl_pending, implies_true]
@[simp] theorem refreshSessions_pending (s : State) :
    (refreshSessions s).pending = s.pending := by simp only [refreshSessions, State.setN_pending]
@[simp] theorem closeSession_pending (k : Nat) (s : State) :
    (closeSession k s).pending = s.pending := by unfold closeSession; (repeat' split) <;> (try simp only [State.setEl_pending, State.setSession_pending, breakLocksOf_pending, refreshSessions_pending])
@[simp] theorem closeAllSessions_pending (s : State) :
    (closeAllSessions s).pending = s.pending := by simp only [closeAllSessions, closeSession_pending, foldl_pending, implies_true]

/-! ## Arm -/

@[simp] theorem writeLaneReport_pending (b : Nat) (ls : List Nat) (s : State) :
    (writeLaneReport b ls s).pending = s.pending := by simp only [writeLaneReport, State.setEl_pending, foldl_pending, implies_true]
@[simp] theorem openStream_pending (b t first n : Nat) (s : State) :
    (openStream b t first n s).pending = s.pending := by simp only [openStream, State.setEl_pending, State.setStream_pending, dropHand_pending]
@[simp] theorem openStreams_pending (b first : Nat) (l : List (Nat × Nat)) (s : State) :
    (openStreams b first l s).pending = s.pending := by
  induction l generalizing first s with
  | nil => rw [openStreams]
  | cons p t ih => rw [openStreams, ih, openStream_pending]
@[simp] theorem clearStreamCounters_pending (b : Nat) (s : State) :
    (clearStreamCounters b s).pending = s.pending := by cases s; rfl
@[simp] theorem clearDir_pending (b : Nat) (s : State) :
    (clearDir b s).pending = s.pending := by simp only [clearDir, State.setDir_pending]
@[simp] theorem abortFills_pending (b : Nat) (s : State) :
    (abortFills b s).pending = s.pending := by simp only [abortFills, endFill_pending, ite_pending, ite_self, foldl_pending, implies_true]
@[simp] theorem armBench_pending (b kind : Nat) (start : Option Int) (s : State) :
    (armBench b kind start s).pending = s.pending := by simp only [armBench, State.setN_pending, State.modBench_pending, noteSeg_pending, toService_pending, State.setBenchState_pending, cuReset_pending, clearLines_pending, sqArm_pending, State.setTrigState_pending, refreshGate_pending, aeArm_pending, writeLaneReport_pending, openStreams_pending, clearStreamCounters_pending, clearDir_pending, abortFills_pending, foldl_pending, implies_true]
@[simp] theorem tryArm_pending (b kind : Nat) (start : Option Int) (s : State) :
    (tryArm b kind start s).1.pending = s.pending := by unfold tryArm; (repeat' split) <;> (try simp only [writeLaneReport_pending, armBench_pending])
theorem notFree_pending (b : Nat) (act : State → State × Status) (s : State) (h : (act s).1.pending = s.pending) :
    (notFree b act s).1.pending = s.pending := by
  unfold notFree
  split
  · rfl
  · exact h
@[simp] theorem disarmAct_pending (b : Nat) (s : State) :
    (disarmAct b s).1.pending = s.pending := by simp only [disarmAct, disarmNow_pending]
@[simp] theorem clearFaultAct_pending (b : Nat) (s : State) :
    (clearFaultAct b s).1.pending = s.pending := by simp only [clearFaultAct, State.setEl_pending, State.setBenchState_pending, ite_fst_pending, ite_self]
@[simp] theorem resetEls_pending (o : ObjInfo) (e n : Nat) (s : State) :
    (resetEls o e n s).pending = s.pending := by unfold resetEls; repeat' (first | rfl | (simp only [State.clearEls_pending]; done) | split | (refine (foldl_pending _ _ _ ?_).trans ?_; intro _ _))
@[simp] theorem dropEls_pending (o : ObjInfo) (e n : Nat) (s : State) :
    (dropEls o e n s).pending = s.pending := by simp only [dropEls, State.dropKeys_pending]
@[simp] theorem defaultUnit_pending (c : Nat) (s : State) :
    (defaultUnit c s).pending = s.pending := by simp only [defaultUnit, resetEls_pending, foldl_pending, implies_true]
@[simp] theorem defaultSq_pending (q : Nat) (s : State) :
    (defaultSq q s).pending = s.pending := by simp only [defaultSq, resetEls_pending, foldl_pending, implies_true]
@[simp] theorem defaultEngine_pending (a : Nat) (s : State) :
    (defaultEngine a s).pending = s.pending := by simp only [defaultEngine, unsealTrace_pending, resetEls_pending, dropEls_pending, foldl_pending, implies_true]
@[simp] theorem resetBench_pending (b : Nat) (s : State) :
    (resetBench b s).pending = s.pending := by simp only [resetBench, State.setN_pending, State.modBench_pending, noteSeg_pending, State.setBenchState_pending, dropGrants_pending, discardAll_pending, resetEls_pending, defaultUnit_pending, defaultSq_pending, defaultEngine_pending, foldl_pending, implies_true]
@[simp] theorem resetAct_pending (b : Nat) (s : State) :
    (resetAct b s).1.pending = s.pending := by simp only [resetAct, benchFaults_pending, resetBench_pending, ite_pending, ite_fst_pending, ite_self]
@[simp] theorem benchCmdAct_pending (b : Nat) (v : W64) (s : State) :
    (benchCmdAct b v s).1.pending = s.pending := by unfold benchCmdAct; (repeat' split) <;> (try simp only [tryArm_pending, notFree_pending, disarmAct_pending, clearFaultAct_pending, resetAct_pending])
@[simp] theorem setArmSched_pending (b v : Nat) (s : State) :
    (setArmSched b v s).pending = s.pending := by simp only [setArmSched, State.setEl_pending]
@[simp] theorem setDisarmSched_pending (b v : Nat) (s : State) :
    (setDisarmSched b v s).pending = s.pending := by simp only [setDisarmSched, State.setEl_pending]
@[simp] theorem armAtAct_pending (b : Nat) (v : W64) (s : State) :
    (armAtAct b v s).1.pending = s.pending := by unfold armAtAct; (repeat' split) <;> (try simp only [State.put_pending, writeLaneReport_pending, armBench_pending, setArmSched_pending])
@[simp] theorem disarmAtAct_pending (b : Nat) (v : W64) (s : State) :
    (disarmAtAct b v s).1.pending = s.pending := by simp only [disarmAtAct, State.put_pending, State.modBench_pending, disarmNow_pending, setDisarmSched_pending, ite_fst_pending, ite_self]
@[simp] theorem scheduledArm_pending (b : Nat) (s : State) :
    (scheduledArm b s).pending = s.pending := by simp only [scheduledArm, State.setEl_pending, advanceMod_pending, tryArm_pending, setArmSched_pending, ite_pending, ite_self]
@[simp] theorem scheduledDisarmNow_pending (b : Nat) (s : State) :
    (scheduledDisarmNow b s).pending = s.pending := by simp only [scheduledDisarmNow, State.modBench_pending, disarmNow_pending, setDisarmSched_pending]
@[simp] theorem scheduledDisarm_pending (b : Nat) (s : State) :
    (scheduledDisarm b s).pending = s.pending := by simp only [scheduledDisarm, advanceMod_pending, scheduledDisarmNow_pending, ite_pending, ite_self]
@[simp] theorem setCommitState_pending (b v : Nat) (s : State) :
    (setCommitState b v s).pending = s.pending := by simp only [setCommitState, State.setEl_pending]
@[simp] theorem commitAct_pending (b : Nat) (s : State) :
    (commitAct b s).1.pending = s.pending := by simp only [commitAct, State.modBench_pending, setCommitState_pending, ite_fst_pending, ite_self]
@[simp] theorem commitCancelAct_pending (b : Nat) (s : State) :
    (commitCancelAct b s).1.pending = s.pending := by simp only [commitCancelAct, State.modBench_pending, setCommitState_pending, ite_fst_pending, ite_self]
@[simp] theorem commitWriteAct_pending (b : Nat) (v : W64) (s : State) :
    (commitWriteAct b v s).1.pending = s.pending := by simp only [commitWriteAct, commitAct_pending, commitCancelAct_pending, ite_fst_pending, ite_self]
@[simp] theorem commitBroadcast_pending (b : Nat) (s : State) :
    (commitBroadcast b s).pending = s.pending := by
  unfold commitBroadcast; split
  · rfl
  · exact State.modBench_pending ..

/-! ## Swage -/

@[simp] theorem partMissing_pending (l d : Nat) (stamp : W40) (s : State) :
    (partMissing l d stamp s).pending = s.pending := by unfold partMissing; dsimp only; (repeat' split) <;> (try simp only [countMissing_pending])
@[simp] theorem countParts_pending (design : W64) (d : Nat) (stamp : W40) (t : Int) (s : State) :
    (countParts design d stamp t s).pending = s.pending := by simp only [countParts, State.modLane_pending, countMissing_pending, ite_pending, ite_self, foldl_pending, implies_true]
@[simp] theorem dropNotes_pending (design : W64) (d : Nat) (stamp : W40) (l : Nat) (s : State) :
    (dropNotes design d stamp l s).pending = s.pending := by simp only [dropNotes, State.modLane_pending, ite_pending, ite_self]
@[simp] theorem freeParts_pending (design : W64) (d : Nat) (stamp : W40) (s : State) :
    (freeParts design d stamp s).pending = s.pending := by simp only [freeParts, State.modLane_pending, creditAfterFree_pending, dropNotes_pending, ite_pending, ite_self, foldl_pending, implies_true]
@[simp] theorem refuseEngines_pending (g owner : Nat) (s : State) :
    (refuseEngines g owner s).pending = s.pending := by unfold refuseEngines; (try dsimp only); repeat' (first | rfl | (simp only [State.inc_pending, ite_pending, ite_self]; done) | split | (refine (foldl_pending _ _ _ ?_).trans ?_; intro _ _))
@[simp] theorem countRow_pending (r : Row) (s : State) :
    (countRow r s).pending = s.pending := by simp only [countRow, State.inc_pending, refuseEngines_pending, ite_pending, ite_self, foldl_pending, implies_true]
@[simp] theorem noteRow_pending (r : Row) (s : State) :
    (noteRow r s).pending = s.pending := by cases s; rfl
@[simp] theorem endsBefore_pending (row : RowKey) (s : State) (b : Nat) :
    (endsBefore row s b).pending = s.pending := by unfold endsBefore; dsimp only; (repeat' split) <;> (try simp only [faultAtRow_pending, scheduledDisarmNow_pending])
@[simp] theorem commitUnits_pending (b : Nat) (s : State) :
    (commitUnits b s).pending = s.pending := by simp only [commitUnits, applyCopies_pending, cuReset_pending, foldl_pending, implies_true]
@[simp] theorem commitRest_pending (b : Nat) (r : Row) (s : State) :
    (commitRest b r s).pending = s.pending := by simp only [commitRest, State.setEl_pending, State.modBench_pending, refreshDirty_pending, applyCopies_pending]
@[simp] theorem takeUnits_pending (b : Nat) (src s : State) :
    (takeUnits b src s).pending = s.pending := by cases s; rfl
@[simp] theorem slotUnits_pending (design : W64) (l : List Row) (s : State) : (slotUnits design l s).pending = s.pending := by
  induction l generalizing s with
  | nil => rfl
  | cons r t ih => rw [slotUnits, ih, cuRows_pending, foldl_pending _ _ _ (fun u b => commitUnits_pending b u)]
@[simp] theorem oldUnits_pending (design : W64) (rows : List Row) (before s : State) :
    (oldUnits design rows before s).pending = s.pending := by simp only [oldUnits, takeUnits_pending, ite_pending, ite_self, foldl_pending, implies_true]
@[simp] theorem engineTakes_pending (b : Nat) (r : Row) (taken : Bool) (s : State) (a : Nat) :
    (engineTakes b r taken s a).pending = s.pending := by unfold engineTakes; (repeat' split) <;> (try simp only [State.setN_pending, State.setEngine_pending, dropAhead_pending, ite_pending, ite_self])
@[simp] theorem benchRow_pending (b : Nat) (r : Row) (first : Bool) (s : State) : (benchRow b r first s).2.pending = s.pending := by
  unfold benchRow
  dsimp only
  rw [foldl_pending _ _ _ (fun t a => engineTakes_pending ..), State.modBench_pending, stepBench_pending]
@[simp] theorem slotRow_pending (new : State) (r : Row) (first : Bool) (p : List (Nat × Nat) × State) :
    (slotRow new r first p).2.pending = p.2.pending := by
  unfold slotRow
  refine foldl_snd_pending _ _ _ (fun q b => ?_)
  have go (u : State) : (if u.takesRow b r then (let x := benchRow b r first u; (q.1 ++ x.1, x.2))
      else (q.1, (u.enabledEngines b).foldl (engineTakes b r false) u)).2.pending = u.pending := by
    split
    · exact benchRow_pending ..
    · exact foldl_pending _ _ _ (fun t a => engineTakes_pending ..)
  refine (go _).trans ?_
  split
  · rw [commitRest_pending, takeUnits_pending]
  · rfl
@[simp] theorem slotBenches_pending (new : State) (l : List Row) (first : Bool) (p : List (Nat × Nat) × State) :
    (slotBenches new l first p).2.pending = p.2.pending := by
  induction l generalizing first p with
  | nil => rw [slotBenches]
  | cons r t ih => rw [slotBenches, ih, slotRow_pending]
@[simp] theorem runSlot_pending (design : W64) (rows : List Row) (s : State) :
    (runSlot design rows s).pending = s.pending := by simp only [runSlot, applyPinOps_pending, settle_pending, quiesceAfterRow_pending, slotUnits_pending, oldUnits_pending, slotBenches_pending, ite_pending, ite_self, foldl_pending, implies_true]
@[simp] theorem setSlot_pending (design : W64) (rows : List Row) (s : State) :
    (setSlot design rows s).pending = s.pending := by cases s; rfl
@[simp] theorem closeSlot_pending (design : W64) (s : State) :
    (closeSlot design s).pending = s.pending := by simp only [closeSlot, runSlot_pending, setSlot_pending]
@[simp] theorem rowEmit_pending (design : W64) (d : Nat) (stamp : W40) (s : State) :
    (rowEmit design d stamp s).pending = s.pending := by unfold rowEmit; (repeat' split) <;> (try simp only [countParts_pending, freeParts_pending, countRow_pending, noteRow_pending, endsBefore_pending, setSlot_pending, closeSlot_pending, ite_pending, ite_self, foldl_pending, implies_true])
@[simp] theorem stalled_pending (l : Nat) (s : State) :
    (stalled l s).pending = s.pending := by simp only [stalled, advanceTo_pending, leaveAligned_pending, ite_pending, ite_self]
@[simp] theorem gateTile_pending (t : Nat) (s : State) :
    (gateTile t s).pending = s.pending := by simp only [gateTile, State.setN_pending, ite_pending, ite_self]
@[simp] theorem ungateTile_pending (t : Nat) (s : State) :
    (ungateTile t s).pending = s.pending := by simp only [ungateTile, State.setN_pending, ite_pending, ite_self]
@[simp] theorem tilePowerAct_pending (t : Nat) (v : W64) (s : State) :
    (tilePowerAct t v s).1.pending = s.pending := by simp only [tilePowerAct, State.put_pending, gateTile_pending, ungateTile_pending, ite_pending, ite_fst_pending, ite_self]
@[simp] theorem tileGated_pending (t : Nat) (s : State) :
    (tileGated t s).pending = s.pending := by simp only [tileGated, State.setN_pending, ite_pending, ite_self]
@[simp] theorem tileIsOn_pending (t : Nat) (s : State) :
    (tileIsOn t s).pending = s.pending := by simp only [tileIsOn, State.setN_pending, ite_pending, ite_self]

/-! ## Link -/

@[simp] theorem portEnableAct_pending (p : Nat) (v : W64) (s : State) :
    (portEnableAct p v s).1.pending = s.pending := by simp only [portEnableAct, State.put_pending, State.modLane_pending, refreshConflicts_pending, enterHunt_pending, laneOff_pending, recallQuenches_pending, ite_pending, ite_fst_pending, ite_self, foldl_pending, implies_true]
@[simp] theorem clearLaneCounters_pending (l : Nat) (s0 : State) :
    (clearLaneCounters l s0).pending = s0.pending := by cases s0; rfl
@[simp] theorem clearCountersAct_pending (p : Nat) (s : State) :
    (clearCountersAct p s).1.pending = s.pending := by simp only [clearCountersAct, clearLaneCounters_pending, foldl_pending, implies_true]
@[simp] theorem sendDescReqAct_pending (p : Nat) (s : State) :
    (sendDescReqAct p s).1.pending = s.pending := by simp only [sendDescReqAct, sendDescReq_pending, ite_pending, ite_self, foldl_pending, implies_true]
@[simp] theorem realignAct_pending (p : Nat) (s : State) :
    (realignAct p s).1.pending = s.pending := by simp only [realignAct, startCalibration_pending, leaveAligned_pending, ite_pending, ite_fst_pending, ite_self, foldl_pending, implies_true]
@[simp] theorem signalDetect_pending (l : Nat) (s : State) :
    (signalDetect l s).pending = s.pending := by simp only [signalDetect, State.modLane_pending, enterHunt_pending, ite_pending, ite_self]
@[simp] theorem huntCodeword_pending (l : Nat) (ok : Bool) (cwSeq : BitVec 10) (inverted : Bool) (s : State) :
    (huntCodeword l ok cwSeq inverted s).pending = s.pending := by simp only [huntCodeword, State.modLane_pending, enterFramed_pending, ite_pending, ite_self]
@[simp] theorem corrected_pending (l n : Nat) (s : State) :
    (corrected l n s).pending = s.pending := by simp only [corrected, State.count_pending, State.modLane_pending, raiseError_pending, State.setLaneFlag_pending, ite_pending, ite_self]
@[simp] theorem goodCodeword_pending (l t badSyms : Nat) (cwSeq : BitVec 10) (txState : BitVec 2) (s : State) :
    (goodCodeword l t badSyms cwSeq txState s).pending = s.pending := by
  have h (c : Bool) (a b : State) (e : a.pending = b.pending) : (if c then a else b).pending = b.pending := by
    split
    · exact e
    · rfl
  have h' (c : Prop) [Decidable c] (a b : State) (e : b.pending = a.pending) : (if c then a else b).pending = a.pending := by
    split
    · rfl
    · exact e
  unfold goodCodeword; dsimp only
  rw [h _ _ _ (startCalibration_pending ..), h' _ _ _ (frameError_pending ..), h' _ _ _ (corrected_pending ..), State.modLane_pending]
@[simp] theorem codewordDecode_pending (l t badSyms : Nat) (cwSeq : BitVec 10) (txState : BitVec 2) (inverted : Bool) (s0 : State) :
    (codewordDecode l t badSyms cwSeq txState inverted s0).pending = s0.pending := by unfold codewordDecode; (repeat' split) <;> (try simp only [State.modLane_pending, advanceMod_pending, uncorrectable_pending, huntCodeword_pending, goodCodeword_pending, ite_pending, ite_self])
@[simp] theorem codewordPeriodMissed_pending (l : Nat) (s : State) :
    (codewordPeriodMissed l s).pending = s.pending := by simp only [codewordPeriodMissed, State.modLane_pending, uncorrectable_pending, ite_pending, ite_self]
@[simp] theorem writeGroupMap_pending (l : Nat) (m : LaneMap) (s : State) :
    (writeGroupMap l m s).pending = s.pending := by simp only [writeGroupMap, State.put_pending, State.bump_pending, State.dropKeys_pending, foldl_pending, implies_true]
@[simp] theorem adopt_pending (l : Nat) (d : Descr) (m : LaneMap) (s : State) :
    (adopt l d m s).pending = s.pending := by simp only [adopt, State.setEl_pending, State.setN_pending, State.modLane_pending, laneTrouble1_pending, laneRejoin_pending, refreshConflicts_pending, startCalibration_pending, leaveAligned_pending, dropClocks_pending, writeGroupMap_pending, ite_pending, ite_self, foldl_pending, implies_true]
@[simp] theorem deliverPart_pending (l : Nat) (p : Part) (s : State) :
    (deliverPart l p s).pending = s.pending := by simp only [deliverPart, State.modLane_pending, freeParts_pending, ite_pending, ite_self]
@[simp] theorem takeWord_pending (l d : Nat) (gs : List Nat) (design : W64) (stamp : W40) (pos : Nat) (w : W40) (time : Int) (s : State) :
    (takeWord l d gs design stamp pos w time s).pending = s.pending := by unfold takeWord; dsimp only; (repeat' split) <;> (try simp only [State.modLane_pending, countMissing_pending, deliverPart_pending])
@[simp] theorem takeWords_pending (l d : Nat) (gs : List Nat) (design : W64) (t : Nat) (lat : Int) (stamp : W40) (off i : Nat) (ws : List W40)
    (s : State) : (takeWords l d gs design t lat stamp off i ws s).pending = s.pending := by
  induction ws generalizing i s with
  | nil => rw [takeWords]
  | cons w ws ih => rw [takeWords, ih, takeWord_pending]
@[simp] theorem dataWords_pending (l t : Nat) (hdr : W40) (pay : List W40) (s : State) :
    (dataWords l t hdr pay s).pending = s.pending := by unfold dataWords; dsimp only; (repeat' split) <;> (try simp only [State.modLane_pending, frameError_pending, stampError_pending, takeWords_pending])
@[simp] theorem dataFrame_pending (l t : Nat) (hdr : W40) (pay : List W40) (s0 : State) :
    (dataFrame l t hdr pay s0).pending = s0.pending := by unfold dataFrame; dsimp only; (repeat' split) <;> (try simp only [State.inc_pending, State.modLane_pending, advanceMod_pending, creditAfterFree_pending, laneFault_pending, frameError_pending, adopt_pending, dataWords_pending])
@[simp] theorem setSuspect_pending (l : Nat) (offset : Int) (s : State) :
    (setSuspect l offset s).pending = s.pending := by simp only [setSuspect, State.modLane_pending, raiseError_pending, State.setLaneFlag_pending, benchEvent_pending, ite_pending, ite_self, foldl_pending, implies_true]
@[simp] theorem goodEcho_pending (l : Nat) (s : State) :
    (goodEcho l s).pending = s.pending := by simp only [goodEcho, State.modLane_pending, State.setLaneFlag_pending, ite_pending, ite_self]
@[simp] theorem markerEpoch_pending (l epoch : Nat) (s : State) :
    (markerEpoch l epoch s).pending = s.pending := by simp only [markerEpoch, State.modLane_pending, setSuspect_pending, ite_pending, ite_self]
@[simp] theorem setHeld_pending (l : Nat) (es : List (Nat × W40)) (s : State) :
    (setHeld l es s).pending = s.pending := by simp only [setHeld, State.modLane_pending]
@[simp] theorem updateFreq_pending (l : Nat) (core : Int) (es : List (Nat × W40)) (s : State) :
    (updateFreq l core es s).pending = s.pending := by unfold updateFreq; (try dsimp only); repeat' (first | rfl | (simp only [State.setN_pending, State.modLane_pending, ite_pending, ite_self]; done) | split | (refine (foldl_pending _ _ _ ?_).trans ?_; intro _ _))
@[simp] theorem measure_pending (l : Nat) (lat : Int) (s : State) :
    (measure l lat s).pending = s.pending := by simp only [measure, State.setEl_pending, State.setN_pending, State.modLane_pending, admitOrRefuse_pending, ite_pending, ite_self]
@[simp] theorem alignMarker_pending (l : Nat) (lat core : Int) (es : List (Nat × W40)) (s : State) :
    (alignMarker l lat core es s).pending = s.pending := by simp only [alignMarker, State.modLane_pending, State.setAlign_pending, measure_pending, ite_pending, ite_self]
@[simp] theorem markerFrame_pending (l t slot : Nat) (hdr : W40) (pay : List W40) (s0 : State) :
    (markerFrame l t slot hdr pay s0).pending = s0.pending := by unfold markerFrame; (repeat' split) <;> (try simp only [advanceMod_pending, frameError_pending, stampError_pending, markerEpoch_pending, setHeld_pending, updateFreq_pending, alignMarker_pending, ite_pending, ite_self])
@[simp] theorem groupMap_pending (l : Nat) (hdr : W40) (pay : List W40) (s : State) :
    (groupMap l hdr pay s).pending = s.pending := by simp only [groupMap, State.modLane_pending, frameError_pending, ite_pending, ite_self]
@[simp] theorem descriptorFrame_pending (l : Nat) (hdr : W40) (pay : List W40) (s : State) :
    (descriptorFrame l hdr pay s).pending = s.pending := by simp only [descriptorFrame, State.modLane_pending, State.setLaneState_pending, sendDescReq_pending, frameError_pending, adopt_pending, ite_pending, ite_self]
@[simp] theorem recordOffset_pending (l : Nat) (offset : Int) (s : State) :
    (recordOffset l offset s).pending = s.pending := by simp only [recordOffset, State.setEl_pending, State.drawn_pending, ite_pending, ite_self]
@[simp] theorem recordDelay_pending (l : Nat) (d : Int) (s : State) :
    (recordDelay l d s).pending = s.pending := by simp only [recordDelay, State.setEl_pending, State.setN_pending, State.drawn_pending, ite_pending, ite_self]
@[simp] theorem timeEcho_pending (l t : Nat) (hdr : W40) (pay : List W40) (s0 : State) :
    (timeEcho l t hdr pay s0).pending = s0.pending := by unfold timeEcho; dsimp only; (repeat' split) <;> (try simp only [State.modLane_pending, advanceMod_pending, enterUp_pending, frameError_pending, setSuspect_pending, goodEcho_pending, recordOffset_pending, recordDelay_pending])
@[simp] theorem sendTime_pending (l : Nat) (s0 : State) :
    (sendTime l s0).pending = s0.pending := by simp only [sendTime, State.send_pending, State.modLane_pending, advanceTo_pending, ite_pending, ite_self]
@[simp] theorem creditMessage_pending (l : Nat) (s : State) :
    (creditMessage l s).pending = s.pending := by simp only [creditMessage, raiseLimit_pending, sendCredit_pending, ite_pending, ite_self]
@[simp] theorem descReqRetry_pending (l : Nat) (s : State) :
    (descReqRetry l s).pending = s.pending := by simp only [descReqRetry, advanceTo_pending, sendDescReq_pending, ite_pending, ite_self]
@[simp] theorem huntTimeout_pending (l : Nat) (s : State) :
    (huntTimeout l s).pending = s.pending := by simp only [huntTimeout, advanceTo_pending, laneFault_pending, ite_pending, ite_self]
@[simp] theorem framedTimeout_pending (l : Nat) (s : State) :
    (framedTimeout l s).pending = s.pending := by simp only [framedTimeout, advanceTo_pending, laneFault_pending, ite_pending, ite_self]
@[simp] theorem describedTimeout_pending (l : Nat) (s : State) :
    (describedTimeout l s).pending = s.pending := by simp only [describedTimeout, advanceTo_pending, laneFault_pending, ite_pending, ite_self]
@[simp] theorem faultRetry_pending (l : Nat) (s : State) :
    (faultRetry l s).pending = s.pending := by simp only [faultRetry, advanceTo_pending, enterHunt_pending, ite_pending, ite_self]
@[simp] theorem absentTimeout_pending (l : Nat) (s : State) :
    (absentTimeout l s).pending = s.pending := by simp only [absentTimeout, advanceTo_pending, State.setLaneState_pending, ite_pending, ite_self]
@[simp] theorem degradedWindow_pending (l : Nat) (s0 : State) :
    (degradedWindow l s0).pending = s0.pending := by simp only [degradedWindow, State.modLane_pending, advanceTo_pending, State.setLaneFlag_pending]

/-! ## Staging -/

@[simp] theorem stageBytes_pending (f : Nat) (x : Staging) (bs : List (Nat × Byte)) (s : State) :
    (stageBytes f x bs s).pending = s.pending := by simp only [stageBytes, State.setStage_pending, commitStage_pending, ite_pending, ite_self]
@[simp] theorem fillRead_pending (f : Nat) (s : State) :
    (fillRead f s).pending = s.pending := by unfold fillRead; (repeat' split) <;> (try simp only [State.send_pending, State.modFunc_pending])
@[simp] theorem fillCellWritten_pending (f : Nat) (s : State) :
    (fillCellWritten f s).pending = s.pending := by unfold fillCellWritten; (repeat' split) <;> (try simp only [State.setEl_pending, State.modFunc_pending, endFill_pending, fillRead_pending, ite_pending, ite_self])
@[simp] theorem stagePiece_pending (f b ingot cell pos : Nat) (bs : List (Nat × Byte)) (fill : Bool) (pkt : Option Nat) (s : State) :
    (stagePiece f b ingot cell pos bs fill pkt s).pending = s.pending := by unfold stagePiece; dsimp only; (repeat' split) <;> (try simp only [commitStage_pending, unsealCell_pending, stageBytes_pending, fillCellWritten_pending])
@[simp] theorem arrivePiece_pending (f b ingot cell pos : Nat) (bs : List (Nat × Byte)) (fill : Bool) (s : State) :
    (arrivePiece f b ingot cell pos bs fill s).pending = s.pending := by
  unfold arrivePiece
  dsimp only
  split
  · rw [holdOp_pending]
  · split
    · have h := allocPacket_pending (stagingPacket b) .hostStaging 0 4 (commitStage f s)
      rw [commitStage_pending] at h
      split <;> rename_i e <;> rw [e] at h
      · rw [holdOp_pending]; exact h
      · rw [stagePiece_pending]; exact h
    · rw [stagePiece_pending]
@[simp] theorem arrivePieces_pending (f b : Nat) (l : List Piece) (s : State) :
    (arrivePieces f b l s).pending = s.pending := by unfold arrivePieces; repeat' (first | rfl | (simp only [arrivePiece_pending]; done) | split | (refine (foldl_pending _ _ _ ?_).trans ?_; intro _ _))
@[simp] theorem storeWriteNow_pending (f off : Nat) (bs : List Byte) (s : State) :
    (storeWriteNow f off bs s).pending = s.pending := by unfold storeWriteNow; dsimp only; (repeat' split) <;> (try simp only [State.inc_pending, arrivePieces_pending])
@[simp] theorem storeWrite_pending (f off : Nat) (bs : List Byte) (s : State) : (storeWrite f off bs s).pending = s.pending :=
  postedWrite_pending _ _ _ _ (storeWriteNow_pending ..)
@[simp] theorem stageTimeout_pending (f : Nat) (s : State) :
    (stageTimeout f s).pending = s.pending := by unfold stageTimeout; (repeat' split) <;> (try simp only [advanceTo_pending, commitStage_pending])
@[simp] theorem settleRaw_pending (f ingot cell : Nat) (s : State) :
    (settleRaw f ingot cell s).pending = s.pending := by simp only [settleRaw, State.drawn_pending, commitStages_pending, drainWrites_pending, settleCell_pending, ite_pending, ite_self]
@[simp] theorem hostReadCell_pending (f b : Nat) (r : List Byte × State) (p : List Nat × Piece) :
    (hostReadCell f b r p).2.pending = (r.2).pending := by unfold hostReadCell; (repeat' split) <;> (try simp only [readCell_pending, fetchCell_pending, settleCell_pending, settleRaw_pending, ite_snd_pending, ite_self])
@[simp] theorem enabledBytes_pending (len : Nat) (enables : List Bool) (bs : List Byte) (s : State) :
    (enabledBytes len enables bs s).2.pending = s.pending := by simp only [enabledBytes, State.drawn_pending, ite_snd_pending, ite_self]
@[simp] theorem storeRead_pending (f b addr len : Nat) (errs : List (List Nat)) (enables : List Bool) (s : State) :
    (storeRead f b addr len errs enables s).pending = s.pending := by
  have h (l : List (List Nat × Piece)) : (l.foldl (hostReadCell f b) ([], toService s)).2.pending = s.pending := by
    rw [foldl_snd_pending _ _ _ (fun p q => hostReadCell_pending ..), toService_pending]
  unfold storeRead
  dsimp only
  split
  · exact State.send_pending ..
  · split
    · exact holdOp_pending ..
    · rw [refreshStore_pending]
      split
      · exact h _
      · rw [State.send_pending, enabledBytes_pending]; exact h _
@[simp] theorem storeReadNow_pending (f : Nat) (off : StoreOffset) (len : Nat) (s : State) :
    (storeReadNow f off len s).pending = s.pending := by unfold storeReadNow; (repeat' split) <;> (try simp only [State.send_pending, holdOp_pending, storeRead_pending])
@[simp] theorem State.dropHeld_pending (s : State) (h : Held) :
    (State.dropHeld s h).pending = s.pending := by cases s; rfl
@[simp] theorem selfRefresh_pending (r : Nat) (s : State) :
    (selfRefresh r s).pending = s.pending := by simp only [selfRefresh, State.setRank_pending, advanceTo_pending, refreshStore_pending, ite_pending, ite_self]
@[simp] theorem keepGrant_pending (x : AllocReq) (id : Nat) (s : State) :
    (keepGrant x id s).pending = s.pending := by cases s; rfl
@[simp] theorem goldAsk_pending (x : AllocReq) (id : Nat) (s : State) :
    (goldAsk x id s).pending = s.pending := by unfold goldAsk; dsimp only; (repeat' split) <;> (try simp only [State.setEngine_pending, acceptReq_pending, commitStages_pending, keepGrant_pending])
@[simp] theorem postService_pending (x : AllocReq) (id : Nat) (s : State) :
    (postService x id s).pending = s.pending := by unfold postService; (repeat' split) <;> (try simp only [State.setPacket_pending, offerPacket_pending, keepGrant_pending, ite_pending, ite_self])
@[simp] theorem noteRefused_pending (x : Bid) (s : State) :
    (noteRefused x s).pending = s.pending := by unfold noteRefused; (repeat' split) <;> (try simp only [State.modStream_pending, ite_pending, ite_self])

/-! ## Ports -/

@[simp] theorem refreshLink_pending (h : Nat) (s : State) :
    (refreshLink h s).pending = s.pending := by simp only [refreshLink, State.setEl_pending]
@[simp] theorem refreshFunc_pending (s : State) (f : Nat) :
    (refreshFunc s f).pending = s.pending := by simp only [refreshFunc, State.setEl_pending]
@[simp] theorem fillCompletion_pending (f : Nat) (ok : Bool) (bytes : List Byte) (s : State) :
    (fillCompletion f ok bytes s).pending = s.pending := by unfold fillCompletion; dsimp only; (repeat' split) <;> (try simp only [State.modFunc_pending, endFill_pending, fillRead_pending, arrivePiece_pending])
@[simp] theorem fillStartAct_pending (f : Nat) (s : State) :
    (fillStartAct f s).1.pending = s.pending := by simp only [fillStartAct, State.setEl_pending, State.modFunc_pending, setFill_pending, fillRead_pending, ite_fst_pending, ite_self]
@[simp] theorem fillAbortAct_pending (f : Nat) (s : State) :
    (fillAbortAct f s).1.pending = s.pending := by unfold fillAbortAct; (repeat' split) <;> (try simp only [State.modFunc_pending, endFill_pending])
@[simp] theorem masterStops_pending (f : Nat) (s : State) :
    (masterStops f s).pending = s.pending := by unfold masterStops; dsimp only; (repeat' split) <;> (try simp only [State.modQueue_pending, State.modFunc_pending, setFill_pending, foldl_pending, implies_true])
@[simp] theorem sendPending_pending (f : Nat) (s : State) :
    (sendPending f s).pending = s.pending := by simp only [sendPending, sendVec_pending, ite_pending, ite_self, foldl_pending, implies_true]
@[simp] theorem masterResumes_pending (f : Nat) (s : State) :
    (masterResumes f s).pending = s.pending := by unfold masterResumes; (repeat' split) <;> (try simp only [State.modFunc_pending, setFill_pending, fillRead_pending, sendPending_pending, ite_pending, ite_self])
@[simp] theorem setMaster_pending (f : Nat) (bme d3 : Bool) (s : State) :
    (setMaster f bme d3 s).pending = s.pending := by simp only [setMaster, State.modFunc_pending, noteQueue_pending, refreshFunc_pending, masterStops_pending, masterResumes_pending, ite_pending, ite_self, foldl_pending, implies_true]
@[simp] theorem clearFuncs_pending (l : List Nat) (s : State) :
    (clearFuncs l s).pending = s.pending := by simp only [clearFuncs, State.setFunc_pending, resetCopy_pending, refreshFunc_pending, foldl_pending, implies_true]
@[simp] theorem clearVfs_pending (h : Nat) (s : State) :
    (clearVfs h s).pending = s.pending := by simp only [clearVfs, State.modPort_pending, functionsLost_pending, refreshLink_pending, clearFuncs_pending]
@[simp] theorem resetFunc_pending (f : Nat) (s : State) :
    (resetFunc f s).pending = s.pending := by simp only [resetFunc, State.modPort_pending, intUpdate_pending, functionsLost_pending, refreshLink_pending, clearFuncs_pending, ite_pending, ite_self]
@[simp] theorem resetPortCopies_pending (h : Nat) (s : State) :
    (resetPortCopies h s).pending = s.pending := by simp only [resetPortCopies, State.dropKeys_pending, foldl_pending, implies_true]
@[simp] theorem resetPort_pending (h : Nat) (kind : PortReset) (s : State) :
    (resetPort h kind s).pending = s.pending := by simp only [resetPort, State.setPort_pending, State.modFunc_pending, raiseError_pending, functionsLost_pending, refreshLink_pending, clearFuncs_pending, resetPortCopies_pending, ite_pending, ite_self, foldl_pending, implies_true]
@[simp] theorem linkUp_pending (x : PortLands) (flit : Bool) (rate width : Nat) (s : State) :
    (linkUp x flit rate width s).pending = s.pending := by simp only [linkUp, State.modPort_pending, intUpdate_pending, refreshLink_pending, refreshFunc_pending, ite_pending, ite_self]
@[simp] theorem pendingMessage_pending (f vec : Nat) (s : State) :
    (pendingMessage f vec s).pending = s.pending := by unfold pendingMessage; dsimp only; (repeat' split) <;> (try simp only [advanceTo_pending, sendVec_pending])
@[simp] theorem tableWrite_pending (f : Nat) (s : State) (i : Nat) (v : Nat) :
    (tableWrite f s i v).pending = s.pending := by unfold tableWrite; (repeat' split) <;> (try simp only [State.setVec_pending, sendPending_pending])
@[simp] theorem writeCommand_pending (f : Nat) (v : BitVec 32) (s : State) :
    (writeCommand f v s).pending = s.pending := by simp only [writeCommand, State.modFunc_pending, intUpdate_pending, setMaster_pending, ite_pending, ite_self]
@[simp] theorem writeMsix_pending (f : Nat) (v : BitVec 32) (s : State) :
    (writeMsix f v s).pending = s.pending := by simp only [writeMsix, State.modFunc_pending, intUpdate_pending, refreshFunc_pending, sendPending_pending, ite_pending, ite_self]
@[simp] theorem writeDevCtl_pending (f : Nat) (v : BitVec 32) (s : State) :
    (writeDevCtl f v s).pending = s.pending := by simp only [writeDevCtl, State.modFunc_pending, resetFunc_pending, ite_pending, ite_self]
@[simp] theorem writeSriov_pending (h : Nat) (v : BitVec 32) (s : State) :
    (writeSriov h v s).pending = s.pending := by simp only [writeSriov, State.modPort_pending, State.modFunc_pending, refreshLink_pending, refreshFunc_pending, clearVfs_pending, ite_pending, ite_self, foldl_pending, implies_true]
@[simp] theorem configWrite_pending (f reg : Nat) (v : BitVec 32) (s : State) :
    (configWrite f reg v s).pending = s.pending := by simp only [configWrite, State.modPort_pending, State.modFunc_pending, refreshLink_pending, setMaster_pending, writeCommand_pending, writeMsix_pending, writeDevCtl_pending, writeSriov_pending, ite_pending, ite_self]
@[simp] theorem configRequest_pending (f reg : Nat) (wr : Option (BitVec 32)) (s : State) :
    (configRequest f reg wr s).pending = s.pending := by unfold configRequest; (repeat' split) <;> (try simp only [State.send_pending, configWrite_pending])

/-! ## Protect -/

@[simp] theorem refreshHeld_pending (b : Nat) (s : State) :
    (refreshHeld b s).pending = s.pending := by simp only [refreshHeld, State.setEl_pending]
@[simp] theorem trimDir_pending (b : Nat) (s : State) :
    (trimDir b s).pending = s.pending := by simp only [trimDir, State.setDir_pending, State.setHolder_pending, refreshHeld_pending, foldl_pending, implies_true]
@[simp] theorem ingotScrub_pending (b ingot : Nat) (s : State) :
    (ingotScrub b ingot s).pending = s.pending := by simp only [ingotScrub, State.setDir_pending, toService_pending, State.setHolder_pending, refreshStore_pending, scrubCells_pending, settleIngot_pending, settleCells_pending, refreshHeld_pending, ite_pending, ite_self]
@[simp] theorem PropEntry.write_pending (s : State) (e : PropEntry) :
    (PropEntry.write s e).pending = s.pending := by unfold PropEntry.write; (repeat' split) <;> (try simp only [State.put_pending, foldl_pending, implies_true])
@[simp] theorem dropBench_pending (s : State) (b : Nat) :
    (dropBench s b).pending = s.pending := by simp only [dropBench, State.put_pending, foldl_pending, implies_true]
@[simp] theorem State.withEntries_pending (s : State) (es : List PropEntry) :
    (State.withEntries s es).pending = s.pending := by simp only [State.withEntries, PropEntry.write_pending, dropBench_pending, foldl_pending, implies_true]
@[simp] theorem scrubUnit_pending (s : State) (c : Nat) :
    (scrubUnit s c).pending = s.pending := by simp only [scrubUnit, State.setEl_pending, State.setCuPrev_pending, defaultUnit_pending]
@[simp] theorem scrubSq_pending (s : State) (q : Nat) :
    (scrubSq s q).pending = s.pending := by simp only [scrubSq, State.setEl_pending, State.clearEls_pending, State.setSeqx_pending, defaultSq_pending]
@[simp] theorem scrubEngine_pending (s : State) (a : Nat) :
    (scrubEngine s a).pending = s.pending := by simp only [scrubEngine, State.setEl_pending, State.setN_pending, State.clearEls_pending, State.setEngine_pending, dropAhead_pending, defaultEngine_pending]
@[simp] theorem dropStream_pending (s : State) (k : Nat) : (dropStream s k).pending = s.pending := by
  unfold dropStream
  rw [State.setStream_pending, dropHand_pending]
@[simp] theorem deleteBench_pending (s : State) (b : Nat) :
    (deleteBench s b).pending = s.pending := by simp only [deleteBench, State.setBench_pending, noteSeg_pending, State.setBenchState_pending, leaveExclusive_pending, dropGrants_pending, freeQueue_pending, dropStream_pending, ite_pending, ite_self, foldl_pending, implies_true]
@[simp] theorem applySet_pending (s t : State) :
    (applySet s t).pending = t.pending := by simp only [applySet, State.bump_pending, journalAdd_pending, State.setBenchState_pending, functionsLost_pending, noteLocals_pending, trimDir_pending, scrubUnit_pending, scrubSq_pending, scrubEngine_pending, deleteBench_pending, ite_pending, ite_self, foldl_pending, implies_true]
@[simp] theorem freeProposalLock_pending (s : State) :
    (freeProposalLock s).pending = s.pending := by simp only [freeProposalLock, freeLock_pending, ite_pending, ite_self]
@[simp] theorem applyProposal_pending (t s : State) : (applyProposal t s).pending = t.pending := by
  unfold applyProposal
  rw [setPropState_pending, freeProposalLock_pending, applySet_pending]
@[simp] theorem writeDigest_pending (d : List Byte) (s : State) :
    (writeDigest d s).pending = s.pending := by simp only [writeDigest, State.setN_pending, foldl_pending, implies_true]
@[simp] theorem propStageAct_pending (via : Via) (o : ObjInfo) (e : Nat) (v : W64) (s : State) :
    (propStageAct via o e v s).1.pending = s.pending := by simp only [propStageAct, State.put_pending, propRefuse_pending, ite_fst_pending, ite_self]
@[simp] theorem csignSigAct_pending (e : Nat) (v : W64) (s : State) :
    (csignSigAct e v s).1.pending = s.pending := by simp only [csignSigAct, State.put_pending, propRefuse_pending, ite_fst_pending, ite_self]
@[simp] theorem reserveNumber_pending (n : Nat) (s : State) :
    (reserveNumber n s).2.pending = s.pending := by unfold reserveNumber; (try dsimp only); repeat' (first | rfl | (simp only [journalAdd_pending, sealAll_pending, ite_snd_pending, ite_self]; done) | split | (refine (foldl_pending _ _ _ ?_).trans ?_; intro _ _))
@[simp] theorem propSubmitAct_pending (via : Via) (v : W64) (s : State) : (propSubmitAct via v s).1.pending = s.pending := by
  have h := reserveNumber_pending (s.elN O.PROP_SEQ 0 + 1) s
  have hw (d : List Byte) (n w : Nat) (u : State) :
      (setPropStatus (setFld ((writeDigest d (u.setN O.PROP_SEQ 0 n)).el O.PROP_STATUS 0) 47 16 w) (writeDigest d (u.setN O.PROP_SEQ 0 n))).pending
        = u.pending := by
    rw [setPropStatus_pending, writeDigest_pending, State.setN_pending]
  unfold propSubmitAct
  dsimp only
  iterate 6 (split; · exact propRefuse_pending ..)
  split
  · split <;> rename_i e <;> rw [e] at h
    · rw [propRefuse_pending]; exact h
    · split
      · rw [applyProposal_pending, State.withEntries_pending, hw]; exact h
      · rw [setPropState_pending, hw]; exact h
  · exact propRefuse_pending ..
@[simp] theorem propCountersignAct_pending (via : Via) (v : W64) (s : State) :
    (propCountersignAct via v s).1.pending = s.pending := by simp only [propCountersignAct, setPropState_pending, propRefuse_pending, ite_fst_pending, ite_self]
@[simp] theorem propCancelAct_pending (via : Via) (v : W64) (s : State) :
    (propCancelAct via v s).1.pending = s.pending := by simp only [propCancelAct, setPropState_pending, freeProposalLock_pending, propRefuse_pending, ite_fst_pending, ite_self]
@[simp] theorem proposalApply_pending (s : State) :
    (proposalApply s).pending = s.pending := by unfold proposalApply; dsimp only; (repeat' split) <;> (try simp only [setPropState_pending, State.withEntries_pending, freeProposalLock_pending, applyProposal_pending, propRefuse_pending])

/-! ## Drain -/

@[simp] theorem qHostAct_pending (q : Nat) (v : W64) (s : State) :
    (qHostAct q v s).1.pending = s.pending := by simp only [qHostAct, State.put_pending, State.setN_pending, noteQueue_pending, ite_pending, ite_fst_pending, ite_self]
@[simp] theorem ringAct_pending (o : ObjInfo) (align q : Nat) (v : W64) (s : State) :
    (ringAct o align q v s).1.pending = s.pending := by simp only [ringAct, State.put_pending, ite_fst_pending, ite_self]
@[simp] theorem doorbell_pending (q c : Nat) (s : State) :
    (doorbell q c s).pending = s.pending := by simp only [doorbell, State.setN_pending, State.inc_pending, ite_pending, ite_self]
@[simp] theorem dblWrite_pending (f off : Nat) (bytes : List Byte) (s : State) :
    (dblWrite f off bytes s).pending = s.pending := by simp only [dblWrite, tableWrite_pending, doorbell_pending, ite_pending, ite_self]
@[simp] theorem dblRead_pending (f off len : Nat) (s : State) :
    (dblRead f off len s).pending = s.pending := by simp only [dblRead, State.drawn_pending, State.send_pending, ite_pending, ite_self]
@[simp] theorem dblNow_pending (f off : Nat) (acc : DblAccess) (s : State) :
    (dblNow f off acc s).pending = s.pending := by unfold dblNow; (repeat' split) <;> (try simp only [dblWrite_pending, dblRead_pending])
@[simp] theorem dblRequest_pending (f off : Nat) (acc : DblAccess) (s : State) : (dblRequest f off acc s).pending = s.pending := by
  unfold dblRequest
  split
  · exact postedWrite_pending _ _ _ _ (dblNow_pending ..)
  · exact windowRead_pending _ _ _ _ (dblNow_pending ..)
@[simp] theorem hostWrites_pending (f : Nat) (relaxed : Bool) (n addr : Nat) (bs : List Byte) (s : State) :
    (hostWrites f relaxed n addr bs s).pending = s.pending := by
  induction n generalizing addr bs s with
  | zero => rfl
  | succ n ih =>
    rw [hostWrites]; split
    · rfl
    · dsimp only; rw [ih, State.send_pending]
@[simp] theorem sendData_pending (q : Nat) (bs : List Byte) (s : State) :
    (sendData q bs s).pending = s.pending := by unfold sendData; (try dsimp only); repeat' (first | rfl | (simp only [hostWrites_pending]; done) | split | (refine (foldl_pending _ _ _ ?_).trans ?_; intro _ _))
@[simp] theorem writeBack_pending (q : Nat) (s : State) :
    (writeBack q s).pending = s.pending := by simp only [writeBack, State.send_pending, ite_pending, ite_self]
@[simp] theorem noteDrain_pending (h q : Nat) (s : State) :
    (noteDrain h q s).pending = s.pending := by simp only [noteDrain, State.modPort_pending]
@[simp] theorem transfer_pending (q : Nat) (s : State) :
    (transfer q s).pending = s.pending := by unfold transfer; dsimp only; (repeat' split) <;> (try simp only [State.setQueue_pending, releaseLink_pending, advIndex_pending, postNotice_pending, sendData_pending, writeBack_pending])
@[simp] theorem drainPace_pending (h n : Nat) (s : State) :
    (drainPace h n s).pending = s.pending := by simp only [drainPace, State.modPort_pending, advanceTo_pending, ite_pending, ite_self]
@[simp] theorem drainOnce_pending (h : Nat) (s : State) :
    (drainOnce h s).pending = s.pending := by unfold drainOnce; (repeat' split) <;> (try simp only [noteDrain_pending, transfer_pending, drainPace_pending])
@[simp] theorem readoutStartAct_pending (q : Nat) (s : State) :
    (readoutStartAct q s).1.pending = s.pending := by unfold readoutStartAct; (try dsimp only); repeat' (first | rfl | (simp only [State.setN_pending, State.modQueue_pending, readAt_pending, ite_pending, ite_fst_pending, ite_snd_pending, ite_self, foldl_pending, implies_true]; done) | split | (refine (foldl_pending _ _ _ ?_).trans ?_; intro _ _))
@[simp] theorem readoutStopAct_pending (q : Nat) (s : State) :
    (readoutStopAct q s).1.pending = s.pending := by unfold readoutStopAct; repeat' (first | rfl | (simp only [State.modQueue_pending, setReadout_pending, readAt_pending, ite_pending, ite_fst_pending, ite_snd_pending, ite_self, foldl_pending, implies_true]; done) | split | (refine (foldl_pending _ _ _ ?_).trans ?_; intro _ _))
@[simp] theorem readoutEnds_pending (q v : Nat) (s : State) :
    (readoutEnds q v s).pending = s.pending := by unfold readoutEnds; repeat' (first | rfl | (simp only [State.modQueue_pending, setReadout_pending, readAt_pending, ite_pending, ite_fst_pending, ite_snd_pending, ite_self, foldl_pending, implies_true]; done) | split | (refine (foldl_pending _ _ _ ?_).trans ?_; intro _ _))
@[simp] theorem enterCell_pending (b q pos cell stop id : Nat) (errs : List Nat) (s : State) :
    (enterCell b q pos cell stop id errs s).pending = s.pending := by
  have h (t : State) (c : Bool) : (if c then discardNew q id t else enterQueue q id t).pending = t.pending := by
    split
    · exact discardNew_pending ..
    · exact enterQueue_pending ..
  unfold enterCell
  dsimp only
  split
  · rw [releaseLink_pending, fetchCell_pending, settleCell_pending]
  · split
    · rw [readoutEnds_pending, State.setEl_pending, h, State.setPacket_pending, readCell_pending, fetchCell_pending,
        settleCell_pending]
    · rw [State.modQueue_pending, State.setEl_pending, h, State.setPacket_pending, readCell_pending, fetchCell_pending,
        settleCell_pending]
@[simp] theorem readoutStep_pending (q : Nat) (errs : List Nat) (s : State) : (readoutStep q errs s).pending = s.pending := by
  unfold readoutStep
  dsimp only
  split
  · rfl
  · split
    · exact readoutEnds_pending ..
    · split
      · rfl
      · have h := allocPacket_pending (stagingPacket (s.elN O.Q_OWNER q)) .hostStaging 0 4 (toService s)
        rw [toService_pending] at h
        split <;> rename_i e <;> rw [e] at h
        · exact h
        · rw [refreshStore_pending, enterCell_pending]; exact h

/-! ## Modes -/

@[simp] theorem setFwSlot_pending (k : Nat) (ok : Bool) (s : State) :
    (setFwSlot k ok s).pending = s.pending := by cases s; rfl
@[simp] theorem loadProtection_pending (s : State) :
    (loadProtection s).pending = s.pending := by simp only [loadProtection, State.put_pending, refreshHeld_pending, foldl_pending, implies_true]
@[simp] theorem replayJournal_pending (s : State) :
    (replayJournal s).pending = s.pending := by simp only [replayJournal, State.put_pending, loadProtection_pending, foldl_pending, implies_true]
@[simp] theorem placeRanks_pending (s : State) :
    (placeRanks s).pending = s.pending := by simp only [placeRanks, State.put_pending, State.setHomeRanks_pending, foldl_pending, implies_true]
@[simp] theorem coldState_pending (s : State) :
    (coldState s).pending = s.pending := by simp only [coldState, State.put_pending, noteAlert_pending, ite_pending, ite_self, foldl_pending, implies_true]
@[simp] theorem logBoot_pending (b : Base) (s : State) :
    (logBoot b s).pending = s.pending := by cases s; rfl
@[simp] theorem powerOn_pending (milliV : Nat) (s : State) :
    (powerOn milliV s).pending = s.pending := by simp only [powerOn, State.put_pending, advance_pending, State.setMode_pending, setFwSlot_pending, replayJournal_pending, placeRanks_pending, logBoot_pending, ite_pending, ite_self]
@[simp] theorem lastProgram_pending (s : State) :
    (lastProgram s).pending = s.pending := by simp only [lastProgram, State.drawn_pending, sealFirst_pending, ite_pending, ite_self]
@[simp] theorem lastPrograms_pending (s : State) :
    (lastPrograms s).pending = s.pending := by simp only [lastPrograms, lastProgram_pending]
@[simp] theorem enterBringup_pending (s : State) :
    (enterBringup s).pending = s.pending := by simp only [enterBringup, State.setMode_pending, refreshMig_pending, logBoot_pending]
@[simp] theorem bootAuth_pending (ok0 ok1 : Bool) (s : State) :
    (bootAuth ok0 ok1 s).pending = s.pending := by simp only [bootAuth, journalAdd_pending, enterRecovery_pending, raiseError_pending, setFwSlot_pending, enterBringup_pending, ite_pending, ite_self]
@[simp] theorem enterIdle_pending (s : State) :
    (enterIdle s).pending = s.pending := by simp only [enterIdle, State.setMode_pending, toService_pending, refreshStore_pending, allSelfRefresh_pending, ite_pending, ite_self]
@[simp] theorem bringupDone_pending (s : State) :
    (bringupDone s).pending = s.pending := by simp only [bringupDone, nextRetire_pending, logBoot_pending, enterIdle_pending, ite_pending, ite_self]
@[simp] theorem idleEntry_pending (s : State) :
    (idleEntry s).pending = s.pending := by simp only [idleEntry, advanceTo_pending, enterIdle_pending, ite_pending, ite_self]
@[simp] theorem endExclusiveAct_pending (s : State) :
    (endExclusiveAct s).1.pending = s.pending := by simp only [endExclusiveAct, leaveExclusive_pending, ite_fst_pending, ite_self]
@[simp] theorem exclusiveAct_pending (b : Nat) (s : State) :
    (exclusiveAct b s).1.pending = s.pending := by simp only [exclusiveAct, State.setN_pending, State.setMode_pending, ite_pending, ite_fst_pending, ite_self]
@[simp] theorem closeIdleCells_pending (s : State) :
    (closeIdleCells s).pending = s.pending := by simp only [closeIdleCells, closeCell_pending, ite_pending, ite_self, foldl_pending, implies_true]
@[simp] theorem quiesceAct_pending (off : Bool) (s : State) :
    (quiesceAct off s).1.pending = s.pending := by simp only [quiesceAct, State.setMode_pending, closeIdleCells_pending, ite_fst_pending, ite_self]
@[simp] theorem factoryAct_pending (s : State) :
    (factoryAct s).1.pending = s.pending := by simp only [factoryAct, State.setMode_pending, ite_fst_pending, ite_self]
@[simp] theorem switchOff_pending (s : State) :
    (switchOff s).pending = s.pending := by simp only [switchOff, State.setMode_pending, sealAll_pending, coldState_pending, lastPrograms_pending, ite_pending, ite_self]
@[simp] theorem quiesceDone_pending (s : State) :
    (quiesceDone s).pending = s.pending := by simp only [quiesceDone, discardDrains_pending, drainWrites_pending, enterIdle_pending, switchOff_pending, ite_pending, ite_self]
@[simp] theorem endAllForReset_pending (s : State) :
    (endAllForReset s).pending = s.pending := by simp only [endAllForReset, finishStreams_pending, foldl_pending, implies_true]
@[simp] theorem closeAllCells_pending (s : State) :
    (closeAllCells s).pending = s.pending := by simp only [closeAllCells, closeCell_pending, foldl_pending, implies_true]
@[simp] theorem noteResetLoss_pending (s : State) (r : StoreReq) :
    (noteResetLoss s r).pending = s.pending := by unfold noteResetLoss; (repeat' split) <;> (try simp only [State.setEl_pending])
@[simp] theorem saveCells_pending (s : State) :
    (saveCells s).pending = s.pending := by unfold saveCells; (try dsimp only); repeat' (first | rfl | (simp only [State.drawn_pending, drainWrites_pending, noteResetLoss_pending, foldl_pending, implies_true]; done) | split | (refine (foldl_pending _ _ _ ?_).trans ?_; intro _ _))
@[simp] theorem resetJournal_pending (s : State) :
    (resetJournal s).pending = s.pending := by simp only [resetJournal, sealFirst_pending, ite_pending, ite_self]
@[simp] theorem warmState_pending (s : State) :
    (warmState s).pending = s.pending := by cases s; rfl
@[simp] theorem tidy_pending (s : State) :
    (tidy s).pending = s.pending := by cases s; rfl
@[simp] theorem warmShown_pending (s : State) :
    (warmShown s).pending = s.pending := by simp only [warmShown, State.setEl_pending, State.setN_pending, intUpdate_pending, refreshLink_pending, refreshFunc_pending, foldl_pending, implies_true]
@[simp] theorem noteComputed_pending (s t : State) :
    (noteComputed s t).pending = t.pending := by simp only [noteComputed, State.touchIf_pending, noteLocals_pending, ite_pending, ite_self, foldl_pending, implies_true]
@[simp] theorem warmReset_pending (s : State) :
    (warmReset s).pending = s.pending := by simp only [warmReset, State.put_pending, noteAlert_pending, State.setMode_pending, refreshMig_pending, breakAllLocks_pending, closeAllSessions_pending, setFwSlot_pending, replayJournal_pending, logBoot_pending, endAllForReset_pending, closeAllCells_pending, saveCells_pending, resetJournal_pending, warmState_pending, tidy_pending, warmShown_pending, noteComputed_pending]
@[simp] theorem warmResetAct_pending (v : W64) (s : State) :
    (warmResetAct v s).1.pending = s.pending := by simp only [warmResetAct, State.drawn_pending, warmReset_pending, ite_fst_pending, ite_self]

/-! ## Health -/

@[simp] theorem showReadings_pending (l : List Int) (milliV milliW : Nat) (s : State) :
    (showReadings l milliV milliW s).pending = s.pending := by simp only [showReadings, State.setEl_pending, State.setN_pending, foldl_pending, implies_true]
@[simp] theorem warnStep_pending (l : List Int) (s : State) :
    (warnStep l s).pending = s.pending := by simp only [warnStep, raiseError_pending, ite_pending, ite_self]
@[simp] theorem inletStep_pending (l : List Int) (s : State) :
    (inletStep l s).pending = s.pending := by simp only [inletStep, raiseError_pending, ite_pending, ite_self]
@[simp] theorem throttleStep_pending (l : List Int) (s : State) :
    (throttleStep l s).pending = s.pending := by unfold throttleStep; dsimp only; (repeat' split) <;> (try simp only [raiseError_pending])
@[simp] theorem emergencyStep_pending (l : List Int) (s : State) :
    (emergencyStep l s).pending = s.pending := by simp only [emergencyStep, State.setMode_pending, safeTrigger_pending, raiseError_pending, ite_pending, ite_self]
@[simp] theorem refreshThermal_pending (s : State) :
    (refreshThermal s).pending = s.pending := by simp only [refreshThermal, State.setN_pending]
@[simp] theorem sensorRead_pending (l : List Int) (milliV milliW : Nat) (s : State) : (sensorRead l milliV milliW s).pending = s.pending := by
  have h (t : State) (x : Health) : ({ t with health := x } : State).pending = t.pending := by cases t; rfl
  unfold sensorRead
  split
  · rfl
  · dsimp only
    rw [refreshThermal_pending, emergencyStep_pending, throttleStep_pending, inletStep_pending, warnStep_pending, showReadings_pending, h,
      advanceTo_pending]
@[simp] theorem inputRange_pending (milliV : Nat) (s : State) :
    (inputRange milliV s).pending = s.pending := by simp only [inputRange, State.setN_pending, State.setMode_pending, safeTrigger_pending, raiseError_pending, ite_pending, ite_self]
@[simp] theorem railFault_pending (rail : Nat) (s : State) :
    (railFault rail s).pending = s.pending := by simp only [railFault, State.setMode_pending, safeTrigger_pending, raiseError_pending, ite_pending, ite_self]
@[simp] theorem errAckAct_pending (src : Nat) (v : W64) (s : State) :
    (errAckAct src v s).1.pending = s.pending := by simp only [errAckAct, State.setN_pending, putRecord_pending, refreshSummary_pending, ite_fst_pending, ite_self]
@[simp] theorem fenceTile_pending (t : Nat) (s : State) :
    (fenceTile t s).pending = s.pending := by simp only [fenceTile, State.setEl_pending, State.setN_pending, State.setMode_pending, gateTile_pending, foldl_pending, implies_true]
@[simp] theorem tileError_pending (t : Nat) (e : TileError) (s : State) :
    (tileError t e s).pending = s.pending := by unfold tileError; (repeat' split) <;> (try simp only [raiseError_pending, fenceTile_pending])
@[simp] theorem tileResetAct_pending (t : Nat) (v : W64) (s : State) :
    (tileResetAct t v s).1.pending = s.pending := by unfold tileResetAct; (try dsimp only); repeat' (first | rfl | (simp only [State.clearEls_pending, ite_fst_pending, ite_self, foldl_pending, implies_true]; done) | split | (refine (foldl_pending _ _ _ ?_).trans ?_; intro _ _))
@[simp] theorem tileTested_pending (t : Nat) (pass : Bool) (s : State) :
    (tileTested t pass s).pending = s.pending := by simp only [tileTested, State.setN_pending, gateTile_pending, ungateTile_pending, tileError_pending, ite_pending, ite_self]
@[simp] theorem watchdog_pending (s : State) :
    (watchdog s).pending = s.pending := by simp only [watchdog, raiseError_pending, breakLocksOf_pending, closeAllSessions_pending, ite_pending, ite_self, foldl_pending, implies_true]
@[simp] theorem testIngot_pending (ingot : Nat) (found : TestOutcome) (s : State) :
    (testIngot ingot found s).pending = s.pending := by unfold testIngot; (repeat' split) <;> (try simp only [State.drawn_pending, refreshStore_pending, accessRank_pending, fetchCell_pending, scrubCells_pending, foldl_pending, implies_true])
@[simp] theorem testUnit_pending (kind unit : Nat) (found : TestOutcome) (s : State) :
    (testUnit kind unit found s).pending = s.pending := by unfold testUnit; (repeat' split) <;> (try simp only [poolError_pending, tileError_pending, testIngot_pending])
@[simp] theorem testSlot_pending (kind unit : Nat) (found : TestOutcome) (s : State) :
    (testSlot kind unit found s).pending = s.pending := by unfold testSlot; (repeat' split) <;> (try simp only [State.setN_pending, State.inc_pending, advanceTo_pending, raiseError_pending, testUnit_pending])

/-! ## Firmware -/

@[simp] theorem refreshSlot_pending (k : Nat) (ok : Bool) (s : State) :
    (refreshSlot k ok s).pending = s.pending := by simp only [refreshSlot, State.setEl_pending]
@[simp] theorem fwBeginAct_pending (v : W64) (s : State) :
    (fwBeginAct v s).1.pending = s.pending := by simp only [fwBeginAct, State.setN_pending, refreshSlot_pending, ite_fst_pending, ite_self]
@[simp] theorem fwPageAct_pending (v : W64) (s : State) :
    (fwPageAct v s).1.pending = s.pending := by simp only [fwPageAct, ite_fst_pending, ite_self]
@[simp] theorem pageDone_pending (s : State) :
    (pageDone s).pending = s.pending := by unfold pageDone; (repeat' split) <;> (try simp only [enterSafe_pending, refreshSlot_pending, ite_pending, ite_self])
@[simp] theorem fwFinishAct_pending (v : W64) (s : State) :
    (fwFinishAct v s).1.pending = s.pending := by simp only [fwFinishAct, State.setN_pending, ite_fst_pending, ite_self]
@[simp] theorem verified_pending (ok : Bool) (s : State) :
    (verified ok s).pending = s.pending := by simp only [verified, State.setN_pending, journalAdd_pending, refreshSlot_pending, ite_pending, ite_self]

/-! ## Outputs -/

@[simp] theorem setAux0Phase_pending (p : Nat) (s : State) :
    (setAux0Phase p s).pending = s.pending := by cases s; rfl
@[simp] theorem restartOutputs_pending (r : Restart) (s : State) :
    (restartOutputs r s).pending = s.pending := by simp only [restartOutputs, State.send_pending]
@[simp] theorem activateOutputs_pending (s : State) :
    (activateOutputs s).pending = s.pending := by simp only [activateOutputs, State.setEl_pending, foldl_pending, implies_true]
@[simp] theorem applyOutputs_pending (s : State) :
    (applyOutputs s).pending = s.pending := by simp only [applyOutputs, setAux0Phase_pending, restartOutputs_pending, activateOutputs_pending, ite_pending, ite_self]
@[simp] theorem syncOutputs_pending (s : State) :
    (syncOutputs s).pending = s.pending := by simp only [syncOutputs, setAux0Phase_pending, restartOutputs_pending, activateOutputs_pending, ite_pending, ite_self]
@[simp] theorem outApplyAct_pending (v : W64) (s : State) :
    (outApplyAct v s).1.pending = s.pending := by simp only [outApplyAct, applyOutputs_pending, ite_fst_pending, ite_self]
@[simp] theorem syncIn_pending (s : State) :
    (syncIn s).pending = s.pending := by simp only [syncIn, State.inc_pending, syncOutputs_pending, ite_pending, ite_self]
@[simp] theorem startHop_pending (slot : Nat) (s : State) :
    (startHop slot s).pending = s.pending := by simp only [startHop, State.setN_pending]
@[simp] theorem planSelectAct_pending (v : W64) (s : State) :
    (planSelectAct v s).1.pending = s.pending := by simp only [planSelectAct, startHop_pending, ite_fst_pending, ite_self]
@[simp] theorem setPlanSched_pending (v : Nat) (s : State) :
    (setPlanSched v s).pending = s.pending := by simp only [setPlanSched, State.setEl_pending]
@[simp] theorem hopOrWait_pending (slot : Nat) (s : State) :
    (hopOrWait slot s).pending = s.pending := by simp only [hopOrWait, startHop_pending, ite_pending, ite_self]
@[simp] theorem performHeld_pending (s : State) :
    (performHeld s).pending = s.pending := by simp only [performHeld, setAux0Phase_pending, restartOutputs_pending, activateOutputs_pending, ite_pending, ite_self]
@[simp] theorem startDelayed_pending (s : State) :
    (startDelayed s).pending = s.pending := by unfold startDelayed; (repeat' split) <;> (try simp only [startHop_pending, setPlanSched_pending, ite_pending, ite_self])
@[simp] theorem planHopDone_pending (band : Nat) (s : State) :
    (planHopDone band s).pending = s.pending := by unfold planHopDone; (repeat' split) <;> (try simp only [State.setEl_pending, performHeld_pending, startDelayed_pending])
@[simp] theorem dropDelayed_pending (s : State) :
    (dropDelayed s).pending = s.pending := by cases s; rfl
@[simp] theorem latePlan_pending (s : State) :
    (latePlan s).pending = s.pending := by simp only [latePlan, setPlanSched_pending, hopOrWait_pending, dropDelayed_pending, ite_pending, ite_self]
@[simp] theorem planAtAct_pending (v : W64) (s : State) :
    (planAtAct v s).1.pending = s.pending := by simp only [planAtAct, State.put_pending, setPlanSched_pending, dropDelayed_pending, latePlan_pending, ite_fst_pending, ite_self]
@[simp] theorem scheduledHop_pending (s : State) :
    (scheduledHop s).pending = s.pending := by simp only [scheduledHop, advanceMod_pending, setPlanSched_pending, hopOrWait_pending, ite_pending, ite_self]
@[simp] theorem setPps_pending (v : Bool) (s : State) :
    (setPps v s).pending = s.pending := by simp only [setPps, State.send_pending, drivePin_pending, ite_pending, ite_self, foldl_pending, implies_true]
@[simp] theorem ppsEnd_pending (s : State) :
    (ppsEnd s).pending = s.pending := by simp only [ppsEnd, advanceTo_pending, setPps_pending, ite_pending, ite_self]
@[simp] theorem ppsSecond_pending (s : State) :
    (ppsSecond s).pending = s.pending := by simp only [ppsSecond, advanceMod_pending, setPps_pending, ppsEnd_pending, ite_pending, ite_self]
@[simp] theorem setEdgeSched_pending (n v : Nat) (s : State) :
    (setEdgeSched n v s).pending = s.pending := by simp only [setEdgeSched, State.setEl_pending]
@[simp] theorem clearPin_pending (n : Nat) (s : State) :
    (clearPin n s).pending = s.pending := by simp only [clearPin, State.setPin_pending]
@[simp] theorem failEdge_pending (n : Nat) (s : State) :
    (failEdge n s).pending = s.pending := by simp only [failEdge, State.setEl_pending, State.drawn_pending, setEdgeSched_pending, ite_pending, ite_self]
@[simp] theorem trigIoAct_pending (n : Nat) (v : W64) (s : State) :
    (trigIoAct n v s).1.pending = s.pending := by simp only [trigIoAct, State.put_pending, drivePin_pending, clearPin_pending, failEdge_pending, ite_pending, ite_fst_pending, ite_self]
@[simp] theorem trigInput_pending (n : Nat) (x : PinEdge) (s : State) :
    (trigInput n x s).pending = s.pending := by simp only [trigInput, State.setEl_pending, State.inc_pending, ite_pending, ite_self]
@[simp] theorem performEdge_pending (n : Nat) (s : State) :
    (performEdge n s).pending = s.pending := by unfold performEdge; (repeat' split) <;> (try simp only [setPinState_pending, pulsePin_pending])
@[simp] theorem lateEdge_pending (n : Nat) (s : State) :
    (lateEdge n s).pending = s.pending := by simp only [lateEdge, setEdgeSched_pending, performEdge_pending, ite_pending, ite_self]
@[simp] theorem edgeAtAct_pending (n : Nat) (v : W64) (s : State) :
    (edgeAtAct n v s).1.pending = s.pending := by simp only [edgeAtAct, State.put_pending, setEdgeSched_pending, lateEdge_pending, ite_fst_pending, ite_self]
@[simp] theorem scheduledEdge_pending (n : Nat) (s : State) :
    (scheduledEdge n s).pending = s.pending := by simp only [scheduledEdge, advanceMod_pending, setEdgeSched_pending, performEdge_pending, ite_pending, ite_self]
@[simp] theorem setAux1Queue_pending (q : List Nat) (s : State) :
    (setAux1Queue q s).pending = s.pending := by simp only [setAux1Queue, State.setN_pending]
@[simp] theorem aux1PushAct_pending (v : W64) (s : State) :
    (aux1PushAct v s).1.pending = s.pending := by simp only [aux1PushAct, setAux1Queue_pending, ite_fst_pending, ite_self]
@[simp] theorem aux1FlushAct_pending (s : State) :
    (aux1FlushAct s).1.pending = s.pending := by simp only [aux1FlushAct, setAux1Queue_pending]
@[simp] theorem aux1Next_pending (s : State) :
    (aux1Next s).2.pending = s.pending := by unfold aux1Next; (repeat' split) <;> (try simp only [State.inc_pending, setAux1Queue_pending])
@[simp] theorem aux1Sample_pending (s : State) :
    (aux1Sample s).pending = s.pending := by simp only [aux1Sample, State.send_pending, advanceTo_pending, aux1Next_pending, ite_pending, ite_self]

/-! ## Refs -/

@[simp] theorem passArm_pending (old : Nat) (s : State) (b : Nat) :
    (passArm old s b).pending = s.pending := by simp only [passArm, State.setEl_pending, tryArm_pending, setArmSched_pending, ite_pending, ite_self]
@[simp] theorem passDisarm_pending (old : Nat) (s : State) (b : Nat) :
    (passDisarm old s b).pending = s.pending := by simp only [passDisarm, State.modBench_pending, disarmNow_pending, setDisarmSched_pending, ite_pending, ite_self]
@[simp] theorem passEdge_pending (old : Nat) (s : State) (n : Nat) :
    (passEdge old s n).pending = s.pending := by simp only [passEdge, lateEdge_pending, ite_pending, ite_self]
@[simp] theorem passPlan_pending (old : Nat) (s : State) :
    (passPlan old s).pending = s.pending := by simp only [passPlan, latePlan_pending, ite_pending, ite_self]
@[simp] theorem stepPass_pending (old : Nat) (s : State) :
    (stepPass old s).pending = s.pending := by simp only [stepPass, passArm_pending, passDisarm_pending, passEdge_pending, passPlan_pending, foldl_pending, implies_true]
@[simp] theorem refreshLeap_pending (s : State) :
    (refreshLeap s).pending = s.pending := by cases s; rfl
@[simp] theorem stepTime_pending (t : Nat) (s : State) :
    (stepTime t s).pending = s.pending := by simp only [stepTime, State.setN_pending, stepPass_pending, refreshLeap_pending]
@[simp] theorem refreshClass_pending (s : State) :
    (refreshClass s).pending = s.pending := by simp only [refreshClass, State.setN_pending]
@[simp] theorem takeUpstream_pending (s : State) :
    (takeUpstream s).pending = s.pending := by simp only [takeUpstream, State.setEl_pending, State.setN_pending, refreshLeap_pending, ite_pending, ite_self]
@[simp] theorem showSel_pending (v : Nat) (s : State) :
    (showSel v s).pending = s.pending := by simp only [showSel, State.setEl_pending, State.setN_pending, State.drawn_pending, ite_pending, ite_self]
@[simp] theorem setSel_pending (v target : Nat) (s : State) :
    (setSel v target s).pending = s.pending := by simp only [setSel, refreshClass_pending, takeUpstream_pending, showSel_pending]
@[simp] theorem freezeLoop_pending (s : State) :
    (freezeLoop s).pending = s.pending := by cases s; rfl
@[simp] theorem freezeOnce_pending (s : State) :
    (freezeOnce s).pending = s.pending := by simp only [freezeOnce, freezeLoop_pending, ite_pending, ite_self]
@[simp] theorem enterHoldover_pending (s : State) :
    (enterHoldover s).pending = s.pending := by simp only [enterHoldover, raiseError_pending, setSel_pending]
@[simp] theorem switchOrHold_pending (s : State) :
    (switchOrHold s).pending = s.pending := by unfold switchOrHold; (repeat' split) <;> (try simp only [setSel_pending, enterHoldover_pending])
@[simp] theorem reselect_pending (s : State) :
    (reselect s).pending = s.pending := by unfold reselect; (repeat' split) <;> (try simp only [setSel_pending])
@[simp] theorem refLost_pending (s : State) :
    (refLost s).pending = s.pending := by unfold refLost; dsimp only; (repeat' split) <;> (try simp only [raiseError_pending, setSel_pending, freezeOnce_pending, switchOrHold_pending])
@[simp] theorem lockLost_pending (s : State) :
    (lockLost s).pending = s.pending := by simp only [lockLost, freezeOnce_pending, switchOrHold_pending, ite_pending, ite_self]
@[simp] theorem slewAway_pending (offset : Int) (s : State) :
    (slewAway offset s).pending = s.pending := by cases s; rfl
@[simp] theorem lockDelay_pending (offset : Int) (s : State) :
    (lockDelay offset s).pending = s.pending := by simp only [lockDelay, advanceTo_pending, stepTime_pending, setSel_pending, reselect_pending, slewAway_pending, ite_pending, ite_self]
@[simp] theorem switchDone_pending (offset : Int) (s : State) :
    (switchDone offset s).pending = s.pending := by simp only [switchDone, setSel_pending, reselect_pending, slewAway_pending, ite_pending, ite_self]
@[simp] theorem holdoverClass_pending (s : State) :
    (holdoverClass s).pending = s.pending := by simp only [holdoverClass, advanceTo_pending, refreshClass_pending, ite_pending, ite_self]
@[simp] theorem setRefState_pending (r v : Nat) (s : State) :
    (setRefState r v s).pending = s.pending := by simp only [setRefState, State.setN_pending, State.setRef_pending]
@[simp] theorem refFails_pending (r : Nat) (s : State) :
    (refFails r s).pending = s.pending := by simp only [refFails, setRefState_pending, ite_pending, ite_self]
@[simp] theorem refMeasure_pending (r : Nat) (ppb : Int) (s : State) :
    (refMeasure r ppb s).pending = s.pending := by simp only [refMeasure, State.setEl_pending, State.setN_pending, State.setRef_pending, advanceTo_pending, reselect_pending, refFails_pending, ite_pending, ite_self]
@[simp] theorem ref10Stops_pending (s : State) :
    (ref10Stops s).pending = s.pending := by simp only [ref10Stops, State.setRef_pending, setRefState_pending, ite_pending, ite_self]
@[simp] theorem ref10Returns_pending (s : State) :
    (ref10Returns s).pending = s.pending := by simp only [ref10Returns, setRefState_pending, ite_pending, ite_self]
@[simp] theorem ppsIn_pending (cycles : Nat) (off : Int) (s : State) :
    (ppsIn cycles off s).pending = s.pending := by simp only [ppsIn, State.setRef_pending, refFails_pending, ite_pending, ite_self]
@[simp] theorem ppsMissing_pending (s : State) :
    (ppsMissing s).pending = s.pending := by unfold ppsMissing; (repeat' split) <;> (try simp only [advanceTo_pending, refFails_pending])
@[simp] theorem refreshPtp_pending (m : Nat) (s : State) :
    (refreshPtp m s).pending = s.pending := by simp only [refreshPtp, State.setN_pending, ite_pending, ite_self]
@[simp] theorem announceTimeout_pending (s0 : State) :
    (announceTimeout s0).pending = s0.pending := by simp only [announceTimeout, State.setN_pending, advanceTo_pending, setRefState_pending, ite_pending, ite_self]
@[simp] theorem ptpAnnounce_pending (x : Announce) (s : State) :
    (ptpAnnounce x s).pending = s.pending := by simp only [ptpAnnounce, State.setN_pending, refreshClass_pending, takeUpstream_pending, ite_pending, ite_self]
@[simp] theorem ptpSync_pending (off : Int) (s : State) :
    (ptpSync off s).pending = s.pending := by simp only [ptpSync, State.setEl_pending, State.setN_pending, setRefState_pending, refFails_pending, ite_pending, ite_self]
@[simp] theorem sendPtp_pending (m : Nat) (kind : PtpKind) (s : State) :
    (sendPtp m kind s).pending = s.pending := by cases s; rfl
@[simp] theorem ptpReceived_pending (m : Nat) (msg : PtpMsg) (s : State) :
    (ptpReceived m msg s).pending = s.pending := by unfold ptpReceived; (repeat' split) <;> (try simp only [ptpAnnounce_pending, ptpSync_pending, sendPtp_pending])
@[simp] theorem endInterval_pending (m : Nat) (kind : PtpKind) (s : State) :
    (endInterval m kind s).pending = s.pending := by
  simp only [endInterval]; split <;> simp only [advanceTo_pending]
@[simp] theorem ptpSent_pending (m : Nat) (kind : PtpKind) (s : State) :
    (ptpSent m kind s).pending = s.pending := by unfold ptpSent; (repeat' split) <;> (try simp only [State.send_pending, sendPtp_pending, endInterval_pending, ite_pending, ite_self])
@[simp] theorem writeTime_pending (t : Nat) (s : State) :
    (writeTime t s).pending = s.pending := by simp only [writeTime, stepTime_pending, ite_pending, ite_self]
@[simp] theorem timeSetAct_pending (via : Via) (e : Nat) (v : W64) (s : State) :
    (timeSetAct via e v s).1.pending = s.pending := by unfold timeSetAct; dsimp only; (repeat' split) <;> (try simp only [writeTime_pending])
@[simp] theorem calUtcAct_pending (v : W64) (s : State) :
    (calUtcAct v s).1.pending = s.pending := by simp only [calUtcAct, stepTime_pending, ite_fst_pending, ite_self]
@[simp] theorem leapSecond_pending (s : State) :
    (leapSecond s).pending = s.pending := by unfold leapSecond; (repeat' split) <;> (try simp only [State.setEl_pending, State.setN_pending, advanceMod_pending, refreshLeap_pending])

/-! ## Net -/

@[simp] theorem netLinkDown_pending (m : Nat) (s : State) :
    (netLinkDown m s).pending = s.pending := by simp only [netLinkDown, State.setN_pending, raiseError_pending, refreshPtp_pending, ite_pending, ite_self]
@[simp] theorem netLinkUp_pending (m : Nat) (s : State) :
    (netLinkUp m s).pending = s.pending := by simp only [netLinkUp, State.setN_pending, refreshPtp_pending, ite_pending, ite_self]
@[simp] theorem closeIfGone_pending (m : Nat) (s : State) (k : Nat) :
    (closeIfGone m s k).pending = s.pending := by unfold closeIfGone; (repeat' split) <;> (try simp only [closeSession_pending])
@[simp] theorem netApplyAct_pending (m : Nat) (v : W64) (s : State) :
    (netApplyAct m v s).1.pending = s.pending := by simp only [netApplyAct, State.setNetCfg_pending, closeIfGone_pending, ite_fst_pending, ite_self, foldl_pending, implies_true]
@[simp] theorem frameIn_pending (m len : Nat) (frame : EthFrame) (s : State) :
    (frameIn m len frame s).pending = s.pending := by unfold frameIn; (repeat' split) <;> (try simp only [State.inc_pending, State.send_pending])
@[simp] theorem openSession_pending (m addr k id : Nat) (p : List Byte) (s : State) :
    (openSession m addr k id p s).pending = s.pending := by simp only [openSession, State.setEl_pending, State.send_pending, State.setSession_pending, resetCopy_pending, refreshSessions_pending]
@[simp] theorem helloIn_pending (m addr : Nat) (p : List Byte) (s : State) :
    (helloIn m addr p s).pending = s.pending := by unfold helloIn; (repeat' split) <;> (try simp only [State.inc_pending, State.drawn_pending, State.send_pending, openSession_pending])
@[simp] theorem dataIn_pending (p : List Byte) (s : State) :
    (dataIn p s).pending = s.pending := by unfold dataIn; (repeat' split) <;> (try simp only [State.inc_pending, State.setSession_pending])
@[simp] theorem vdpIn_pending (m addr : Nat) (p : List Byte) (s : State) :
    (vdpIn m addr p s).pending = s.pending := by simp only [vdpIn, State.inc_pending, helloIn_pending, dataIn_pending, ite_pending, ite_self]
@[simp] theorem sessionIdle_pending (k : Nat) (s : State) :
    (sessionIdle k s).pending = s.pending := by unfold sessionIdle; (repeat' split) <;> (try simp only [advanceTo_pending, closeSession_pending])
@[simp] theorem sessionCloseAct_pending (v : W64) (s : State) :
    (sessionCloseAct v s).1.pending = s.pending := by unfold sessionCloseAct; (repeat' split) <;> (try simp only [closeSession_pending])

/-! ## Access -/

@[simp] theorem portSetAct_pending (o : ObjInfo) (p : Nat) (v : W64) (s : State) :
    (portSetAct o p v s).1.pending = s.pending := by simp only [portSetAct, State.put_pending, ite_fst_pending, ite_self]
@[simp] theorem idleSetAct_pending (o : ObjInfo) (e : Nat) (v : W64) (s : State) :
    (idleSetAct o e v s).1.pending = s.pending := by simp only [idleSetAct, State.put_pending, ite_fst_pending, ite_self]
@[simp] theorem benchSetAct_pending (o : ObjInfo) (b e : Nat) (v : W64) (s : State) :
    (benchSetAct o b e v s).1.pending = s.pending := by simp only [benchSetAct, State.put_pending, ite_fst_pending, ite_self]
@[simp] theorem bitsSetAct_pending (o : ObjInfo) (e : Nat) (v mask : W64) (s : State) :
    (bitsSetAct o e v mask s).1.pending = s.pending := by simp only [bitsSetAct, State.put_pending, ite_fst_pending, ite_self]
@[simp] theorem qConfigAct_pending (q : Nat) (v : W64) (s : State) :
    (qConfigAct q v s).1.pending = s.pending := by simp only [qConfigAct, State.put_pending, noteQueue_pending, ite_fst_pending, ite_self]
@[simp] theorem eventQueueAct_pending (b : Nat) (v : W64) (s : State) :
    (eventQueueAct b v s).1.pending = s.pending := by simp only [eventQueueAct, State.put_pending, ite_fst_pending, ite_self]
@[simp] theorem journalSettings_pending (s : State) :
    (journalSettings s).pending = s.pending := by simp only [journalSettings, journalAdd_pending]
@[simp] theorem spareAct_pending (v : W64) (s : State) :
    (spareAct v s).1.pending = s.pending := by simp only [spareAct, State.put_pending, journalSettings_pending, ite_fst_pending, ite_self]
@[simp] theorem subsysAct_pending (h : Nat) (v : W64) (s : State) :
    (subsysAct h v s).1.pending = s.pending := by simp only [subsysAct, State.put_pending, journalSettings_pending]
@[simp] theorem intPendingAct_pending (h : Nat) (v : W64) (s : State) :
    (intPendingAct h v s).1.pending = s.pending := by simp only [intPendingAct, State.put_pending, intUpdate_pending, ite_fst_pending, ite_self]
@[simp] theorem intMaskAct_pending (h : Nat) (v : W64) (s : State) :
    (intMaskAct h v s).1.pending = s.pending := by simp only [intMaskAct, State.put_pending, intUpdate_pending, ite_fst_pending, ite_self]
@[simp] theorem winBaseAct_pending (e : Nat) (v : W64) (s : State) :
    (winBaseAct e v s).1.pending = s.pending := by simp only [winBaseAct, State.put_pending, ite_fst_pending, ite_self]
@[simp] theorem readoutRangeAct_pending (q : Nat) (v : W64) (s : State) :
    (readoutRangeAct q v s).1.pending = s.pending := by simp only [readoutRangeAct, State.put_pending, ite_fst_pending, ite_self]
@[simp] theorem readoutCmdAct_pending (q : Nat) (v : W64) (s : State) :
    (readoutCmdAct q v s).1.pending = s.pending := by simp only [readoutCmdAct, readoutStartAct_pending, readoutStopAct_pending, ite_fst_pending, ite_self]
@[simp] theorem fillCmdAct_pending (e : Nat) (v : W64) (s : State) :
    (fillCmdAct e v s).1.pending = s.pending := by simp only [fillCmdAct, fillStartAct_pending, fillAbortAct_pending, ite_fst_pending, ite_self]
@[simp] theorem linkModeAct_pending (m : Nat) (v : W64) (s : State) :
    (linkModeAct m v s).1.pending = s.pending := by simp only [linkModeAct, State.put_pending, ite_fst_pending, ite_self]
@[simp] theorem netFecAct_pending (m : Nat) (v : W64) (s : State) :
    (netFecAct m v s).1.pending = s.pending := by simp only [netFecAct, State.put_pending, ite_fst_pending, ite_self]
@[simp] theorem refPriorityAct_pending (r : Nat) (v : W64) (s : State) :
    (refPriorityAct r v s).1.pending = s.pending := by simp only [refPriorityAct, State.put_pending, reselect_pending, refreshPtp_pending]
@[simp] theorem revertiveAct_pending (v : W64) (s : State) :
    (revertiveAct v s).1.pending = s.pending := by simp only [revertiveAct, State.put_pending, reselect_pending]
@[simp] theorem calendarAct_pending (o : ObjInfo) (v : W64) (s : State) :
    (calendarAct o v s).1.pending = s.pending := by simp only [calendarAct, State.put_pending, refreshLeap_pending, ite_fst_pending, ite_self]
@[simp] theorem planFreqAct_pending (k : Nat) (v : W64) (s : State) :
    (planFreqAct k v s).1.pending = s.pending := by simp only [planFreqAct, State.put_pending, State.setEl_pending, ite_fst_pending, ite_self]
@[simp] theorem outCfgAct_pending (n : Nat) (v : W64) (s : State) :
    (outCfgAct n v s).1.pending = s.pending := by simp only [outCfgAct, State.put_pending, ite_fst_pending, ite_self]
@[simp] theorem ppsEnableAct_pending (v : W64) (s : State) :
    (ppsEnableAct v s).1.pending = s.pending := by simp only [ppsEnableAct, State.put_pending, setPps_pending, ite_pending, ite_self]
@[simp] theorem auxFtwAct_pending (v : W64) (s : State) :
    (auxFtwAct v s).1.pending = s.pending := by simp only [auxFtwAct, State.put_pending, setAux0Phase_pending]
@[simp] theorem ptpCfgAct_pending (m : Nat) (v : W64) (s : State) :
    (ptpCfgAct m v s).1.pending = s.pending := by simp only [ptpCfgAct, State.put_pending, refreshPtp_pending, ite_fst_pending, ite_self]
@[simp] theorem modeCmdAct_pending (v : W64) (s : State) :
    (modeCmdAct v s).1.pending = s.pending := by unfold modeCmdAct; (repeat' split) <;> (try simp only [endExclusiveAct_pending, exclusiveAct_pending, quiesceAct_pending, factoryAct_pending])
@[simp] theorem casExpectAct_pending (e : Nat) (v : W64) (s : State) :
    (casExpectAct e v s).1.pending = s.pending := by simp only [casExpectAct, State.put_pending, ite_fst_pending, ite_self]
theorem linkRules_pending (e : Nat) (v : W64) : ∀ r ∈ linkRules e v, ∀ s, (r.2 s).1.pending = s.pending := by
  simp only [linkRules, List.mem_append, List.mem_cons, List.mem_map, List.not_mem_nil, or_false]
  rintro r ((h | h) | h) s
  · rcases h with rfl | rfl | rfl | rfl | rfl | rfl | rfl | rfl | rfl | rfl <;> simp
  · obtain ⟨o, _, rfl⟩ := h; simp
  · obtain ⟨o, _, rfl⟩ := h; simp
theorem sequencerRules_pending (e : Nat) (v : W64) : ∀ r ∈ sequencerRules e v, ∀ s, (r.2 s).1.pending = s.pending := by
  simp only [sequencerRules, List.mem_append, List.mem_cons, List.mem_map, List.not_mem_nil, or_false]
  rintro r (h | h) s
  · rcases h with rfl | rfl | rfl | rfl | rfl | rfl | rfl | rfl | rfl | rfl | rfl | rfl <;> simp
  · obtain ⟨o, _, rfl⟩ := h; simp
theorem acquisitionRules_pending (e : Nat) (v : W64) : ∀ r ∈ acquisitionRules e v, ∀ s, (r.2 s).1.pending = s.pending := by
  simp only [acquisitionRules, List.mem_append, List.mem_cons, List.mem_map, List.not_mem_nil, or_false]
  rintro r ((h | h) | h) s
  · rcases h with rfl | rfl | rfl | rfl | rfl | rfl | rfl | rfl | rfl | rfl | rfl <;> simp
  · obtain ⟨o, _, rfl⟩ := h; simp
  · obtain ⟨o, _, rfl⟩ := h; simp
theorem benchRules_pending (via : Via) (e : Nat) (v : W64) : ∀ r ∈ benchRules via e v, ∀ s, (r.2 s).1.pending = s.pending := by
  simp only [benchRules, List.mem_append, List.mem_cons, List.mem_map, List.not_mem_nil, or_false]
  rintro r (h | h) s
  · rcases h with rfl | rfl | rfl | rfl | rfl | rfl | rfl | rfl | rfl <;> simp
  · obtain ⟨o, _, rfl⟩ := h; simp
theorem queueRules_pending (e : Nat) (v : W64) : ∀ r ∈ queueRules e v, ∀ s, (r.2 s).1.pending = s.pending := by
  simp only [queueRules, List.mem_cons, List.not_mem_nil, or_false]
  rintro r h s
  rcases h with rfl | rfl | rfl | rfl | rfl | rfl | rfl | rfl | rfl | rfl | rfl | rfl | rfl | rfl | rfl | rfl | rfl | rfl | rfl | rfl <;> simp
theorem timingRules_pending (via : Via) (e : Nat) (v : W64) : ∀ r ∈ timingRules via e v, ∀ s, (r.2 s).1.pending = s.pending := by
  simp only [timingRules, List.mem_cons, List.not_mem_nil, or_false]
  rintro r h s
  rcases h with rfl | rfl | rfl | rfl | rfl | rfl | rfl | rfl | rfl | rfl | rfl | rfl | rfl | rfl | rfl | rfl | rfl | rfl <;> simp
theorem moduleRules_pending (e : Nat) (v : W64) : ∀ r ∈ moduleRules e v, ∀ s, (r.2 s).1.pending = s.pending := by
  simp only [moduleRules, List.mem_cons, List.not_mem_nil, or_false]
  rintro r h s
  rcases h with rfl | rfl | rfl | rfl | rfl | rfl | rfl | rfl | rfl | rfl | rfl | rfl | rfl <;> simp
theorem callerRules_pending (e : Nat) (v : W64) : ∀ r ∈ callerRules e v, ∀ s, (r.2 s).1.pending = s.pending := by
  simp only [callerRules, List.mem_cons, List.not_mem_nil, or_false]
  rintro r h s
  rcases h with rfl | rfl | rfl <;> simp
@[simp] theorem ruleOf_pending (via : Via) (o : ObjInfo) (e : Nat) (v : W64) (s : State) : (ruleOf via o e v s).1.pending = s.pending := by
  unfold ruleOf
  cases h : (linkRules e v ++ sequencerRules e v ++ acquisitionRules e v ++ benchRules via e v ++ queueRules e v ++ timingRules via e v
      ++ moduleRules e v ++ callerRules e v).find? (fun r => decide (r.1.base = o.base)) with
  | none => exact setAct_pending ..
  | some r =>
    have hm := List.mem_of_find?_eq_some h
    simp only [List.mem_append] at hm
    rcases hm with ((((((hm | hm) | hm) | hm) | hm) | hm) | hm) | hm
    · exact linkRules_pending e v r hm s
    · exact sequencerRules_pending e v r hm s
    · exact acquisitionRules_pending e v r hm s
    · exact benchRules_pending via e v r hm s
    · exact queueRules_pending e v r hm s
    · exact timingRules_pending via e v r hm s
    · exact moduleRules_pending e v r hm s
    · exact callerRules_pending e v r hm s
@[simp] theorem readTime96_pending (via : Via) (o : ObjInfo) (e : Nat) (lo hi : W64) (s : State) :
    (readTime96 via o e lo hi s).1.pending = s.pending := by unfold readTime96; dsimp only; (repeat' split) <;> (try simp only [])
@[simp] theorem readCcValue_pending (via0 : Via) (e : Nat) (s : State) :
    (readCcValue via0 e s).1.pending = s.pending := by unfold readCcValue; dsimp only; (repeat' split) <;> (try simp only [])
@[simp] theorem readAct_pending (via : Via) (o : ObjInfo) (e : Nat) (s : State) :
    (readAct via o e s).1.pending = s.pending := by simp only [readAct, qPopAct_pending, readTime96_pending, readCcValue_pending, ite_fst_pending, ite_self]
@[simp] theorem relayWriteAct_pending (via : Via) (e : Nat) (v : W64) (s : State) :
    (relayWriteAct via e v s).1.pending = s.pending := by unfold relayWriteAct; dsimp only; (repeat' split) <;> (try simp only [dictWrite_pending, takeCas_pending, relayAdvance_pending, ruleOf_pending])
@[simp] theorem relayReadAct_pending (via : Via) (e : Nat) (s : State) :
    (relayReadAct via e s).1.pending = s.pending := by unfold relayReadAct; dsimp only; (repeat' split) <;> (try simp only [relayAdvance_pending, readAct_pending])
@[simp] theorem writeElem_pending (via : Via) (o : ObjInfo) (e : Nat) (v : W64) (s : State) : (writeElem via o e v s).1.pending = s.pending := by
  unfold writeElem
  split
  · exact relayWriteAct_pending ..
  · exact ruleOf_pending ..
@[simp] theorem readElem_pending (via : Via) (o : ObjInfo) (e : Nat) (s : State) : (readElem via o e s).1.pending = s.pending := by
  unfold readElem
  split
  · exact relayReadAct_pending ..
  · exact readAct_pending ..
@[simp] theorem actAll_pending (via : Via) (o : ObjInfo) (l : List (Nat × W64)) (s : State) : (actAll via o l s).1.pending = s.pending := by
  induction l generalizing s with
  | nil => rfl
  | cons p t ih =>
    unfold actAll
    dsimp only
    split
    · rw [ih, writeElem_pending]
    · rw [writeElem_pending]
@[simp] theorem writeMany_pending (via : Via) (expect : Option (BitVec 32)) (o : ObjInfo) (l : List (Nat × W64)) (s : State) :
    (writeMany via expect o l s).1.pending = s.pending := by unfold writeMany; (repeat' split) <;> (try simp only [State.bump_pending, noteRefusal_pending, dictWrite_pending, writeElem_pending, actAll_pending, ite_fst_pending, ite_self])
@[simp] theorem readAll_pending (via : Via) (o : ObjInfo) (l : List Nat) (s : State) : (readAll via o l s).1.pending = s.pending := by
  induction l generalizing s with
  | nil => rfl
  | cons e t ih =>
    unfold readAll
    dsimp only
    split
    · rw [ih, readElem_pending]
    · rw [readElem_pending]
@[simp] theorem readMany_pending (via : Via) (o : ObjInfo) (l : List Nat) (s : State) : (readMany via o l s).1.pending = s.pending := by
  unfold readMany
  split
  · dsimp only
    split
    · rw [readAll_pending]
    · rfl
  · rfl

/-! ## Vdp -/

@[simp] theorem readRequest_pending (via : Via) (ref : W64) (count : Nat) (s : State) :
    (readRequest via ref count s).1.pending = s.pending := by unfold readRequest; (repeat' split) <;> (try simp only [readMany_pending])
@[simp] theorem writeRequest_pending (via : Via) (ref : W64) (expect : Option (BitVec 32)) (vals : List W64) (s : State) :
    (writeRequest via ref expect vals s).1.pending = s.pending := by unfold writeRequest; (repeat' split) <;> (try simp only [relaySpends_pending, spendCas_pending, takeCas_pending, writeMany_pending])
theorem vdpRequest_pending (slot : Nat) (id : BitVec 32) (q : Asked) (act : State → State × Answer) (s : State)
    (h : ∀ t, (act t).1.pending = t.pending) : (vdpRequest slot id q act s).pending = s.pending := by
  unfold vdpRequest
  split
  · rfl
  · dsimp only
    split
    · rw [respond_pending, State.setSession_pending]
    · rw [respond_pending]
      split
      · rw [h, State.setSession_pending]
      · rw [State.setSession_pending, h, State.setSession_pending]
@[simp] theorem closeRequest_pending (slot : Nat) (id : BitVec 32) (s : State) :
    (closeRequest slot id s).pending = s.pending := by unfold closeRequest; (repeat' split) <;> (try simp only [closeSession_pending, vdpRequest_pending, implies_true])
@[simp] theorem subscribeRequest_pending (slot : Fin 64) (ref : W64) (count interval : Nat) (periodic : Bool) (s : State) :
    (subscribeRequest slot ref count interval periodic s).1.pending = s.pending := by unfold subscribeRequest; (repeat' split) <;> (try simp only [State.setSession_pending, ite_fst_pending, ite_self])
@[simp] theorem endSub_pending (slot k : Nat) (s : State) :
    (endSub slot k s).pending = s.pending := by unfold endSub; (repeat' split) <;> (try simp only [State.setSession_pending])
@[simp] theorem unsubscribeRequest_pending (slot k : Nat) (s : State) :
    (unsubscribeRequest slot k s).1.pending = s.pending := by unfold unsubscribeRequest; (repeat' split) <;> (try simp only [endSub_pending])
@[simp] theorem notifySub_pending (slot : Fin 64) (u : Sub) (s : State) :
    (notifySub slot u s).pending = s.pending := by unfold notifySub; dsimp only; (repeat' split) <;> (try simp only [State.setSession_pending, advanceTo_pending, sendNotify_pending, endSub_pending])
@[simp] theorem writeResponse_pending (f : Nat) (seq : BitVec 32) (st orig : Status) (counter : BitVec 32) (vals : List W64) (s : State) :
    (writeResponse f seq st orig counter vals s).pending = s.pending := by simp only [writeResponse, State.setEl_pending, foldl_pending, implies_true]
@[simp] theorem mbxRequest_pending (f : Fin 1024) (s : State) :
    (mbxRequest f s).1.pending = s.pending := by simp only [mbxRequest, readRequest_pending, writeRequest_pending, ite_fst_pending, ite_self]
@[simp] theorem mbxSubmitAct_pending (f : Fin 1024) (v : W64) (s : State) :
    (mbxSubmitAct f v s).1.pending = s.pending := by unfold mbxSubmitAct; dsimp only; (repeat' split) <;> (try simp only [State.modFunc_pending, writeResponse_pending, mbxRequest_pending])

/-! ## Rom -/

@[simp] theorem romRead_pending (f : Nat) (off : StoreOffset) (len : Nat) (s : State) :
    (romRead f off len s).pending = s.pending := by simp only [romRead, State.send_pending, enabledBytes_pending, ite_pending, ite_self]

/-! ## Windows -/

@[simp] theorem writePlace_pending (via : Via) (o : ObjInfo) (e : Nat) (v : W64) (s : State) : (writePlace via o e v s).1.pending = s.pending := by
  unfold writePlace
  split
  · split
    · exact mbxSubmitAct_pending ..
    · rfl
  · exact writeElem_pending ..
@[simp] theorem writeAt_pending (via : Via) (obj e : Nat) (v : W64) (s : State) :
    (writeAt via obj e v s).pending = s.pending := by unfold writeAt; (repeat' split) <;> (try simp only [spendCas_pending, answerWrite_pending, cmdWrite_pending, writePlace_pending, implies_true])
@[simp] theorem readPart_pending (via : Via) (obj e : Nat) (cut : W64 → W64) (s : State) :
    (readPart via obj e cut s).pending = s.pending := by unfold readPart; (repeat' split) <;> (try simp only [answerRead_pending, cmdRead_pending, readElem_pending, implies_true])
@[simp] theorem readAt_pending (via : Via) (obj e : Nat) (s : State) :
    (readAt via obj e s).pending = s.pending := by simp only [readAt, readPart_pending]
@[simp] theorem ctlWriteNow_pending (f : Fin 1024) (off : Nat) (bytes : List Byte) (s : State) :
    (ctlWriteNow f off bytes s).pending = s.pending := by simp only [ctlWriteNow, spendCas_pending, answerWrite_pending, writeAt_pending, ite_pending, ite_self]
@[simp] theorem wCtlWrite_pending (f : Fin 1024) (off : Nat) (bytes : List Byte) (s : State) :
    (wCtlWrite f off bytes s).pending = s.pending := by simp only [wCtlWrite, postedWrite_pending, ctlWriteNow_pending]
@[simp] theorem elementReadNow_pending (via : Via) (obj : Nat) (p : ElemPart) (s : State) :
    (elementReadNow via obj p s).pending = s.pending := by unfold elementReadNow; (repeat' split) <;> (try simp only [State.send_pending, readPart_pending, readAt_pending])
@[simp] theorem elementRead_pending (via : Via) (obj : Nat) (p : ElemPart) (s : State) : (elementRead via obj p s).pending = s.pending := by
  unfold elementRead
  split
  · exact elementReadNow_pending ..
  · exact windowRead_pending _ _ _ _ (elementReadNow_pending ..)
@[simp] theorem relayAccess_pending (f : Fin 1024) (op : RelayOp) (s : State) :
    (relayAccess f op s).pending = s.pending := by unfold relayAccess; (repeat' split) <;> (try simp only [windowRead_pending, cmdWrite_pending, cmdRead_pending, relayWriteAct_pending, relayReadAct_pending, implies_true])
@[simp] theorem serviceAccess_pending (core : Fin 4) (inMap : Bool) (obj e : Nat) (wr : Option W64) (s : State) :
    (serviceAccess core inMap obj e wr s).pending = s.pending := by unfold serviceAccess; (repeat' split) <;> (try simp only [raiseError_pending, writeAt_pending, readAt_pending])
@[simp] theorem windowReadNow_pending (f : Nat) (off : StoreOffset) (len : Nat) (s : State) :
    (windowReadNow f off len s).pending = s.pending := by unfold windowReadNow; (repeat' split) <;> (try simp only [State.send_pending, storeReadNow_pending, romRead_pending])
@[simp] theorem performAccess_pending (f : Nat) (a : HostAccess) (s : State) :
    (performAccess f a s).pending = s.pending := by unfold performAccess; (repeat' split) <;> (try simp only [writeNow_pending, storeWriteNow_pending, dblNow_pending, writePlace_pending, ctlWriteNow_pending, elementReadNow_pending, windowReadNow_pending, implies_true])
@[simp] theorem performFirst_pending (f : Nat) (a : HostAccess) (s : State) :
    (performFirst f a s).pending = s.pending := by simp only [performFirst, performAccess_pending]
@[simp] theorem releaseHeld_pending (f n : Nat) (pkt : Option Nat) (s : State) : (releaseHeld f n pkt s).2.pending = s.pending := by
  induction n generalizing pkt s with
  | zero => rfl
  | succ n ih =>
    unfold releaseHeld
    split
    · rfl
    · dsimp only
      split
      · split
        · rfl
        · rw [ih, storeRead_pending, State.dropHeld_pending]
      · rw [ih, performFirst_pending, State.dropHeld_pending]
      · split
        · rw [ih, State.inc_pending, State.dropHeld_pending]
        · split
          · rw [ih, stagePiece_pending, State.dropHeld_pending]
          · split
            · rfl
            · rw [ih, stagePiece_pending, State.dropHeld_pending]
@[simp] theorem grantHeld_pending (f id : Nat) (s : State) : (grantHeld f id s).pending = s.pending := by
  unfold grantHeld
  have h := releaseHeld_pending f s.held.length (some id) s
  split <;> rename_i e <;> rw [e] at h
  · exact h
  · rw [releaseLink_pending]; exact h
@[simp] theorem releaseFree_pending (s : State) :
    (releaseFree s).pending = s.pending := by simp only [releaseFree, releaseHeld_pending, foldl_pending, implies_true]
@[simp] theorem speedChangeDone_pending (s : State) :
    (speedChangeDone s).pending = s.pending := by simp only [speedChangeDone, speedDone_pending, releaseFree_pending, ite_pending, ite_self]
@[simp] theorem grantBid_pending (x : Bid) (s : State) :
    (grantBid x s).pending = s.pending := by unfold grantBid; (repeat' split) <;> (try simp only [grantPacket_pending, State.setRotor_pending, keepGrant_pending, goldAsk_pending, postService_pending, grantHeld_pending])
@[simp] theorem roundGo_pending (n budget : Nat) (bids : List Bid) (s : State) : (roundGo n budget bids s).pending = s.pending := by
  induction n generalizing budget bids s with
  | zero => rfl
  | succ n ih =>
    rw [roundGo]; split
    · rfl
    · dsimp only; split
      · rw [ih, grantBid_pending]
      · rw [ih, noteRefused_pending, refusedCell_pending]
@[simp] theorem allocRound_pending (reqs : List AllocReq) (s : State) :
    (allocRound reqs s).pending = s.pending := by simp only [allocRound, releaseFree_pending, roundGo_pending]

/-! ## Exec -/

theorem execTrigIoPulseEnd_pending (n : Fin 4) (s : State) (u' : State) (h : execTrigIoPulseEnd n s = .next u') :
    u'.pending = s.pending := by
  unfold execTrigIoPulseEnd at h
  injection h with h; subst h; try simp only [pulseEnds_pending]
theorem execQuenchCmd_pending (via : Via) (b : Nat) (v : W64) (s : State) (u' : State) (h : execQuenchCmd via b v s = .next u') :
    u'.pending = s.pending := by
  unfold execQuenchCmd at h
  injection h with h; subst h; try simp only [cmdWrite_pending, quenchCmdAct_pending, implies_true]
theorem execResumeCmd_pending (via : Via) (b : Nat) (v : W64) (s : State) (u' : State) (h : execResumeCmd via b v s = .next u') :
    u'.pending = s.pending := by
  unfold execResumeCmd at h
  injection h with h; subst h; try simp only [cmdWrite_pending, resumeCmdAct_pending, implies_true]
theorem execQuenchReport_pending (l : Fin 256) (hdr : W40) (pay : List W40) (s : State) (u' : State) (h : execQuenchReport l hdr pay s = .next u') :
    u'.pending = s.pending := by
  unfold execQuenchReport at h
  injection h with h; subst h; try simp only [quenchReport_pending]
theorem execQuenchReportWindowClose_pending (b : Fin 1024) (s : State) (u' : State) (h : execQuenchReportWindowClose b s = .next u') :
    u'.pending = s.pending := by
  unfold execQuenchReportWindowClose at h
  injection h with h; subst h; try simp only [windowCloses_pending]
theorem execAck_pending (l : Fin 256) (hdr : W40) (u1 : List W40) (s : State) (u' : State) (h : execAck l hdr u1 s = .next u') :
    u'.pending = s.pending := by
  unfold execAck at h
  injection h with h; subst h; try simp only [ackFrame_pending]
theorem execQClaim_pending (via : Via) (b : Nat) (v : W64) (s : State) (u' : State) (h : execQClaim via b v s = .next u') :
    u'.pending = s.pending := by
  unfold execQClaim at h
  injection h with h; subst h; try simp only [cmdWrite_pending, qClaimAct_pending, implies_true]
theorem execQRelease_pending (via : Via) (b : Nat) (v : W64) (s : State) (u' : State) (h : execQRelease via b v s = .next u') :
    u'.pending = s.pending := by
  unfold execQRelease at h
  injection h with h; subst h; try simp only [cmdWrite_pending, qReleaseAct_pending, implies_true]
theorem execQFlush_pending (via : Via) (q : Nat) (v : W64) (s : State) (u' : State) (h : execQFlush via q v s = .next u') :
    u'.pending = s.pending := by
  unfold execQFlush at h
  injection h with h; subst h; try simp only [cmdWrite_pending, qFlushAct_pending, implies_true]
theorem execQReset_pending (via : Via) (q : Nat) (v : W64) (s : State) (u' : State) (h : execQReset via q v s = .next u') :
    u'.pending = s.pending := by
  unfold execQReset at h
  injection h with h; subst h; try simp only [cmdWrite_pending, qResetAct_pending, implies_true]
theorem execQPop_pending (via : Via) (q : Nat) (s : State) (u' : State) (h : execQPop via q s = .next u') :
    u'.pending = s.pending := by
  unfold execQPop at h
  (try dsimp only at h); (repeat' split at h) <;> (injection h with h; subst h; try simp only [windowRead_pending, cmdRead_pending, qPopAct_pending, implies_true])
theorem execQueuePointer_pending (target : PtrTarget) (s : State) (u' : State) (h : execQueuePointer target s = .next u') :
    u'.pending = s.pending := by
  unfold execQueuePointer at h
  split at h
  · rw [← Host.Outcome.next.inj h, forceQueue_pending]
  · rw [← Host.Outcome.next.inj h, forceList_pending]
theorem execQueueResetSweepDone_pending (q : Fin 16384) (s : State) (u' : State) (h : execQueueResetSweepDone q s = .next u') :
    u'.pending = s.pending := by
  unfold execQueueResetSweepDone at h
  injection h with h; subst h; try simp only [sweepDone_pending]
theorem execFreeList_pending (s : State) (u' : State) (h : execFreeList s = .next u') :
    u'.pending = s.pending := by
  unfold execFreeList at h
  injection h with h; subst h; try simp only [enterRecovery_pending, raiseError_pending]
theorem execPoolUe_pending (bank : Fin 8) (s : State) (u' : State) (h : execPoolUe bank s = .next u') :
    u'.pending = s.pending := by
  unfold execPoolUe at h
  injection h with h; subst h; try simp only [poolError_pending]
theorem execQuiesceDrainTimeout_pending (s : State) (u' : State) (h : execQuiesceDrainTimeout s = .next u') :
    u'.pending = s.pending := by
  unfold execQuiesceDrainTimeout at h
  (repeat' split at h) <;> (injection h with h; subst h; try simp only [advanceTo_pending, discardDrains_pending])
theorem execPlanisherRow_pending (b : Fin 1024) (s : State) (u' : State) (h : execPlanisherRow b s = .next u') :
    u'.pending = s.pending := by
  unfold execPlanisherRow at h
  injection h with h; subst h; try simp only [planNext_pending]
theorem execJournalEntrySealed_pending (s : State) (u' : State) (h : execJournalEntrySealed s = .next u') :
    u'.pending = s.pending := by
  unfold execJournalEntrySealed at h
  injection h with h; subst h; try simp only [journalSealed_pending]
theorem execFlashProgramComplete_pending (s : State) (u' : State) (h : execFlashProgramComplete s = .next u') :
    u'.pending = s.pending := by
  unfold execFlashProgramComplete at h
  injection h with h; subst h; try simp only [contentProgram_pending]
theorem execRankRetire_pending (via : Via) (v : W64) (s : State) (u' : State) (h : execRankRetire via v s = .next u') :
    u'.pending = s.pending := by
  unfold execRankRetire at h
  injection h with h; subst h; try simp only [cmdWrite_pending, rankRetireAct_pending, implies_true]
theorem execStoreSpeed_pending (via : Via) (v : W64) (s : State) (u' : State) (h : execStoreSpeed via v s = .next u') :
    u'.pending = s.pending := by
  unfold execStoreSpeed at h
  injection h with h; subst h; try simp only [cmdWrite_pending, storeSpeedAct_pending, implies_true]
theorem execDelayLoad_pending (via : Via) (v : W64) (s : State) (u' : State) (h : execDelayLoad via v s = .next u') :
    u'.pending = s.pending := by
  unfold execDelayLoad at h
  injection h with h; subst h; try simp only [cmdWrite_pending, delayLoadAct_pending, implies_true]
theorem execTempBandChange_pending (stack : Fin 8) (milliC : Int) (s : State) (u' : State) (h : execTempBandChange stack milliC s = .next u') :
    u'.pending = s.pending := by
  unfold execTempBandChange at h
  injection h with h; subst h; try simp only [bandChange_pending]
theorem execStoreCellAccess_pending (chan : Fin 256) (burstErrs : CellAccess) (s : State) (u' : State) (h : execStoreCellAccess chan burstErrs s = .next u') :
    u'.pending = s.pending := by
  unfold execStoreCellAccess at h
  (try dsimp only at h); (repeat' split at h) <;> (injection h with h; subst h; try simp only [cellAccess_pending])
theorem execRefresh_pending (chan : Fin 256) (rank : Fin 4) (bank : Fin 32) (s : State) (u' : State) (h : execRefresh chan rank bank s = .next u') :
    u'.pending = s.pending := by
  unfold execRefresh at h
  injection h with h; subst h; try simp only [refreshBank_pending]
theorem execPoisonListClear_pending (via : Via) (v : W64) (s : State) (u' : State) (h : execPoisonListClear via v s = .next u') :
    u'.pending = s.pending := by
  unfold execPoisonListClear at h
  injection h with h; subst h; try simp only [cmdWrite_pending, poisonClearAct_pending, implies_true]
theorem execMigrationChunk_pending (targetError : ChunkCopy) (s : State) (u' : State) (h : execMigrationChunk targetError s = .next u') :
    u'.pending = s.pending := by
  unfold execMigrationChunk at h
  (try dsimp only at h); (repeat' split at h) <;> (injection h with h; subst h; try simp only [migStep_pending])
theorem execGoldIngots_pending (via : Via) (b : Nat) (v : W64) (s : State) (u' : State) (h : execGoldIngots via b v s = .next u') :
    u'.pending = s.pending := by
  unfold execGoldIngots at h
  injection h with h; subst h; try simp only [cmdWrite_pending, goldIngotsAct_pending, implies_true]
theorem execGoldSeal_pending (via : Via) (a : Nat) (v : W64) (s : State) (u' : State) (h : execGoldSeal via a v s = .next u') :
    u'.pending = s.pending := by
  unfold execGoldSeal at h
  injection h with h; subst h; try simp only [cmdWrite_pending, goldSealAct_pending, implies_true]
theorem execGoldSealDone_pending (a : SealRead) (s : State) (u' : State) (h : execGoldSealDone a s = .next u') :
    u'.pending = s.pending := by
  unfold execGoldSealDone at h
  (try dsimp only at h); (repeat' split at h) <;> (injection h with h; subst h; try simp only [sealDone_pending])
theorem execAssayCompare_pending (a : Fin 4) (inHand : Bool) (s : State) (u' : State) (h : execAssayCompare a inHand s = .next u') :
    u'.pending = s.pending := by
  unfold execAssayCompare at h
  injection h with h; subst h; try simp only [assayCompare_pending]
theorem execBenchFault_pending (b : Fin 1024) (cause : FaultCause) (s : State) (u' : State) (h : execBenchFault b cause s = .next u') :
    u'.pending = s.pending := by
  unfold execBenchFault at h
  (try dsimp only at h); (repeat' split at h) <;> (injection h with h; subst h; try simp only [benchFaults_pending])
theorem execQuiesceDisarmTimeout_pending (b : Fin 1024) (s : State) (u' : State) (h : execQuiesceDisarmTimeout b s = .next u') :
    u'.pending = s.pending := by
  unfold execQuiesceDisarmTimeout at h
  (try dsimp only at h); (repeat' split at h) <;> (injection h with h; subst h; try simp only [advanceTo_pending, benchFaults_pending, quiesceAfterRow_pending])
theorem execLockAcquire_pending (via : Via) (k : Nat) (v : W64) (s : State) (u' : State) (h : execLockAcquire via k v s = .next u') :
    u'.pending = s.pending := by
  unfold execLockAcquire at h
  injection h with h; subst h; try simp only [cmdWrite_pending, lockAcquireAct_pending, implies_true]
theorem execLockRelease_pending (via : Via) (k : Nat) (v : W64) (s : State) (u' : State) (h : execLockRelease via k v s = .next u') :
    u'.pending = s.pending := by
  unfold execLockRelease at h
  injection h with h; subst h; try simp only [cmdWrite_pending, lockReleaseAct_pending, implies_true]
theorem execLockRenew_pending (via : Via) (k : Nat) (v : W64) (s : State) (u' : State) (h : execLockRenew via k v s = .next u') :
    u'.pending = s.pending := by
  unfold execLockRenew at h
  injection h with h; subst h; try simp only [cmdWrite_pending, lockRenewAct_pending, implies_true]
theorem execLockBreak_pending (via : Via) (k : Nat) (v : W64) (s : State) (u' : State) (h : execLockBreak via k v s = .next u') :
    u'.pending = s.pending := by
  unfold execLockBreak at h
  injection h with h; subst h; try simp only [cmdWrite_pending, lockBreakAct_pending, implies_true]
theorem execLockLeaseExpiry_pending (k : Fin 256) (s : State) (u' : State) (h : execLockLeaseExpiry k s = .next u') :
    u'.pending = s.pending := by
  unfold execLockLeaseExpiry at h
  injection h with h; subst h; try simp only [leaseExpires_pending]
theorem execArm_pending (via : Via) (b : Nat) (s : State) (u' : State) (h : execArm via b s = .next u') :
    u'.pending = s.pending := by
  unfold execArm at h
  injection h with h; subst h; try simp only [cmdWrite_pending, tryArm_pending, implies_true]
theorem execDisarm_pending (via : Via) (b : Nat) (s : State) (u' : State) (h : execDisarm via b s = .next u') :
    u'.pending = s.pending := by
  unfold execDisarm at h
  injection h with h; subst h; try simp only [cmdWrite_pending, notFree_pending, disarmAct_pending, implies_true]
theorem execClearFault_pending (via : Via) (b : Nat) (s : State) (u' : State) (h : execClearFault via b s = .next u') :
    u'.pending = s.pending := by
  unfold execClearFault at h
  injection h with h; subst h; try simp only [cmdWrite_pending, notFree_pending, clearFaultAct_pending, implies_true]
theorem execReset_pending (via : Via) (b : Nat) (s : State) (u' : State) (h : execReset via b s = .next u') :
    u'.pending = s.pending := by
  unfold execReset at h
  injection h with h; subst h; try simp only [cmdWrite_pending, notFree_pending, resetAct_pending, implies_true]
theorem execBenchResetDone_pending (b : Fin 1024) (s : State) (u' : State) (h : execBenchResetDone b s = .next u') :
    u'.pending = s.pending := by
  unfold execBenchResetDone at h
  (repeat' split at h) <;> (injection h with h; subst h; try simp only [State.setBenchState_pending])
theorem execArmAt_pending (via : Via) (b : Nat) (v : W64) (s : State) (u' : State) (h : execArmAt via b v s = .next u') :
    u'.pending = s.pending := by
  unfold execArmAt at h
  injection h with h; subst h; try simp only [cmdWrite_pending, armAtAct_pending, implies_true]
theorem execDisarmAt_pending (via : Via) (b : Nat) (v : W64) (s : State) (u' : State) (h : execDisarmAt via b v s = .next u') :
    u'.pending = s.pending := by
  unfold execDisarmAt at h
  injection h with h; subst h; try simp only [cmdWrite_pending, disarmAtAct_pending, implies_true]
theorem execScheduledArm_pending (b : Fin 1024) (s : State) (u' : State) (h : execScheduledArm b s = .next u') :
    u'.pending = s.pending := by
  unfold execScheduledArm at h
  injection h with h; subst h; try simp only [scheduledArm_pending]
theorem execScheduledDisarm_pending (b : Fin 1024) (s : State) (u' : State) (h : execScheduledDisarm b s = .next u') :
    u'.pending = s.pending := by
  unfold execScheduledDisarm at h
  injection h with h; subst h; try simp only [scheduledDisarm_pending]
theorem execCommit_pending (via : Via) (b : Nat) (s : State) (u' : State) (h : execCommit via b s = .next u') :
    u'.pending = s.pending := by
  unfold execCommit at h
  injection h with h; subst h; try simp only [cmdWrite_pending, commitAct_pending, implies_true]
theorem execCommitCancel_pending (via : Via) (b : Nat) (s : State) (u' : State) (h : execCommitCancel via b s = .next u') :
    u'.pending = s.pending := by
  unfold execCommitCancel at h
  injection h with h; subst h; try simp only [cmdWrite_pending, commitCancelAct_pending, implies_true]
theorem execCommitBroadcast_pending (b : Fin 1024) (s : State) (u' : State) (h : execCommitBroadcast b s = .next u') :
    u'.pending = s.pending := by
  unfold execCommitBroadcast at h
  injection h with h; subst h; try simp only [commitBroadcast_pending]
theorem execPartMissing_pending (l : Fin 256) (d : Fin 256) (stamp : W40) (s : State) (u' : State) (h : execPartMissing l d stamp s = .next u') :
    u'.pending = s.pending := by
  unfold execPartMissing at h
  injection h with h; subst h; try simp only [partMissing_pending]
theorem execRowEmit_pending (design : W64) (d : Fin 256) (stamp : W40) (s : State) (u' : State) (h : execRowEmit design d stamp s = .next u') :
    u'.pending = s.pending := by
  unfold execRowEmit at h
  injection h with h; subst h; try simp only [rowEmit_pending]
theorem execStalled_pending (l : Fin 256) (s : State) (u' : State) (h : execStalled l s = .next u') :
    u'.pending = s.pending := by
  unfold execStalled at h
  injection h with h; subst h; try simp only [stalled_pending]
theorem execTileGate_pending (via : Via) (tile : Nat) (s : State) (u' : State) (h : execTileGate via tile s = .next u') :
    u'.pending = s.pending := by
  unfold execTileGate at h
  injection h with h; subst h; try simp only [cmdWrite_pending, tilePowerAct_pending, implies_true]
theorem execTileUngate_pending (via : Via) (tile : Nat) (s : State) (u' : State) (h : execTileUngate via tile s = .next u') :
    u'.pending = s.pending := by
  unfold execTileUngate at h
  injection h with h; subst h; try simp only [cmdWrite_pending, tilePowerAct_pending, implies_true]
theorem execTileGated_pending (tile : Fin 16) (s : State) (u' : State) (h : execTileGated tile s = .next u') :
    u'.pending = s.pending := by
  unfold execTileGated at h
  injection h with h; subst h; try simp only [tileGated_pending]
theorem execTileOn_pending (tile : Fin 16) (s : State) (u' : State) (h : execTileOn tile s = .next u') :
    u'.pending = s.pending := by
  unfold execTileOn at h
  injection h with h; subst h; try simp only [tileIsOn_pending]
theorem execPortEnable_pending (via : Via) (p : Nat) (v : W64) (s : State) (u' : State) (h : execPortEnable via p v s = .next u') :
    u'.pending = s.pending := by
  unfold execPortEnable at h
  injection h with h; subst h; try simp only [cmdWrite_pending, portEnableAct_pending, implies_true]
theorem execClearCounters_pending (via : Via) (p : Nat) (v : W64) (s : State) (u' : State) (h : execClearCounters via p v s = .next u') :
    u'.pending = s.pending := by
  unfold execClearCounters at h
  injection h with h; subst h; try simp only [cmdWrite_pending, clearCountersAct_pending, implies_true]
theorem execSendDescReq_pending (via : Via) (p : Nat) (v : W64) (s : State) (u' : State) (h : execSendDescReq via p v s = .next u') :
    u'.pending = s.pending := by
  unfold execSendDescReq at h
  injection h with h; subst h; try simp only [cmdWrite_pending, sendDescReqAct_pending, implies_true]
theorem execRealign_pending (via : Via) (p : Nat) (v : W64) (s : State) (u' : State) (h : execRealign via p v s = .next u') :
    u'.pending = s.pending := by
  unfold execRealign at h
  injection h with h; subst h; try simp only [cmdWrite_pending, realignAct_pending, implies_true]
theorem execSignalDetect_pending (l : Fin 256) (s : State) (u' : State) (h : execSignalDetect l s = .next u') :
    u'.pending = s.pending := by
  unfold execSignalDetect at h
  injection h with h; subst h; try simp only [signalDetect_pending]
theorem execCodewordDecode_pending (l : Fin 256) (t badSyms : Nat) (cwSeq : BitVec 10) (txState : BitVec 2) (inverted : Bool) (s : State) (u' : State) (h : execCodewordDecode l t badSyms cwSeq txState inverted s = .next u') :
    u'.pending = s.pending := by
  unfold execCodewordDecode at h
  injection h with h; subst h; try simp only [codewordDecode_pending]
theorem execCodewordPeriodMissed_pending (l : Fin 256) (s : State) (u' : State) (h : execCodewordPeriodMissed l s = .next u') :
    u'.pending = s.pending := by
  unfold execCodewordPeriodMissed at h
  injection h with h; subst h; try simp only [codewordPeriodMissed_pending]
theorem execDataFrame_pending (l : Fin 256) (t : Nat) (hdr : W40) (pay : List W40) (s : State) (u' : State) (h : execDataFrame l t hdr pay s = .next u') :
    u'.pending = s.pending := by
  unfold execDataFrame at h
  injection h with h; subst h; try simp only [dataFrame_pending]
theorem execMarkerFrame_pending (l : Fin 256) (t : Nat) (slot : Fin 4) (hdr : W40) (pay : List W40) (s : State) (u' : State) (h : execMarkerFrame l t slot hdr pay s = .next u') :
    u'.pending = s.pending := by
  unfold execMarkerFrame at h
  injection h with h; subst h; try simp only [markerFrame_pending]
theorem execGroupMap_pending (l : Fin 256) (hdr : W40) (pay : List W40) (s : State) (u' : State) (h : execGroupMap l hdr pay s = .next u') :
    u'.pending = s.pending := by
  unfold execGroupMap at h
  injection h with h; subst h; try simp only [groupMap_pending]
theorem execDescriptor_pending (l : Fin 256) (hdr : W40) (pay : List W40) (s : State) (u' : State) (h : execDescriptor l hdr pay s = .next u') :
    u'.pending = s.pending := by
  unfold execDescriptor at h
  injection h with h; subst h; try simp only [descriptorFrame_pending]
theorem execTimeEcho_pending (l : Fin 256) (t : Nat) (hdr : W40) (pay : List W40) (s : State) (u' : State) (h : execTimeEcho l t hdr pay s = .next u') :
    u'.pending = s.pending := by
  unfold execTimeEcho at h
  injection h with h; subst h; try simp only [timeEcho_pending]
theorem execTime_pending (l : Fin 256) (s : State) (u' : State) (h : execTime l s = .next u') :
    u'.pending = s.pending := by
  unfold execTime at h
  injection h with h; subst h; try simp only [sendTime_pending]
theorem execCredit_pending (l : Fin 256) (s : State) (u' : State) (h : execCredit l s = .next u') :
    u'.pending = s.pending := by
  unfold execCredit at h
  injection h with h; subst h; try simp only [creditMessage_pending]
theorem execDescReqRetry_pending (l : Fin 256) (s : State) (u' : State) (h : execDescReqRetry l s = .next u') :
    u'.pending = s.pending := by
  unfold execDescReqRetry at h
  injection h with h; subst h; try simp only [descReqRetry_pending]
theorem execHuntTimeout_pending (l : Fin 256) (s : State) (u' : State) (h : execHuntTimeout l s = .next u') :
    u'.pending = s.pending := by
  unfold execHuntTimeout at h
  injection h with h; subst h; try simp only [huntTimeout_pending]
theorem execFramedTimeout_pending (l : Fin 256) (s : State) (u' : State) (h : execFramedTimeout l s = .next u') :
    u'.pending = s.pending := by
  unfold execFramedTimeout at h
  injection h with h; subst h; try simp only [framedTimeout_pending]
theorem execDescribedTimeout_pending (l : Fin 256) (s : State) (u' : State) (h : execDescribedTimeout l s = .next u') :
    u'.pending = s.pending := by
  unfold execDescribedTimeout at h
  injection h with h; subst h; try simp only [describedTimeout_pending]
theorem execFaultRetry_pending (l : Fin 256) (s : State) (u' : State) (h : execFaultRetry l s = .next u') :
    u'.pending = s.pending := by
  unfold execFaultRetry at h
  injection h with h; subst h; try simp only [faultRetry_pending]
theorem execAbsentTimeout_pending (l : Fin 256) (s : State) (u' : State) (h : execAbsentTimeout l s = .next u') :
    u'.pending = s.pending := by
  unfold execAbsentTimeout at h
  injection h with h; subst h; try simp only [absentTimeout_pending]
theorem execDegradedWindow_pending (l : Fin 256) (s : State) (u' : State) (h : execDegradedWindow l s = .next u') :
    u'.pending = s.pending := by
  unfold execDegradedWindow at h
  injection h with h; subst h; try simp only [degradedWindow_pending]
theorem execOwnershipRequest_pending (core : Fin 4) (line : Nat) (s : State) (u' : State) (h : execOwnershipRequest core line s = .next u') :
    u'.pending = s.pending := by
  unfold execOwnershipRequest at h
  injection h with h; subst h; try simp only [State.setLine_pending]
theorem execWriteBack_pending (core : Fin 4) (line : Nat) (s : State) (u' : State) (h : execWriteBack core line s = .next u') :
    u'.pending = s.pending := by
  unfold execWriteBack at h
  injection h with h; subst h; try simp only [State.setLine_pending]
theorem execLineMemoryDone_pending (line : Nat) (s : State) (u' : State) (h : execLineMemoryDone line s = .next u') :
    u'.pending = s.pending := by
  unfold execLineMemoryDone at h
  (try dsimp only at h); (repeat' split at h) <;> (injection h with h; subst h; try simp only [State.setLine_pending])
theorem execWStoreWrite_pending (f : Fin 1024) (off : Nat) (bytes : List Byte) (s : State) (u' : State) (h : execWStoreWrite f off bytes s = .next u') :
    u'.pending = s.pending := by
  unfold execWStoreWrite at h
  injection h with h; subst h; try simp only [storeWrite_pending]
theorem execStagingCellTimeout_pending (f : Fin 1024) (s : State) (u' : State) (h : execStagingCellTimeout f s = .next u') :
    u'.pending = s.pending := by
  unfold execStagingCellTimeout at h
  injection h with h; subst h; try simp only [stageTimeout_pending]
theorem execSelfRefreshEntry_pending (rank : Fin 32) (s : State) (u' : State) (h : execSelfRefreshEntry rank s = .next u') :
    u'.pending = s.pending := by
  unfold execSelfRefreshEntry at h
  injection h with h; subst h; try simp only [selfRefresh_pending]
theorem execFillReadCompletion_pending (f : Fin 1024) (ok : Bool) (bytes : List Byte) (s : State) (u' : State) (h : execFillReadCompletion f ok bytes s = .next u') :
    u'.pending = s.pending := by
  unfold execFillReadCompletion at h
  injection h with h; subst h; try simp only [fillCompletion_pending]
theorem execFillStart_pending (f : Fin 1024) (s : State) (u' : State) (h : execFillStart f s = .next u') :
    u'.pending = s.pending := by
  unfold execFillStart at h
  injection h with h; subst h; try simp only [cmdWrite_pending, fillStartAct_pending, implies_true]
theorem execFillAbort_pending (f : Fin 1024) (s : State) (u' : State) (h : execFillAbort f s = .next u') :
    u'.pending = s.pending := by
  unfold execFillAbort at h
  injection h with h; subst h; try simp only [cmdWrite_pending, fillAbortAct_pending, implies_true]
theorem execBusMasterEnableClear_pending (f : Fin 1024) (d3hot : Bool) (s : State) (u' : State) (h : execBusMasterEnableClear f d3hot s = .next u') :
    u'.pending = s.pending := by
  unfold execBusMasterEnableClear at h
  (repeat' split at h) <;> (injection h with h; subst h; try simp only [setMaster_pending])
theorem execBusMasterEnableSet_pending (f : Fin 1024) (s : State) (u' : State) (h : execBusMasterEnableSet f s = .next u') :
    u'.pending = s.pending := by
  unfold execBusMasterEnableSet at h
  (try dsimp only at h); (repeat' split at h) <;> (injection h with h; subst h; try simp only [setMaster_pending])
theorem execVfEnableClear_pending (h : Fin 4) (s : State) (u' : State) (h : execVfEnableClear h s = .next u') :
    u'.pending = s.pending := by
  unfold execVfEnableClear at h
  injection h with h; subst h; try simp only [clearVfs_pending]
theorem execFunctionLevelReset_pending (f : Fin 1024) (s : State) (u' : State) (h : execFunctionLevelReset f s = .next u') :
    u'.pending = s.pending := by
  unfold execFunctionLevelReset at h
  injection h with h; subst h; try simp only [resetFunc_pending]
theorem execHostPortReset_pending (h : Fin 4) (u1 : PortReset) (s : State) (u' : State) (h : execHostPortReset h u1 s = .next u') :
    u'.pending = s.pending := by
  unfold execHostPortReset at h
  injection h with h; subst h; try simp only [resetPort_pending]
theorem execHostLinkUp_pending (h : PortLands) (flit : Bool) (rate : Fin 8) (width : Fin 32) (s : State) (u' : State) (h : execHostLinkUp h flit rate width s = .next u') :
    u'.pending = s.pending := by
  unfold execHostLinkUp at h
  (try dsimp only at h); (repeat' split at h) <;> (injection h with h; subst h; try simp only [linkUp_pending])
theorem execMsixMessage_pending (f : Fin 1024) (vec : Fin 2048) (s : State) (u' : State) (h : execMsixMessage f vec s = .next u') :
    u'.pending = s.pending := by
  unfold execMsixMessage at h
  injection h with h; subst h; try simp only [pendingMessage_pending]
theorem execConfigurationRequest_pending (f : Fin 1024) (reg : Nat) (wr : Option (BitVec 32)) (s : State) (u' : State) (h : execConfigurationRequest f reg wr s = .next u') :
    u'.pending = s.pending := by
  unfold execConfigurationRequest at h
  injection h with h; subst h; try simp only [configRequest_pending]
theorem execIngotScrub_pending (b : Fin 1024) (ingot : Nat) (s : State) (u' : State) (h : execIngotScrub b ingot s = .next u') :
    u'.pending = s.pending := by
  unfold execIngotScrub at h
  injection h with h; subst h; try simp only [ingotScrub_pending]
theorem execPropSubmit_pending (via : Via) (v : W64) (s : State) (u' : State) (h : execPropSubmit via v s = .next u') :
    u'.pending = s.pending := by
  unfold execPropSubmit at h
  injection h with h; subst h; try simp only [cmdWrite_pending, propSubmitAct_pending, implies_true]
theorem execPropCountersign_pending (via : Via) (v : W64) (s : State) (u' : State) (h : execPropCountersign via v s = .next u') :
    u'.pending = s.pending := by
  unfold execPropCountersign at h
  injection h with h; subst h; try simp only [cmdWrite_pending, propCountersignAct_pending, implies_true]
theorem execPropCancel_pending (via : Via) (v : W64) (s : State) (u' : State) (h : execPropCancel via v s = .next u') :
    u'.pending = s.pending := by
  unfold execPropCancel at h
  injection h with h; subst h; try simp only [cmdWrite_pending, propCancelAct_pending, implies_true]
theorem execProposalApply_pending (s : State) (u' : State) (h : execProposalApply s = .next u') :
    u'.pending = s.pending := by
  unfold execProposalApply at h
  injection h with h; subst h; try simp only [proposalApply_pending]
theorem execQHost_pending (via : Via) (q : Nat) (v : W64) (s : State) (u' : State) (h : execQHost via q v s = .next u') :
    u'.pending = s.pending := by
  unfold execQHost at h
  injection h with h; subst h; try simp only [cmdWrite_pending, qHostAct_pending, implies_true]
theorem execDbCons_pending (f : Fin 1024) (off : Nat) (bytes : DblAccess) (s : State) (u' : State) (h : execDbCons f off bytes s = .next u') :
    u'.pending = s.pending := by
  unfold execDbCons at h
  (try dsimp only at h); (repeat' split at h) <;> (injection h with h; subst h; try simp only [dblRequest_pending])
theorem execDrainTransfer_pending (h : Fin 4) (s : State) (u' : State) (h : execDrainTransfer h s = .next u') :
    u'.pending = s.pending := by
  unfold execDrainTransfer at h
  injection h with h; subst h; try simp only [drainOnce_pending]
theorem execReadoutStart_pending (via : Via) (q : Nat) (s : State) (u' : State) (h : execReadoutStart via q s = .next u') :
    u'.pending = s.pending := by
  unfold execReadoutStart at h
  injection h with h; subst h; try simp only [cmdWrite_pending, readoutStartAct_pending, implies_true]
theorem execReadoutStop_pending (via : Via) (q : Nat) (s : State) (u' : State) (h : execReadoutStop via q s = .next u') :
    u'.pending = s.pending := by
  unfold execReadoutStop at h
  injection h with h; subst h; try simp only [cmdWrite_pending, readoutStopAct_pending, implies_true]
theorem execReadoutCell_pending (q : ReadoutCell) (s : State) (u' : State) (h : execReadoutCell q s = .next u') :
    u'.pending = s.pending := by
  unfold execReadoutCell at h
  (try dsimp only at h); (repeat' split at h) <;> (injection h with h; subst h; try simp only [readoutStep_pending])
theorem execInputInRange_pending (milliV : Nat) (s : State) (u' : State) (h : execInputInRange milliV s = .next u') :
    u'.pending = s.pending := by
  unfold execInputInRange at h
  injection h with h; subst h; try simp only [powerOn_pending]
theorem execPowerLoss_pending (s : State) (u' : State) (h : execPowerLoss s = .next u') :
    u'.pending = s.pending := by
  unfold execPowerLoss at h
  (try dsimp only at h); (repeat' split at h) <;> (injection h with h; subst h; try simp only [coldState_pending, lastPrograms_pending])
theorem execFwAuth_pending (ok0 ok1 : Bool) (s : State) (u' : State) (h : execFwAuth ok0 ok1 s = .next u') :
    u'.pending = s.pending := by
  unfold execFwAuth at h
  injection h with h; subst h; try simp only [bootAuth_pending]
theorem execBringupComplete_pending (s : State) (u' : State) (h : execBringupComplete s = .next u') :
    u'.pending = s.pending := by
  unfold execBringupComplete at h
  injection h with h; subst h; try simp only [bringupDone_pending]
theorem execIdleEntry_pending (s : State) (u' : State) (h : execIdleEntry s = .next u') :
    u'.pending = s.pending := by
  unfold execIdleEntry at h
  injection h with h; subst h; try simp only [idleEntry_pending]
theorem execEndExclusive_pending (via : Via) (s : State) (u' : State) (h : execEndExclusive via s = .next u') :
    u'.pending = s.pending := by
  unfold execEndExclusive at h
  injection h with h; subst h; try simp only [cmdWrite_pending, endExclusiveAct_pending, implies_true]
theorem execExclusive_pending (via : Via) (b : Fin 1024) (s : State) (u' : State) (h : execExclusive via b s = .next u') :
    u'.pending = s.pending := by
  unfold execExclusive at h
  injection h with h; subst h; try simp only [cmdWrite_pending, exclusiveAct_pending, implies_true]
theorem execQuiesceIdle_pending (via : Via) (s : State) (u' : State) (h : execQuiesceIdle via s = .next u') :
    u'.pending = s.pending := by
  unfold execQuiesceIdle at h
  injection h with h; subst h; try simp only [cmdWrite_pending, quiesceAct_pending, implies_true]
theorem execQuiesceOff_pending (via : Via) (s : State) (u' : State) (h : execQuiesceOff via s = .next u') :
    u'.pending = s.pending := by
  unfold execQuiesceOff at h
  injection h with h; subst h; try simp only [cmdWrite_pending, quiesceAct_pending, implies_true]
theorem execFactory_pending (via : Via) (s : State) (u' : State) (h : execFactory via s = .next u') :
    u'.pending = s.pending := by
  unfold execFactory at h
  injection h with h; subst h; try simp only [cmdWrite_pending, factoryAct_pending, implies_true]
theorem execQuiesceComplete_pending (s : State) (u' : State) (h : execQuiesceComplete s = .next u') :
    u'.pending = s.pending := by
  unfold execQuiesceComplete at h
  injection h with h; subst h; try simp only [quiesceDone_pending]
theorem execWarmReset_pending (via : Via) (v : W64) (s : State) (u' : State) (h : execWarmReset via v s = .next u') :
    u'.pending = s.pending := by
  unfold execWarmReset at h
  injection h with h; subst h; try simp only [cmdWrite_pending, warmResetAct_pending, implies_true]
theorem execSensorRead_pending (milliC : List Int) (milliV milliW : Nat) (s : State) (u' : State) (h : execSensorRead milliC milliV milliW s = .next u') :
    u'.pending = s.pending := by
  unfold execSensorRead at h
  injection h with h; subst h; try simp only [sensorRead_pending]
theorem execInputRange_pending (milliV : Nat) (s : State) (u' : State) (h : execInputRange milliV s = .next u') :
    u'.pending = s.pending := by
  unfold execInputRange at h
  injection h with h; subst h; try simp only [inputRange_pending]
theorem execRailFault_pending (rail : Nat) (s : State) (u' : State) (h : execRailFault rail s = .next u') :
    u'.pending = s.pending := by
  unfold execRailFault at h
  injection h with h; subst h; try simp only [railFault_pending]
theorem execErrAck_pending (via : Via) (src : Nat) (v : W64) (s : State) (u' : State) (h : execErrAck via src v s = .next u') :
    u'.pending = s.pending := by
  unfold execErrAck at h
  injection h with h; subst h; try simp only [cmdWrite_pending, errAckAct_pending, implies_true]
theorem execTileUe_pending (tile : Fin 16) (kind : TileError) (s : State) (u' : State) (h : execTileUe tile kind s = .next u') :
    u'.pending = s.pending := by
  unfold execTileUe at h
  (try dsimp only at h); (repeat' split at h) <;> (injection h with h; subst h; try simp only [tileError_pending])
theorem execTileReset_pending (via : Via) (tile : Nat) (v : W64) (s : State) (u' : State) (h : execTileReset via tile v s = .next u') :
    u'.pending = s.pending := by
  unfold execTileReset at h
  injection h with h; subst h; try simp only [cmdWrite_pending, tileResetAct_pending, implies_true]
theorem execTileTestDone_pending (tile : Fin 16) (pass : Bool) (s : State) (u' : State) (h : execTileTestDone tile pass s = .next u') :
    u'.pending = s.pending := by
  unfold execTileTestDone at h
  injection h with h; subst h; try simp only [tileTested_pending]
theorem execServiceWatchdog_pending (s : State) (u' : State) (h : execServiceWatchdog s = .next u') :
    u'.pending = s.pending := by
  unfold execServiceWatchdog at h
  injection h with h; subst h; try simp only [watchdog_pending]
theorem execServiceRestartDone_pending (s : State) (u' : State) (h : execServiceRestartDone s = .next u') :
    u'.pending = s.pending := by
  unfold execServiceRestartDone at h
  injection h with h; subst h; try simp only []
theorem execTestSlot_pending (kind : Fin 4) (unit : Nat) (found : TestOutcome) (s : State) (u' : State) (h : execTestSlot kind unit found s = .next u') :
    u'.pending = s.pending := by
  unfold execTestSlot at h
  (try dsimp only at h); (repeat' split at h) <;> (injection h with h; subst h; try simp only [testSlot_pending])
theorem execFwBegin_pending (via : Via) (v : W64) (s : State) (u' : State) (h : execFwBegin via v s = .next u') :
    u'.pending = s.pending := by
  unfold execFwBegin at h
  injection h with h; subst h; try simp only [cmdWrite_pending, fwBeginAct_pending, implies_true]
theorem execFwPage_pending (via : Via) (v : W64) (s : State) (u' : State) (h : execFwPage via v s = .next u') :
    u'.pending = s.pending := by
  unfold execFwPage at h
  injection h with h; subst h; try simp only [cmdWrite_pending, fwPageAct_pending, implies_true]
theorem execFwPageProgrammed_pending (s : State) (u' : State) (h : execFwPageProgrammed s = .next u') :
    u'.pending = s.pending := by
  unfold execFwPageProgrammed at h
  injection h with h; subst h; try simp only [pageDone_pending]
theorem execFwFinish_pending (via : Via) (v : W64) (s : State) (u' : State) (h : execFwFinish via v s = .next u') :
    u'.pending = s.pending := by
  unfold execFwFinish at h
  injection h with h; subst h; try simp only [cmdWrite_pending, fwFinishAct_pending, implies_true]
theorem execFwVerifyDone_pending (ok : Bool) (s : State) (u' : State) (h : execFwVerifyDone ok s = .next u') :
    u'.pending = s.pending := by
  unfold execFwVerifyDone at h
  injection h with h; subst h; try simp only [verified_pending]
theorem execOutApply_pending (via : Via) (v : W64) (s : State) (u' : State) (h : execOutApply via v s = .next u') :
    u'.pending = s.pending := by
  unfold execOutApply at h
  injection h with h; subst h; try simp only [cmdWrite_pending, outApplyAct_pending, implies_true]
theorem execSyncInEdge_pending (s : State) (u' : State) (h : execSyncInEdge s = .next u') :
    u'.pending = s.pending := by
  unfold execSyncInEdge at h
  injection h with h; subst h; try simp only [syncIn_pending]
theorem execPlanSelect_pending (via : Via) (v : W64) (s : State) (u' : State) (h : execPlanSelect via v s = .next u') :
    u'.pending = s.pending := by
  unfold execPlanSelect at h
  injection h with h; subst h; try simp only [cmdWrite_pending, planSelectAct_pending, implies_true]
theorem execPlanHopDone_pending (band : Fin 64) (s : State) (u' : State) (h : execPlanHopDone band s = .next u') :
    u'.pending = s.pending := by
  unfold execPlanHopDone at h
  injection h with h; subst h; try simp only [planHopDone_pending]
theorem execPlanAt_pending (via : Via) (v : W64) (s : State) (u' : State) (h : execPlanAt via v s = .next u') :
    u'.pending = s.pending := by
  unfold execPlanAt at h
  injection h with h; subst h; try simp only [cmdWrite_pending, planAtAct_pending, implies_true]
theorem execScheduledPlanHop_pending (s : State) (u' : State) (h : execScheduledPlanHop s = .next u') :
    u'.pending = s.pending := by
  unfold execScheduledPlanHop at h
  injection h with h; subst h; try simp only [scheduledHop_pending]
theorem execPpsOutWidthEnd_pending (s : State) (u' : State) (h : execPpsOutWidthEnd s = .next u') :
    u'.pending = s.pending := by
  unfold execPpsOutWidthEnd at h
  injection h with h; subst h; try simp only [ppsEnd_pending]
theorem execPpsOut_pending (s : State) (u' : State) (h : execPpsOut s = .next u') :
    u'.pending = s.pending := by
  unfold execPpsOut at h
  injection h with h; subst h; try simp only [ppsSecond_pending]
theorem execTrigIoCfg_pending (via : Via) (n : Nat) (v : W64) (s : State) (u' : State) (h : execTrigIoCfg via n v s = .next u') :
    u'.pending = s.pending := by
  unfold execTrigIoCfg at h
  injection h with h; subst h; try simp only [cmdWrite_pending, trigIoAct_pending, implies_true]
theorem execTrigIoInputEdge_pending (n : Fin 4) (t : PinEdge) (s : State) (u' : State) (h : execTrigIoInputEdge n t s = .next u') :
    u'.pending = s.pending := by
  unfold execTrigIoInputEdge at h
  (try dsimp only at h); (repeat' split at h) <;> (injection h with h; subst h; try simp only [trigInput_pending])
theorem execEdgeAt_pending (via : Via) (n : Nat) (v : W64) (s : State) (u' : State) (h : execEdgeAt via n v s = .next u') :
    u'.pending = s.pending := by
  unfold execEdgeAt at h
  injection h with h; subst h; try simp only [cmdWrite_pending, edgeAtAct_pending, implies_true]
theorem execScheduledEdge_pending (n : Fin 4) (s : State) (u' : State) (h : execScheduledEdge n s = .next u') :
    u'.pending = s.pending := by
  unfold execScheduledEdge at h
  injection h with h; subst h; try simp only [scheduledEdge_pending]
theorem execAux1Push_pending (via : Via) (v : W64) (s : State) (u' : State) (h : execAux1Push via v s = .next u') :
    u'.pending = s.pending := by
  unfold execAux1Push at h
  injection h with h; subst h; try simp only [cmdWrite_pending, aux1PushAct_pending, implies_true]
theorem execAux1Flush_pending (via : Via) (v : W64) (s : State) (u' : State) (h : execAux1Flush via v s = .next u') :
    u'.pending = s.pending := by
  unfold execAux1Flush at h
  injection h with h; subst h; try simp only [cmdWrite_pending, aux1FlushAct_pending, implies_true]
theorem execAux1Sample_pending (s : State) (u' : State) (h : execAux1Sample s = .next u') :
    u'.pending = s.pending := by
  unfold execAux1Sample at h
  injection h with h; subst h; try simp only [aux1Sample_pending]
theorem execSelectedReferenceLost_pending (s : State) (u' : State) (h : execSelectedReferenceLost s = .next u') :
    u'.pending = s.pending := by
  unfold execSelectedReferenceLost at h
  injection h with h; subst h; try simp only [refLost_pending]
theorem execLockLoss_pending (s : State) (u' : State) (h : execLockLoss s = .next u') :
    u'.pending = s.pending := by
  unfold execLockLoss at h
  injection h with h; subst h; try simp only [lockLost_pending]
theorem execLockDelayExpiry_pending (offset : Int) (s : State) (u' : State) (h : execLockDelayExpiry offset s = .next u') :
    u'.pending = s.pending := by
  unfold execLockDelayExpiry at h
  injection h with h; subst h; try simp only [lockDelay_pending]
theorem execSwitchComplete_pending (offset : Int) (s : State) (u' : State) (h : execSwitchComplete offset s = .next u') :
    u'.pending = s.pending := by
  unfold execSwitchComplete at h
  injection h with h; subst h; try simp only [switchDone_pending]
theorem execHoldoverClassChange_pending (s : State) (u' : State) (h : execHoldoverClassChange s = .next u') :
    u'.pending = s.pending := by
  unfold execHoldoverClassChange at h
  injection h with h; subst h; try simp only [holdoverClass_pending]
theorem execRefMeasurement_pending (r : Fin 2) (ppb : Int) (s : State) (u' : State) (h : execRefMeasurement r ppb s = .next u') :
    u'.pending = s.pending := by
  unfold execRefMeasurement at h
  injection h with h; subst h; try simp only [refMeasure_pending]
theorem execRef10InLoss_pending (s : State) (u' : State) (h : execRef10InLoss s = .next u') :
    u'.pending = s.pending := by
  unfold execRef10InLoss at h
  injection h with h; subst h; try simp only [ref10Stops_pending]
theorem execRef10InReturn_pending (s : State) (u' : State) (h : execRef10InReturn s = .next u') :
    u'.pending = s.pending := by
  unfold execRef10InReturn at h
  injection h with h; subst h; try simp only [ref10Returns_pending]
theorem execPpsInEdge_pending (cycles : Nat) (off : Int) (s : State) (u' : State) (h : execPpsInEdge cycles off s = .next u') :
    u'.pending = s.pending := by
  unfold execPpsInEdge at h
  injection h with h; subst h; try simp only [ppsIn_pending]
theorem execPpsInTimeout_pending (s : State) (u' : State) (h : execPpsInTimeout s = .next u') :
    u'.pending = s.pending := by
  unfold execPpsInTimeout at h
  injection h with h; subst h; try simp only [ppsMissing_pending]
theorem execAnnounceReceiptTimeout_pending (s : State) (u' : State) (h : execAnnounceReceiptTimeout s = .next u') :
    u'.pending = s.pending := by
  unfold execAnnounceReceiptTimeout at h
  injection h with h; subst h; try simp only [announceTimeout_pending]
theorem execPtpMessageReceived_pending (m : Fin 2) (msg : PtpMsg) (s : State) (u' : State) (h : execPtpMessageReceived m msg s = .next u') :
    u'.pending = s.pending := by
  unfold execPtpMessageReceived at h
  injection h with h; subst h; try simp only [ptpReceived_pending]
theorem execPtpMessageSent_pending (m : Fin 2) (kind : PtpKind) (s : State) (u' : State) (h : execPtpMessageSent m kind s = .next u') :
    u'.pending = s.pending := by
  unfold execPtpMessageSent at h
  injection h with h; subst h; try simp only [ptpSent_pending]
theorem execTimeSet_pending (via : Via) (e : Nat) (v : W64) (s : State) (u' : State) (h : execTimeSet via e v s = .next u') :
    u'.pending = s.pending := by
  unfold execTimeSet at h
  injection h with h; subst h; try simp only [cmdWrite_pending, timeSetAct_pending, implies_true]
theorem execCalUtc_pending (via : Via) (v : W64) (s : State) (u' : State) (h : execCalUtc via v s = .next u') :
    u'.pending = s.pending := by
  unfold execCalUtc at h
  injection h with h; subst h; try simp only [cmdWrite_pending, calUtcAct_pending, implies_true]
theorem execLeapSecond_pending (s : State) (u' : State) (h : execLeapSecond s = .next u') :
    u'.pending = s.pending := by
  unfold execLeapSecond at h
  injection h with h; subst h; try simp only [leapSecond_pending]
theorem execNetLinkDown_pending (m : Fin 2) (s : State) (u' : State) (h : execNetLinkDown m s = .next u') :
    u'.pending = s.pending := by
  unfold execNetLinkDown at h
  injection h with h; subst h; try simp only [netLinkDown_pending]
theorem execNetLinkUp_pending (m : Fin 2) (s : State) (u' : State) (h : execNetLinkUp m s = .next u') :
    u'.pending = s.pending := by
  unfold execNetLinkUp at h
  injection h with h; subst h; try simp only [netLinkUp_pending]
theorem execNetApply_pending (via : Via) (m : Nat) (v : W64) (s : State) (u' : State) (h : execNetApply via m v s = .next u') :
    u'.pending = s.pending := by
  unfold execNetApply at h
  injection h with h; subst h; try simp only [cmdWrite_pending, netApplyAct_pending, implies_true]
theorem execEthernetFrame_pending (m : Fin 2) (len : Nat) (frame : EthFrame) (s : State) (u' : State) (h : execEthernetFrame m len frame s = .next u') :
    u'.pending = s.pending := by
  unfold execEthernetFrame at h
  injection h with h; subst h; try simp only [frameIn_pending]
theorem execHello_pending (m : Fin 2) (addr : Nat) (p : List Byte) (s : State) (u' : State) (h : execHello m addr p s = .next u') :
    u'.pending = s.pending := by
  unfold execHello at h
  (repeat' split at h) <;> (injection h with h; subst h; try simp only [vdpIn_pending])
theorem execData_pending (m : Fin 2) (p : List Byte) (s : State) (u' : State) (h : execData m p s = .next u') :
    u'.pending = s.pending := by
  unfold execData at h
  (repeat' split at h) <;> (injection h with h; subst h; try simp only [vdpIn_pending])
theorem execSessionIdleTimeout_pending (slot : Fin 64) (s : State) (u' : State) (h : execSessionIdleTimeout slot s = .next u') :
    u'.pending = s.pending := by
  unfold execSessionIdleTimeout at h
  injection h with h; subst h; try simp only [sessionIdle_pending]
theorem execSessionClose_pending (via : Via) (v : W64) (s : State) (u' : State) (h : execSessionClose via v s = .next u') :
    u'.pending = s.pending := by
  unfold execSessionClose at h
  injection h with h; subst h; try simp only [cmdWrite_pending, sessionCloseAct_pending, implies_true]
theorem execRead_pending (slot : Fin 64) (id : BitVec 32) (ref : W64) (count : Nat) (s : State) (u' : State) (h : execRead slot id ref count s = .next u') :
    u'.pending = s.pending := by
  unfold execRead at h
  injection h with h; subst h; try simp only [readRequest_pending, vdpRequest_pending, implies_true]
theorem execWrite_pending (slot : Fin 64) (id : BitVec 32) (ref : W64) (vals : List W64) (s : State) (u' : State) (h : execWrite slot id ref vals s = .next u') :
    u'.pending = s.pending := by
  unfold execWrite at h
  injection h with h; subst h; try simp only [writeRequest_pending, vdpRequest_pending, implies_true]
theorem execCasWrite_pending (slot : Fin 64) (id : BitVec 32) (ref : W64) (expect : BitVec 32) (vals : List W64) (s : State) (u' : State) (h : execCasWrite slot id ref expect vals s = .next u') :
    u'.pending = s.pending := by
  unfold execCasWrite at h
  injection h with h; subst h; try simp only [writeRequest_pending, vdpRequest_pending, implies_true]
theorem execKeepalive_pending (slot : Fin 64) (id : BitVec 32) (s : State) (u' : State) (h : execKeepalive slot id s = .next u') :
    u'.pending = s.pending := by
  unfold execKeepalive at h
  injection h with h; subst h; try simp only [vdpRequest_pending, implies_true]
theorem execClose_pending (slot : Fin 64) (id : BitVec 32) (s : State) (u' : State) (h : execClose slot id s = .next u') :
    u'.pending = s.pending := by
  unfold execClose at h
  (try dsimp only at h); (repeat' split at h) <;> (injection h with h; subst h; try simp only [closeRequest_pending])
theorem execSubscribe_pending (slot : Fin 64) (id : BitVec 32) (ref : W64) (count interval : Nat) (periodic : Bool) (s : State) (u' : State) (h : execSubscribe slot id ref count interval periodic s = .next u') :
    u'.pending = s.pending := by
  unfold execSubscribe at h
  injection h with h; subst h; try simp only [vdpRequest_pending, subscribeRequest_pending, implies_true]
theorem execUnsubscribe_pending (slot : Fin 64) (id : BitVec 32) (sub : Nat) (s : State) (u' : State) (h : execUnsubscribe slot id sub s = .next u') :
    u'.pending = s.pending := by
  unfold execUnsubscribe at h
  injection h with h; subst h; try simp only [vdpRequest_pending, unsubscribeRequest_pending, implies_true]
theorem execNotify_pending (slot : Fin 64) (sub : Nat) (s : State) (u' : State) (h : execNotify slot sub s = .next u') :
    u'.pending = s.pending := by
  unfold execNotify at h
  (repeat' split at h) <;> (injection h with h; subst h; try simp only [notifySub_pending])
theorem execMbxSubmit_pending (f : Fin 1024) (v : W64) (s : State) (u' : State) (h : execMbxSubmit f v s = .next u') :
    u'.pending = s.pending := by
  unfold execMbxSubmit at h
  injection h with h; subst h; try simp only [cmdWrite_pending, mbxSubmitAct_pending, implies_true]
theorem execWCtlWrite_pending (f : Fin 1024) (off : Nat) (bytes : List Byte) (s : State) (u' : State) (h : execWCtlWrite f off bytes s = .next u') :
    u'.pending = s.pending := by
  unfold execWCtlWrite at h
  injection h with h; subst h; try simp only [wCtlWrite_pending]
theorem execTime96Read_pending (via : Via) (obj : Nat) (e : ElemPart) (s : State) (u' : State) (h : execTime96Read via obj e s = .next u') :
    u'.pending = s.pending := by
  unfold execTime96Read at h
  (try dsimp only at h); (repeat' split at h) <;> (injection h with h; subst h; try simp only [elementRead_pending])
theorem execCasExpect_pending (f : Fin 1024) (v : W64) (s : State) (u' : State) (h : execCasExpect f v s = .next u') :
    u'.pending = s.pending := by
  unfold execCasExpect at h
  injection h with h; subst h; try simp only [cmdWrite_pending, casExpectAct_pending, implies_true]
theorem execRelayData_pending (f : Fin 1024) (op : RelayOp) (s : State) (u' : State) (h : execRelayData f op s = .next u') :
    u'.pending = s.pending := by
  unfold execRelayData at h
  injection h with h; subst h; try simp only [relayAccess_pending]
theorem execServiceCoreAccess_pending (core : Fin 4) (inMap : Bool) (obj e : Nat) (wr : Option W64) (s : State) (u' : State) (h : execServiceCoreAccess core inMap obj e wr s = .next u') :
    u'.pending = s.pending := by
  unfold execServiceCoreAccess at h
  injection h with h; subst h; try simp only [serviceAccess_pending]
theorem execWStoreRead_pending (f : Fin 1024) (off : StoreOffset) (len : Nat) (s : State) (u' : State) (h : execWStoreRead f off len s = .next u') :
    u'.pending = s.pending := by
  unfold execWStoreRead at h
  (try dsimp only at h); (repeat' split at h) <;> (injection h with h; subst h; try simp only [windowRead_pending, windowReadNow_pending])
theorem execSpeedChangeDone_pending (s : State) (u' : State) (h : execSpeedChangeDone s = .next u') :
    u'.pending = s.pending := by
  unfold execSpeedChangeDone at h
  (try dsimp only at h); (repeat' split at h) <;> (injection h with h; subst h; try simp only [speedChangeDone_pending])
theorem execAllocRound_pending (reqs : List AllocReq) (s : State) (u' : State) (h : execAllocRound reqs s = .next u') :
    u'.pending = s.pending := by
  unfold execAllocRound at h
  injection h with h; subst h; try simp only [allocRound_pending]

end Sys2Proof.Machine
end

