-- ==== Sys2Proof/WellFormed.lean ====
section
/-! DEFINITION. Which commands are well formed: the operands that a constructor's types leave wider than the hardware's
interface can deliver. `exec` is total and gives ill-formed commands a meaning as well; no frame or request of theirs can
reach the module. -/

namespace Sys2Proof

/-- A frame's payload holds 31 link words (R13). -/
def payloadWf (pay : List W40) : Bool := decide (pay.length = 31)

/-- A request of 1 to 128 elements (R380). -/
def countWf (n : Nat) : Bool := decide (1 ≤ n) && decide (n ≤ 128)

/-- A write of a register window: 1 to 4,096 bytes, the most one PCIe request carries. -/
def windowWf (bytes : List Byte) : Bool := decide (1 ≤ bytes.length) && decide (bytes.length ≤ 4096)

/-- A store cell has sixteen bursts (R323). -/
def burstsWf (l : List Nat) : Bool := decide (l.length ≤ 16)

/-- Whether a command's operands are such as its interface can deliver. -/
def Instr.wf : Instr → Bool
  | .codewordDecode _ _ badSyms _ _ _ => decide (badSyms ≤ 544)
  | .dataFrame _ _ _ pay | .markerFrame _ _ _ _ pay | .groupMap _ _ pay | .descriptor _ _ pay | .timeEcho _ _ _ pay
  | .quenchReport _ _ pay | .ack _ _ pay => payloadWf pay
  | .read _ _ _ n | .subscribe _ _ _ n _ _ => countWf n
  | .write _ _ _ vals | .casWrite _ _ _ _ vals => countWf vals.length
  | .wStoreWrite _ _ bytes | .wCtlWrite _ _ bytes | .dbCons _ _ (.write bytes) => windowWf bytes
  | .dbCons _ _ (.read len) => decide (1 ≤ len) && decide (len ≤ 4096)
  | .wStoreRead _ off len => decide (1 ≤ len) && decide (len ≤ 4096) && off.errs.all burstsWf
  | .configurationRequest _ reg _ => decide (reg < 4096) && decide (reg % 4 = 0)
  | .allocRound reqs => reqs.all (fun r => decide (1 ≤ r.cells) && decide (r.cells ≤ 16))
  | .sensorRead milliC _ _ => decide (milliC.length = 11)
  | .storeCellAccess _ x => burstsWf x.bursts
  | .migrationChunk x => x.source.all (fun p => burstsWf p.2.2)
  | .readoutCell x => burstsWf x.errs
  | .goldSealDone x => x.errs.all (fun p => burstsWf p.2)
  | _ => true

end Sys2Proof
end

