-- ==== Sys2Proof/Tests/Slice0.lean ====
section
/-! SUPPORT. Tests of single commands on small states, with expected results from the rules of spec/, and for every statement of
Certificates/Slice0 a state and operands that meet the hypotheses of its clauses. -/

open Sys2Proof Sys2Proof.Machine

namespace Sys2Proof.Tests

-- One theorem at a time: each takes a thread with a large stack.
set_option Elab.async false

/-! ## Small states -/

/-- The module in `IDLE`, as after bring-up, with the links of host ports 0 and 1 up and their physical functions open to memory requests. -/
def idle0 : State :=
  { State.reset with
    mode := { base := .idle }, everIdle := true, tmbOn := true
    ports := [(0, { up := true, perst := true }), (1, { up := true, perst := true })]
    funcs := [(0, { mse := true }), (256, { mse := true })] }

/-- Physical function 0 of host port 0, which acts with the rights of the factory's Admin principal. -/
def host0 : Via := .wctl 0

/-- The state after a command (the state before it where it stops). -/
def after (c : Instr) (s : State) : State :=
  match exec c s with
  | .next t => t
  | _ => s

/-- The status of the last write in function 0's `WIN_STATUS`. -/
def wst (s : State) : Nat := fld (s.el O.WIN_STATUS (copyEl 0 0)) 7 0

/-- A bench armed with one lane. -/
def armed (b l : Nat) (s : State) : State := (s.put O.BENCH_STATE b 2#64).modBench b (fun x => { x with lanes := [l], armed := true })

/-- A 40-bit header of a kind, with its low 38 bits. -/
def hdr (kind low : Nat) : W40 := BitVec.ofNat 40 (kind * 2 ^ 38 + low)

/-- A lane with a map that holds clock 3 with groups 10 and 11, and a held stamp of that clock. -/
def lane3 : Lane := { map := [(3, [10, 11])], held := [(3, 0x12345#40)], creditLimit := 264, lastSeq := some 0#10 }

/-- Lane l in a lane state and an alignment state, with lane data. -/
def laneAt (l : Nat) (x : LaneState) (y : AlignState) (z : Lane) (s : State) : State :=
  ((s.setN O.LANE_STATE l x.num).setN O.ALIGN_STATE l y.num).setLane l z

/-- A descriptor of design 7, and lane3 with it. -/
def descr7 : Descr :=
  { designId := 7#64, buildHash := 8#64, mapVersion := 1, coreVersion := 1, coreId := 0, epoch := 0, clocks := 1, groups := 2 }
def laneD : Lane := { lane3 with desc := some descr7 }

/-- A part of a row of clock 3 of design 7. -/
def part7 (stamp : W40) (t : Int) : Part := { design := 7#64, dclk := 3, stamp := stamp, time := t, words := [1#40, 2#40], lost := false }

/-- Bench b, defined, with lane 0, groups 10 and 11, sequencer 0 that steps on clock 3, and two ingots: every check of ARM passes. -/
def ready (b : Nat) : State :=
  let s1 := ((((laneAt 0 .up .aligned laneD idle0).put O.BENCH_STATE b 1#64).put O.GROUP_OWNER 10 (BitVec.ofNat 64 b)).put O.GROUP_OWNER 11
    (BitVec.ofNat 64 b)).put O.SQ_OWNER 0 (BitVec.ofNat 64 b);
  ((s1.put O.SQ_CONFIG 0 7#64).put O.INGOT_QUOTA b 2#64).setDir b [{ ingot := 0 }, { ingot := 1 }]

/-- What holds of a table's default and of every value listed in it holds of every value read. -/
theorem tab_all {α : Type} (P : α → Prop) (d : Nat → α) (t : Tab α) (hd : ∀ k, P (d k)) (ht : ∀ p ∈ t, P p.2) (k : Nat) : P (t.get d k) := by
  induction t with
  | nil => exact hd k
  | cons p t ih =>
    unfold Tab.get
    split
    · exact ht p (List.mem_cons_self ..)
    · exact ih (fun q hq => ht q (List.mem_cons_of_mem _ hq))

/-! ## The probe link -/

/-- PortEnableMovesLanes: port 31 enabled, disabled, and refused under an armed bench. -/
theorem wit_PortEnableMovesLanes :
    (Passes host0 O.PORT_ENABLE 31 1#64 idle0 ∧ (asked host0 O.PORT_ENABLE idle0).portArmed 31 = false ∧
      (∀ l ∈ portLanes 31, (asked host0 O.PORT_ENABLE idle0).laneState l = .off) ∧
      (after (.portEnable host0 31 1#64) idle0).laneState 255 = .hunt ∧ (after (.portEnable host0 31 1#64) idle0).laneState 247 = .off) ∧
    (Passes host0 O.PORT_ENABLE 0 0#64 (after (.portEnable host0 0 1#64) idle0) ∧
      (∀ l ∈ portLanes 0, (after (.portEnable host0 0 1#64) idle0).isUp l = false) ∧
      (after (.portEnable host0 0 0#64) (after (.portEnable host0 0 1#64) idle0)).laneState 7 = .off) ∧
    (Passes host0 O.PORT_ENABLE 0 1#64 (armed 5 7 idle0) ∧ (asked host0 O.PORT_ENABLE (armed 5 7 idle0)).portArmed 0 = true ∧
      wst (after (.portEnable host0 0 1#64) (armed 5 7 idle0)) = Status.busy.code) := by
  unfold Passes; decide +kernel

/-- PortRequestsReachEveryLane. -/
theorem wit_PortRequestsReachEveryLane :
    (Passes host0 O.CLEAR_COUNTERS 31 1#64 (idle0.put O.FRAME_ERR 255 9#64) ∧
      (after (.clearCounters host0 31 1#64) (idle0.put O.FRAME_ERR 255 9#64)).el O.FRAME_ERR 255 = 0#64) ∧
    (Passes host0 O.SEND_DESC_REQ 0 1#64 ((laneAt 2 .up .aligned {} idle0).put O.PORT_ENABLE 0 1#64) ∧
      (after (.sendDescReq host0 0 1#64) ((laneAt 2 .up .aligned {} idle0).put O.PORT_ENABLE 0 1#64)).out = [.lane 2 (.descReq false)]) ∧
    (Passes host0 O.REALIGN 0 1#64 (laneAt 2 .up .calibrating { calib := [1] } idle0) ∧
      (laneAt 2 .up .calibrating { calib := [1] } idle0).portArmed 0 = false ∧
      (∀ l ∈ portLanes 0, (laneAt 2 .up .calibrating { calib := [1] } idle0).isAligned l = false) ∧
      ((after (.realign host0 0 1#64) (laneAt 2 .up .calibrating { calib := [1] } idle0)).lane 2).calib = []) ∧
    (Passes host0 O.REALIGN 0 1#64 (armed 5 7 idle0) ∧ (asked host0 O.REALIGN (armed 5 7 idle0)).portArmed 0 = true ∧
      wst (after (.realign host0 0 1#64) (armed 5 7 idle0)) = Status.busy.code) := by
  unfold Passes; decide +kernel

/-- LaneLimitsChangeTheState, on the first and the last lane. -/
theorem wit_LaneLimitsChangeTheState :
    (∀ b ∈ [true, false],
      let s := laneAt 255 .hunt .idle { signal := b, signalAt := 5 } idle0;
      s.laneState 255 = .hunt ∧ (s.lane 255).signal = b ∧
      (b = false → (after (.huntTimeout 255) s).laneState 255 = .hunt) ∧ (b = false → (after (.huntTimeout 255) s).clock = 0)) ∧
    ((laneAt 0 .framed .idle {} idle0).laneState 0 = .framed) ∧
    ((laneAt 0 .described .idle {} idle0).laneState 0 = .described) ∧
    ((laneAt 0 .fault .idle lane3 idle0).laneState 0 = .fault ∧
      ((after (.faultRetry 0) (laneAt 0 .fault .idle lane3 idle0)).lane 0).held = []) ∧
    (((laneAt 0 .hunt .idle {} idle0).lane 0).signal = false ∧
      (after (.absentTimeout 0) (laneAt 0 .hunt .idle {} idle0)).laneState 0 = .absent) ∧
    ((laneAt 0 .absent .idle {} idle0).laneState 0 = .absent ∧ idle0.mode.safe = false ∧
      (after (.signalDetect 0) (laneAt 0 .absent .idle {} idle0)).laneState 0 = .hunt) := by
  decide +kernel

/-- CodewordsGiveLockAndCount. -/
theorem wit_CodewordsGiveLockAndCount :
    (let s := (laneAt 0 .hunt .idle { good := 7, lastSeq := some 1023#10 } idle0).put O.PORT_ENABLE 0 1#64;
      s.laneState 0 = .hunt ∧ decodes s 0 15 = true ∧ polarityOk s 0 false = true ∧
      (s.lane 0).lastSeq.map (fun c => c + 1#10) = some 0#10 ∧ (s.lane 0).inverted = false ∧ 7 ≤ (s.lane 0).good ∧
      s.elB O.PORT_ENABLE 0 = true ∧ (after (.codewordDecode 0 9 15 0#10 0#2 false) s).laneState 0 = .framed ∧
      (after (.codewordDecode 0 9 15 0#10 0#2 false) s).out = [.lane 0 (.descReq true)]) ∧
    (let s := laneAt 255 .up .aligned lane3 idle0;
      s.laneState 255 = .up ∧ s.alignState 255 ≠ .stalled ∧ (s.lane 255).inverted = false ∧
      (s.lane 255).lastSeq.map (fun c => c + 1#10) = some 1#10 ∧
      ((after (.codewordDecode 255 77 0 1#10 0#2 false) s).lane 255).lastCw = 77) ∧
    (let s := laneAt 255 .up .aligned lane3 idle0;
      (s.lane 255).badRun < 3 ∧ (s.lane 255).partsAsm = [] ∧
      (recent s.clock (s.lane 255).uncorrTimes).length ≤ s.elN O.UNCORR_LIMIT 31 ∧
      (after (.codewordPeriodMissed 255) s).el O.FEC_UNCORR_CW 255 = 1#64 ∧
      ((after (.codewordPeriodMissed 255) s).lane 255).badRun = 1) ∧
    (let s := laneAt 255 .described .idle lane3 idle0;
      s.mode.safe = false ∧ s.isUp 255 = false ∧ (after (.dataFrame 255 5 0#40 []) s).el O.FRAME_ERR 255 = 1#64) := by
  decide +kernel

/-- DataAndMarkerFramesSetHeldStamps: stamp 0x2346 on 0x12345 (R17), at the last position of the map. -/
theorem wit_DataAndMarkerFramesSetHeldStamps :
    (let s := laneAt 0 .framed .idle lane3 idle0;
      s.mode.safe = false ∧ s.laneState 0 = .framed ∧ (after (.dataFrame 0 5 0#40 []) s).el O.FRAME_ERR 0 = 1#64) ∧
    (let s := laneAt 0 .up .calibrating lane3 idle0;
      let h := hdr 0 (3 * 2 ^ 30 + 1 * 2 ^ 20 + 1 * 2 ^ 15 + 0x2346);
      s.laneState 0 = .up ∧ s.alignState 0 = .calibrating ∧ hdrKind h = 0 ∧ (s.lane 0).frames < (s.lane 0).creditLimit ∧
      (s.lane 0).pendDesc = none ∧ hdrCount h ≠ 0 ∧ (s.lane 0).held.any (fun p => decide (p.1 = hdrDclk h)) = true ∧
      (s.lane 0).map.hasClock (hdrDclk h) = true ∧ hdrOffset h < ((s.lane 0).map.groupsOf (hdrDclk h)).length ∧
      ((after (.dataFrame 0 5 h [1#40]) s).lane 0).frames = 1 ∧
      Tab.get (fun _ => 0#40) ((after (.dataFrame 0 5 h [1#40]) s).lane 0).held 3 = 0x12346#40) ∧
    (let s := laneAt 0 .up .aligned { lane3 with frames := 264 } idle0;
      (s.lane 0).creditLimit ≤ (s.lane 0).frames ∧ hdrKind 0#40 = 0) ∧
    (let s := laneAt 0 .framed .idle lane3 idle0;
      let pay := [0#40, 0#40, 0x1000000000#40, 0x0300000000#40, 0x777#40];
      hdrKind (hdr 1 0) = 1 ∧ (s.lane 0).lastSeq = some 0#10 ∧ (markerEntries pay).length ≤ 14 ∧
      Tab.get (fun _ => 0#40) ((after (.markerFrame 0 5 0 (hdr 1 0) pay) s).lane 0).held 3 = 0x777#40) ∧
    (let s := laneAt 0 .up .calibrating { lane3 with admitted := true } idle0;
      s.alignState 0 = .calibrating ∧ (s.lane 0).admitted = true ∧ (markerEntries []).any (markerBad (s.lane 0)) = false ∧
      s.steppedAt = none ∧ (after (.markerFrame 0 5 0 (hdr 1 0) []) s).alignState 0 = .aligned) := by
  decide +kernel

/-- ControlFramesDescribeTheLane. -/
theorem wit_ControlFramesDescribeTheLane :
    (let s := laneAt 0 .framed .idle {} idle0;
      let w := BitVec.ofNat 40 (3 * 2 ^ 32 + 0 * 2 ^ 22 + 1 * 2 ^ 12 + 2 * 2 ^ 6);
      s.isLocked 0 = true ∧ hdrKind (hdr 2 (2 * 2 ^ 32)) = 2 ∧ hdrType (hdr 2 (2 * 2 ^ 32)) = 2 ∧ 0 < fld w 11 6 ∧ fld w 11 6 ≤ 60 ∧
      fld w 31 22 + fld w 11 6 ≤ fld w 21 12 + 1 ∧
      ((after (.groupMap 0 (hdr 2 (2 * 2 ^ 32)) [w, 0x000A0000B#40]) s).lane 0).build ≠ []) ∧
    (let s := laneAt 0 .described .idle {} idle0;
      s.isLocked 0 = true ∧ s.isUp 0 = false ∧ hdrKind 0#40 ≠ 2 ∧ (after (.groupMap 0 0#40 []) s).el O.FRAME_ERR 0 = 1#64) ∧
    (let d := hdr 2 (1 * 2 ^ 32);
      let pay : List W40 := [0x0100000007#40, 0#40, 0#40, 0#40, 0#40, 0#40, 0#40, 0#40];
      hdrKind d = 2 ∧ hdrType d = 1 ∧ fld (payWord pay 0) 39 32 = 1 ∧ mapComplete ((laneAt 0 .up .aligned {} idle0).lane 0).build (descrOf pay) = true ∧
      (laneAt 0 .up .aligned {} idle0).isUp 0 = true ∧
      ((after (.descriptor 0 d pay) (laneAt 0 .up .aligned {} idle0)).lane 0).pendDesc ≠ none ∧
      mapComplete ((laneAt 0 .framed .idle {} idle0).lane 0).build (descrOf (pay.set 7 0x1000000001#40)) = false ∧
      (after (.descriptor 0 d (pay.set 7 0x1000000001#40)) (laneAt 0 .framed .idle {} idle0)).el O.FRAME_ERR 0 = 1#64) ∧
    (let s := laneAt 0 .described .idle { echoes := [(5, 100)], exchanges := 15 } idle0;
      let h := hdr 2 (3 * 2 ^ 32 + 5 * 2 ^ 16);
      let g := hdr 2 (3 * 2 ^ 32 + 6 * 2 ^ 16);
      hdrType h = 3 ∧ (s.lane 0).echoes.find? (fun p => decide (p.1 = hdrReqId g)) = none ∧
      (s.lane 0).echoes.find? (fun p => decide (p.1 = hdrReqId h)) = some (5, 100) ∧ s.laneState 0 = .described ∧
      15 ≤ (s.lane 0).exchanges) := by
  decide +kernel

/-- ReturnMessagesFollowTheirTimers. -/
theorem wit_ReturnMessagesFollowTheirTimers :
    (let s := (laneAt 0 .up .aligned { sinceEcho := 16, timeSeq := 65535 } idle0).put O.PORT_ENABLE 0 1#64;
      s.elB O.PORT_ENABLE (0 / 8) = true ∧ (s.lane 0).timeAt ≤ s.clock ∧ s.isUp 0 = true ∧
      (after (.time 0) s).out = [.lane 0 (.time 65535 true 0 0 0)] ∧ ((after (.time 0) s).lane 0).timeSeq = 0 ∧
      ((after (.credit 0) s).out = [.lane 0 (.credit (s.limitNow 0 % 2 ^ 32))])) ∧
    (let s := (laneAt 0 .framed .idle { descReqOut := true } idle0).put O.PORT_ENABLE 0 1#64;
      (s.lane 0).descReqOut = true ∧ s.isLocked 0 = true ∧ (after (.descReqRetry 0) s).out = [.lane 0 (.descReq true)] ∧
      (after (.descReqRetry 0) s).clock = 100 * us) ∧
    (let s := laneAt 0 .up .aligned { corrWindow := 1000001 } idle0;
      s.isLocked 0 = true ∧ s.elN O.DEGRADE_SYM_PER_S 0 = 1000000 ∧ (after (.degradedWindow 0) s).laneFlag 0 0 = true) := by
  decide +kernel

/-- QuenchAndResumeSendOnTheDesignsLanes: bench 1023, clock 255. -/
theorem wit_QuenchAndResume :
    (let s := ((laneAt 0 .up .aligned laneD idle0).put O.BENCH_RIGHTS 1023 1#64).modBench 1023 (fun x => { x with design := some 7#64 });
      Passes host0 O.QUENCH_CMD 1023 255#64 s ∧ s.mayQuench 1023 = true ∧ (s.bench 1023).design ≠ none ∧
      (s.bench 1023).quench = none ∧ s.quenchLanes 1023 = [0] ∧
      (after (.quenchCmd host0 1023 255#64) s).out = [.lane 0 (.quench 1#16 255 0#40)] ∧
      (after (.quenchCmd host0 1023 255#64) s).nextReq = 2#16 ∧
      (let t := after (.quenchCmd host0 1023 255#64) s;
        Passes host0 O.QUENCH_CMD 1023 0#64 t ∧ (t.bench 1023).quench ≠ none ∧
        (after (.quenchCmd host0 1023 0#64) t).out = t.out ∧ (after (.quenchCmd host0 1023 0#64) t).nextReq = 2#16 ∧
        Passes host0 O.RESUME_CMD 1023 0#64 t ∧ (t.bench 1023).lastReq = some 1#16 ∧
        (after (.resumeCmd host0 1023 0#64) t).out = t.out ++ [.lane 0 (.resume 1#16)])) ∧
    (Passes host0 O.QUENCH_CMD 0 0#64 idle0 ∧ idle0.mayQuench 0 = false ∧
      wst (after (.quenchCmd host0 0 0#64) idle0) = Status.denied.code ∧ Passes host0 O.RESUME_CMD 0 0#64 idle0 ∧
      wst (after (.resumeCmd host0 0 0#64) idle0) = Status.denied.code) ∧
    (let s := idle0.put O.BENCH_RIGHTS 0 1#64;
      Passes host0 O.QUENCH_CMD 0 255#64 s ∧ s.mayQuench 0 = true ∧ (s.bench 0).design = none ∧
      wst (after (.quenchCmd host0 0 255#64) s) = Status.busy.code ∧ Passes host0 O.RESUME_CMD 0 65535#64 s ∧
      wst (after (.resumeCmd host0 0 65535#64) s) = Status.busy.code ∧
      (let t := s.modBench 0 (fun x => { x with design := some 7#64 });
        Passes host0 O.RESUME_CMD 0 0#64 t ∧ (t.bench 0).design ≠ none ∧ (t.bench 0).lastReq = none ∧
        wst (after (.resumeCmd host0 0 0#64) t) = Status.invalid.code)) := by
  unfold Passes; decide +kernel

/-- QuenchReportsAreRecorded. -/
theorem wit_QuenchReportsAreRecorded :
    (let q : Quench := { req := 9#16, src := 2, dclk := 3, stamp := 0#40, lanes := [(0, none), (1, none)], closeAt := 500 };
      let s := (laneAt 0 .up .aligned laneD idle0).modBench 4 (fun x => { x with quench := some q });
      let h := hdr 2 (4 * 2 ^ 32 + 9 * 2 ^ 16 + 1 * 2 ^ 8);
      let pay : List W40 := [0#40, 0#40, 0x0300000021#40, 77#40];
      s.isLocked 0 = true ∧ hdrKind h = 2 ∧ hdrType h = 4 ∧ s.quenchesOn 0 (BitVec.ofNat 16 (hdrReqId h)) = [(4, q)] ∧
      (0, none) ∈ q.lanes ∧ (1, none) ∈ q.lanes ∧ (after (.quenchReport 0 h pay) s).elN O.QUENCH_SKID 0 = 0x21 ∧
      (s.bench 4).quench = some q ∧ q.src < 4 ∧ (after (.quenchReportWindowClose 4) s).elN O.QUENCH_SKID 1 = 0xFFFFFFFF ∧
      (after (.quenchReportWindowClose 4) s).clock = 500 ∧
      fld ((after (.quenchReportWindowClose 4) s).el O.QUENCH_LAST 4) 63 32 = 0xFFFFFFFF) ∧
    (let y : Bench := { ackReq := 9#16, acks := [(0, none), (1, some 0)] };
      let s := (laneAt 0 .up .aligned laneD idle0).setBench 4 y;
      let h := hdr 2 (5 * 2 ^ 32 + 9 * 2 ^ 16 + 4 * 2 ^ 8);
      s.isLocked 0 = true ∧ hdrKind h = 2 ∧ hdrType h = 5 ∧ hdrMid h = 4 ∧ hdrStatus h = 0 ∧ s.benches = [(4, y)] ∧
      y.ackReq = BitVec.ofNat 16 (hdrReqId h) ∧ (∃ p ∈ y.acks, p.1 = 0) ∧ (∀ p ∈ y.acks, p.1 ≠ 0 → p.2 = some 0) ∧
      bit ((after (.ack 0 h []) s).el O.QUENCH_LAST 4) 19 = true) := by
  decide +kernel

/-- RowsLeaveWholeOrShort: one lane that has its part, and one whose part is lost. -/
theorem wit_RowsLeaveWholeOrShort :
    (let s := laneAt 0 .up .aligned { laneD with parts := [part7 5#40 100], joinTime := some 0, lastCw := 100000000000 } idle0;
      s.rowTime 7#64 3 5#40 = some 100 ∧ s.rowReady 7#64 3 5#40 100 = true ∧ s.slotOf 7#64 = [] ∧ s.benchesIn 7#64 = [] ∧
      (after (.rowEmit 7#64 3 5#40) s).lastOf 7#64 3 = some (5#40, 100) ∧ (after (.rowEmit 7#64 3 5#40) s).el O.ROWS_EMITTED 3 = 1#64) ∧
    (let s := laneAt 1 .up .aligned { laneD with lastStamp := [(3, 6#40)] }
        (laneAt 0 .up .aligned { laneD with parts := [part7 5#40 100], joinTime := some 0 } idle0);
      (s.lane 1).leftClocks = [] ∧ s.laneDesign 1 = some 7#64 ∧ s.rowTime 7#64 3 5#40 = some 100 ∧
      (s.expectedLanes 7#64 3 100).contains 1 = true ∧ s.partLost 7#64 1 3 5#40 100 = true ∧ (3, 5#40) ∉ (s.lane 1).missCounted ∧
      (after (.partMissing 1 3 5#40) s).el O.MISSING_PARTS 1 = 1#64 ∧
      (let t := after (.partMissing 1 3 5#40) s;
        (t.lane 1).leftClocks = [] ∧ t.laneDesign 1 = some 7#64 ∧ t.rowTime 7#64 3 5#40 = some 100 ∧
        (t.expectedLanes 7#64 3 100).contains 1 = true ∧ t.partLost 7#64 1 3 5#40 100 = true ∧ (3, 5#40) ∈ (t.lane 1).missCounted)) ∧
    (let s := laneAt 255 .up .aligned { laneD with lastCwClock := 40 } idle0;
      s.isAligned 255 = true ∧ s.laneDesign 255 = some 7#64 ∧ (∀ k, k < 256 → s.alignState k ≠ .refused) ∧
      (after (.stalled 255) s).alignState 255 = .stalled ∧ (after (.stalled 255) s).clock = 40 + 200 * ns) := by
  decide +kernel

/-- TilePowerFollowsItsWrites. -/
theorem wit_TilePowerFollowsItsWrites :
    (Passes host0 O.TILE_POWER 15 1#64 idle0 ∧ idle0.tileUsed 15 = false ∧ idle0.elN O.TILE_STATE 15 = 0 ∧
      (after (.tileGate host0 15) idle0).elN O.TILE_STATE 15 = 1) ∧
    (let s := (armed 5 7 idle0).modStream (16 * 5 + 3) (fun x => { x with open_ := true });
      Passes host0 O.TILE_POWER 3 1#64 s ∧ s.tileUsed 3 = true ∧ wst (after (.tileGate host0 3) s) = Status.busy.code) ∧
    (let s := idle0.put O.TILE_STATE 0 2#64;
      Passes host0 O.TILE_POWER 0 0#64 s ∧ s.elB O.TILE_FENCED 0 = false ∧ s.elN O.TILE_STATE 0 = 2 ∧
      (after (.tileUngate host0 0) s).elN O.TILE_STATE 0 = 3) ∧
    (let s := idle0.put O.TILE_STATE 0 1#64;
      Passes host0 O.TILE_POWER 0 0#64 s ∧ s.elB O.TILE_FENCED 0 = false ∧ s.elN O.TILE_STATE 0 = 1 ∧
      0 ∈ (after (.tileUngate host0 0) s).tileTurn ∧ (after (.tileGated 0) s).elN O.TILE_STATE 0 = 2 ∧
      (after (.tileGated 0) (after (.tileUngate host0 0) s)).elN O.TILE_STATE 0 = 3 ∧
      (after (.tileOn 0) (after (.tileGated 0) (after (.tileUngate host0 0) s))).elN O.TILE_STATE 0 = 0) := by
  unfold Passes; decide +kernel

/-- ArmTakesEffectOrNamesTheLanes: the last bench; and with its lane in `HUNT`. -/
theorem wit_ArmTakesEffect :
    (let s := ready 1023;
      Passes host0 O.BENCH_CMD 1023 1#64 s ∧ s.benchState 1023 ≠ .free ∧ armCheck 1023 s = .ok ∧
      (after (.arm host0 1023) s).benchState 1023 = .armed ∧ ((after (.arm host0 1023) s).bench 1023).design = some 7#64 ∧
      ((after (.arm host0 1023) s).bench 1023).lanes = [0]) ∧
    (let s := (ready 1023).put O.LANE_STATE 0 1#64;
      Passes host0 O.BENCH_CMD 1023 1#64 s ∧ s.benchState 1023 ≠ .free ∧ armCheck 1023 s = .noResource ∧
      (after (.arm host0 1023) s).el O.ARM_LANE_REPORT (4 * 1023) = 1#64 ∧ wst (after (.arm host0 1023) s) = Status.noResource.code) := by
  unfold Passes; decide +kernel

/-- BenchCommandsMoveItsState. -/
theorem wit_BenchCommandsMoveItsState :
    (let s := after (.arm host0 5) (ready 5);
      Passes host0 O.BENCH_CMD 5 2#64 s ∧ s.benchState 5 ≠ .free ∧ s.isArmed 5 = true ∧ (s.bench 5).fault = none ∧
      (after (.disarm host0 5) s).benchState 5 = .defined ∧ ((after (.disarm host0 5) s).bench 5).armed = false ∧
      Passes host0 O.BENCH_CMD 5 4#64 s ∧ s.benchState 5 ≠ .resetting) ∧
    (let s := (ready 5).put O.ROUTE_REFUSED 5 4#64;
      Passes host0 O.BENCH_CMD 5 4#64 s ∧ s.benchState 5 ≠ .resetting ∧ s.benchState 5 ≠ .free ∧
      (after (.reset host0 5) s).benchState 5 = .resetting ∧ (after (.reset host0 5) s).el O.ROUTE_REFUSED 5 = 0#64 ∧
      (let t := after (.reset host0 5) s;
        Passes host0 O.BENCH_CMD 5 4#64 t ∧ t.benchState 5 = .resetting ∧ (after (.reset host0 5) t).benchState 5 = .resetting ∧
        (after (.benchResetDone 5) t).benchState 5 = .defined)) ∧
    (Passes host0 O.BENCH_CMD 5 2#64 (ready 5) ∧ (ready 5).isArmed 5 = false ∧ (ready 5).benchState 5 ≠ .free) ∧
    (let s := (ready 5).put O.BENCH_STATE 5 3#64;
      Passes host0 O.BENCH_CMD 5 3#64 s ∧ s.benchState 5 = .faulted ∧ (after (.clearFault host0 5) s).benchState 5 = .defined ∧
      Passes host0 O.BENCH_CMD 5 3#64 (ready 5) ∧ (ready 5).benchState 5 = .defined) ∧
    (idle0.benchState 5 = .free ∧ Passes host0 O.BENCH_CMD 5 1#64 idle0 ∧ Passes host0 O.BENCH_CMD 5 2#64 idle0 ∧
      Passes host0 O.BENCH_CMD 5 3#64 idle0 ∧ Passes host0 O.BENCH_CMD 5 4#64 idle0 ∧
      wst (after (.arm host0 5) idle0) = Status.denied.code ∧ wst (after (.reset host0 5) idle0) = Status.denied.code) := by
  unfold Passes; decide +kernel

/-- FaultsAndQuiesceEndAnAcquisition. -/
theorem wit_FaultsAndQuiesce :
    let s := { after (.arm host0 5) (ready 5) with mode := { base := .quiesce } };
    s.isArmed 5 = true ∧ ((s.bench 5).fault).getD .lane ≠ .none ∧
    s.mode.base = .quiesce ∧ (s.bench 5).fault = none ∧ (after (.quiesceDisarmTimeout 5) s).benchState 5 = .defined ∧
    (after (.quiesceDisarmTimeout 5) s).clock = 1 * ms := by
  decide +kernel

/-- SchedulesArmAndDisarm. -/
theorem wit_SchedulesArmAndDisarm :
    (let s := after (.arm host0 5) (ready 5);
      Passes host0 O.ARM_AT 5 7#64 s ∧ s.isArmed 5 = true ∧ wst (after (.armAt host0 5 7#64) s) = Status.busy.code ∧
      Passes host0 O.DISARM_AT 5 0#64 s ∧ Passes host0 O.DISARM_AT 5 200000#64 s ∧ s.timePassed 200000 = false ∧
      ((after (.disarmAt host0 5 200000#64) s).bench 5).stopAt = some ((200000 * ns : Nat) : Int) ∧
      Passes host0 O.DISARM_AT 5 99999#64 s ∧ (s.bench 5).fault = none ∧ s.timePassed 99999 = true ∧
      (after (.disarmAt host0 5 99999#64) s).disarmSched 5 = schRejected ∧
      (let t := s.put O.DISARM_LATE_POLICY 5 1#64;
        Passes host0 O.DISARM_AT 5 99999#64 t ∧ (after (.disarmAt host0 5 99999#64) t).disarmSched 5 = schLate ∧
        (after (.disarmAt host0 5 99999#64) t).benchState 5 = .defined)) ∧
    (let s := (ready 5).put O.ARM_LATE_POLICY 5 1#64;
      Passes host0 O.ARM_AT 5 99999#64 s ∧ armCheck 5 s = .ok ∧ s.timePassed 99999 = true ∧
      (after (.armAt host0 5 99999#64) s).benchState 5 = .armed ∧ (after (.armAt host0 5 99999#64) s).armSched 5 = schLate ∧
      Passes host0 O.ARM_AT 5 99999#64 (ready 5) ∧ (after (.armAt host0 5 99999#64) (ready 5)).armSched 5 = schRejected) ∧
    (let s := ready 5;
      Passes host0 O.ARM_AT 5 0#64 s ∧ Passes host0 O.ARM_AT 5 100000#64 s ∧ s.isArmed 5 = false ∧ armCheck 5 s = .ok ∧
      s.timePassed 100000 = false ∧ s.timePassed 99999 = true ∧ (after (.armAt host0 5 100000#64) s).armSched 5 = schPending ∧
      (let t := after (.armAt host0 5 100000#64) s;
        armCheck 5 (advanceMod (t.elN O.ARM_AT 5 * ns) t) = .ok ∧ (after (.scheduledArm 5) t).benchState 5 = .armed ∧
        (after (.scheduledArm 5) t).armSched 5 = schDone ∧ (after (.scheduledArm 5) t).mtime = 100 * us) ∧
      (let t := (after (.armAt host0 5 100000#64) s).put O.LANE_STATE 0 1#64;
        t.armSched 5 = schPending ∧ armCheck 5 (advanceMod (t.elN O.ARM_AT 5 * ns) t) = .noResource ∧
        (after (.scheduledArm 5) t).armSched 5 = schFailed)) ∧
    (let s := (after (.disarmAt host0 5 200000#64) (after (.arm host0 5) (ready 5))).modLane 0 (fun x => { x with lastCw := 100000000000000 });
      s.disarmSched 5 = schPending ∧ s.isArmed 5 = true ∧ (s.bench 5).fault = none ∧ (s.bench 5).triple = some (7#64, 8#64, 1) ∧
      s.domainPast 7#64 ((s.elN O.DISARM_AT 5 * ns : Nat) : Int) = true ∧ (after (.scheduledDisarm 5) s).benchState 5 = .defined ∧
      (after (.scheduledDisarm 5) s).disarmSched 5 = schDone) := by
  unfold Passes; decide +kernel

/-- CommitsWaitForTheirRow. -/
theorem wit_CommitsWaitForTheirRow :
    (let s := (ready 5).put O.COMMIT_CLOCK 5 3#64;
      Passes host0 O.COMMIT 5 1#64 s ∧ s.benchCarries 5 (s.elN O.COMMIT_CLOCK 5) = true ∧ s.commitPending 5 = false ∧ s.isArmed 5 = false ∧
      wst (after (.commit host0 5) s) = 0 ∧ Passes host0 O.COMMIT 5 2#64 s) ∧
    (let s := (after (.arm host0 5) ((ready 5).put O.COMMIT_CLOCK 5 3#64)).put O.COMMIT_STAMP 5 99#64;
      Passes host0 O.COMMIT 5 1#64 s ∧ s.benchCarries 5 (s.elN O.COMMIT_CLOCK 5) = true ∧ s.commitPending 5 = false ∧ s.isArmed 5 = true ∧
      commitCheck 5 s = true ∧ ((after (.commit host0 5) s).bench 5).commit = some (3, 99#40) ∧
      (let t := after (.commit host0 5) s;
        Passes host0 O.COMMIT 5 1#64 t ∧ t.benchCarries 5 (t.elN O.COMMIT_CLOCK 5) = true ∧ t.commitPending 5 = true ∧
        wst (after (.commit host0 5) t) = Status.busy.code ∧ Passes host0 O.COMMIT 5 2#64 t ∧
        fld ((after (.commitCancel host0 5) t).el O.COMMIT_STATUS 5) 2 0 = 4 ∧ (t.bench 5).commit = some (3, 99#40) ∧
        ((after (.commitBroadcast 5) t).bench 5).commitSeen = true)) := by
  unfold Passes; decide +kernel

/-! ## Acquisition and assay -/

/-- A row of clock 3 of design 7 with group 10, and a row for the planisher. -/
def row7 (stamp : W40) (t : Int) (w : W40) : Row :=
  { design := 7#64, dclk := 3, stamp := stamp, time := t, incomplete := false, words := [{ group := 10, lane := 0, word := some w }] }
def plan7 (stored : Bool) (off : List Nat) : PlanRow :=
  { row := { row7 5#40 100 7#40 with off := off }, stored := stored, opens := false, gateOpens := false, snap := false, closes := none,
    segment := 2, keepFrom := none, events := [], lead := (0, 0), last := none }

/-- Bench 1023 with one open stream, its last, and that row planned. -/
def planS (stored : Bool) (off : List Nat) : State :=
  (idle0.setStream 16383 { open_ := true, clocks := [3], groups := [(10, 3)] }).modBench 1023 (fun x => { x with plan := [plan7 stored off] })

/-- A stored row of bench 1023 with a word of group 10, whose stream has received 8 last and is in its clock's context. -/
def planR (w : W40) : PlanRow := { plan7 true [] with row := row7 5#40 100 w, sync := 3 }
def planC (w : W40) : State :=
  let k : Stream :=
    { open_ := true, clocks := [3], groups := [(10, 3)], recv := [(10, 8#40)], cell := [1#40], ctxs := [(3, 3#40)], cur := some 3,
      synced := [(3, 3#40)] }
  (idle0.setStream 16383 k).modBench 1023 (fun x => { x with plan := [planR w] })

/-- PlanisherRowReachesItsStream: the last stream of bench 1023. -/
theorem wit_PlanisherRow :
    (∀ p ∈ [(true, [15]), (false, [])],
      ((planS p.1 p.2).bench 1023).plan = [plan7 p.1 p.2] ∧ 16383 ∈ streamsOf 1023 ∧
      (∀ j ∈ streamsOf 1023, j ≠ 16383 → ((planS p.1 p.2).stream j).open_ = false) ∧ ((planS p.1 p.2).stream 16383).open_ = true ∧
      ((planS p.1 p.2).stream 16383).clocks.contains 3 = true ∧ ((planS p.1 p.2).stream 16383).laneGaps = [] ∧
      ((planS p.1 p.2).stream 16383).doneGaps = [] ∧
      ((planS p.1 p.2).bench 1023).events = []) ∧
    (plan7 true [15]).row.off.contains (16383 % 16) = true ∧ rowWords 16383 (plan7 true [15]).row (planS true [15]) ≠ [] ∧
    rowWords 16383 (plan7 false []).row (planS false []) = [(10, some 7#40)] ∧
    ((after (.planisherRow 1023) (planS false [])).stream 16383).latest = [(3, 5#40, 100)] ∧
    3 ∈ ((after (.planisherRow 1023) (planS false [])).stream 16383).snapDue ∧
    (after (.planisherRow 1023) (planS true [15])).el O.STREAM_ROWS_LOST 16383 = 1#64 ∧
    2 ∈ ((after (.planisherRow 1023) (planS true [15])).bench 1023).gapped := by
  decide +kernel

/-- PlanisherRowReachesItsStream: a stored row in its clock's context, with no changed word and with one. -/
theorem wit_PlanisherRow_stored :
    ∀ p ∈ [(8#40, []), (9#40, [put40 1 36 ||| put40 10 20 ||| put40 2 0, 9#40])],
      let s := planC p.1;
      let k := s.stream 16383;
      let pr := planR p.1;
      ((s.bench 1023).plan = [pr] ∧ (∀ j ∈ streamsOf 1023, j ≠ 16383 → (s.stream j).open_ = false) ∧ k.open_ = true ∧
      k.clocks.contains 3 = true ∧ k.laneGaps = [] ∧ k.doneGaps = [] ∧ (s.bench 1023).events = [] ∧ pr.row.off = []) ∧
      (rowWords 16383 pr.row s = [(10, some p.1)] ∧ k.gaps = [] ∧ k.snapDue = [] ∧ s.elN O.STORE_MODE 1023 ≠ 1 ∧ k.resetGap = false ∧
      k.starts = []) ∧ (k.cell = [1#40] ∧ k.cell.length + 2 < cellWords ∧ pairGet k.ctxs 3 = some 3#40 ∧ k.cur = some 3 ∧ k.syncDue = [] ∧
      (pr.row.stamp - (pairGet k.synced 3).getD 0#40).toNat < pr.sync ∧
      changedOf k (rowWords 16383 pr.row s) = (if p.1 = 8#40 then [] else [(10, 9#40)]) ∧
      ((after (.planisherRow 1023) s).stream 16383).cell = 1#40 :: p.2) := by
  decide +kernel

/-- GoldIngotsAreAllocatedAfresh: both ingots of bench 5, one of them with a byte in it. -/
theorem wit_GoldIngots :
    (let s := (ready 5).writeBytes (cellAddr 1 1023) [9#8];
      Passes host0 O.GOLD_INGOTS 5 2#64 s ∧ s.elN O.INGOT_QUOTA 5 = 2 ∧
      (∀ a ∈ s.enginesOf 5, s.elN O.GOLD_FIRST a * 1024 + s.elN O.GOLD_CELLS a ≤ 2 * 1024) ∧ s.isArmed 5 = false ∧
      s.byteAt (cellAddr 1 1023) = 9#8 ∧ s.storeReqs = [] ∧ s.staging = [] ∧ s.storeTakes = false ∧
      (let t := { s with calibrated := true };
        Passes host0 O.GOLD_INGOTS 5 2#64 t ∧ t.storeReqs = [] ∧ t.staging = [] ∧ t.storeTakes = true ∧ t.jobsStopped = false ∧
        t.frozen = [])) ∧
    (let s := ready 5;
      Passes host0 O.GOLD_INGOTS 5 3#64 s ∧ wst (after (.goldIngots host0 5 3#64) s) = Status.invalid.code) ∧
    (let s := (ready 5).put O.BENCH_STATE 5 2#64;
      Passes host0 O.GOLD_INGOTS 5 2#64 s ∧ s.isArmed 5 = true ∧ s.enginesOf 5 = [] ∧ wst (after (.goldIngots host0 5 2#64) s) = Status.busy.code) := by
  unfold Passes; decide +kernel

/-- The first 45 bytes of a golden cell: a header for one group, one ROW of value 7 and the END (Table 6.1, R217). -/
def goldHead : List Byte :=
  ([8 * 2 ^ 36, 0, 7, 0, 8, 1, 2 ^ 36, 7, 15 * 2 ^ 36] : List Nat).flatMap (fun w => bytesLE 5 w)

/-- Engine 0 of bench 5, whose trace is one golden cell. -/
def goldS : State :=
  let s := ((((ready 5).put O.AE_OWNER 0 5#64).put O.AE_LIST_LEN 0 1#64).put O.GOLD_CELLS 0 1#64).put O.AE_GROUP_LIST 0 10#64;
  (s.put O.GOLD_INGOTS 5 1#64)

/-- goldS with the trace in its ingot. -/
def goldM : State := (goldS.writeBytes 0 goldHead).writeBytes 1020 [0x62#8, 0x5b#8, 0#8, 0#8]

/-- goldM while its trace is sealed, and with the writes that were under way performed. -/
def goldMs : State := { goldM.put O.GOLD_STATE 0 (BitVec.ofNat 64 goldSealing) with calibrated := true }
def goldM1 : State := sealTraced 0 [] goldMs

theorem gold_bytes1 : (goldBytes 0 0 goldM1).take 1020 = goldHead ++ List.replicate 975 0#8 := by decide +kernel
theorem gold_walk : goldWalk 1 205 true false (goldWords 0 0 204 goldM1) 0 = none := by decide +kernel
theorem gold_tr : trailerCrc (goldBytes 0 0 goldM1) = 0x5b62 ∧ trailerSeq (goldBytes 0 0 goldM1) = 0 := by decide +kernel

/-- The CRC of the cell (R191), in runs of 60 bytes: its value before and after each run of zeros. -/
theorem gold_runs : ∀ p ∈ [((0x3027 : Nat), (0xbd21 : Nat)), (0xbd21, 0x82b2), (0x82b2, 0xc892), (0xc892, 0xcbe9), (0xcbe9, 0x7c9b), (0x7c9b, 0xfbe9), (0xfbe9, 0x7236), (0x7236, 0x9c06), (0x9c06, 0x8147), (0x8147, 0x3fa5), (0x3fa5, 0xa858), (0xa858, 0xc107), (0xc107, 0xcb02), (0xcb02, 0x3704), (0x3704, 0xab19), (0xab19, 0x5b62)],
    (List.replicate 60 0#8).foldl crcByte (BitVec.ofNat 16 p.1) = BitVec.ofNat 16 p.2 := by decide +kernel

theorem gold_crc : crc16 (goldHead ++ List.replicate 975 0#8) = 0x5b62#16 := by
  have h0 : (goldHead ++ List.replicate 15 0#8).foldl crcByte 0xffff#16 = 0x3027#16 := by decide +kernel
  have e : goldHead ++ List.replicate 975 0#8 =
      (goldHead ++ List.replicate 15 0#8) ++ (List.replicate 16 (List.replicate 60 0#8)).flatten := by
    rw [List.append_assoc, List.flatten_replicate_replicate, List.replicate_append_replicate]
  rw [crc16, e, List.foldl_append, h0]
  have h := gold_runs
  simp only [List.forall_mem_cons] at h
  generalize List.replicate 60 0#8 = run at h ⊢
  simp [List.replicate_succ, h]

theorem gold_ok (bs : List Byte) (h1 : trailerCrc bs = 0x5b62 ∧ trailerSeq bs = 0) (h2 : crc16 (bs.take 1020) = 0x5b62#16) :
    cellOk bs 0 = true := by
  simp [cellOk, h1, h2]

theorem gold_size : goldM1.elN O.GOLD_CELLS 0 = 1 ∧ goldM1.aeLen 0 = 1 := by decide +kernel

theorem gold_cell : goldCellOk 0 0 goldM1 = true := by
  unfold goldCellOk
  exact gold_ok _ gold_tr (by rw [gold_bytes1]; exact gold_crc)

theorem gold_seal (s : State) (hc : s.elN O.GOLD_CELLS 0 = 1 ∧ s.aeLen 0 = 1) (hok : goldCellOk 0 0 s = true)
    (hw : goldWalk 1 205 true false (goldWords 0 0 204 s) 0 = none) : sealCheck 0 s = none := by
  simp only [sealCheck, State.goldTotal, hc, hw]
  simp [hok]

theorem gold_good : sealCheck 0 goldM1 = none := gold_seal _ gold_size gold_cell gold_walk

/-- Where every stack's cells lie on rank 0. -/
def homes0 : List (Nat × List Nat) := (List.range 8).map (fun k => (k, [0]))

theorem home_zero_of (s : State) (h : s.homes = homes0) (i c : Nat) : s.rankOf i c = 0 := by
  have hp : ∀ p < 8, Tab.get (fun k => (List.range 4).map (fun i => 4 * k + i)) homes0 p = [0] := by decide
  have hk := hp (placeStack i c) (Nat.mod_lt _ (by decide))
  simp [State.rankOf, State.homeRanks, h, hk, Nat.mod_one]

theorem home_zero (s : State) (h : s.homes = homes0) (hm : s.mig = none) (i c : Nat) : s.readRank i c = 0 := by
  simp [State.readRank, hm, home_zero_of s h]

/-- A state in which the store's error records are taken, so that a further error adds to a count (R469). -/
def recorded (s : State) : State :=
  ((s.put O.ERR_FIRST 24 (put 1 63)).put O.ERR_SECOND 24 (put 1 63)).put O.ERR_NOTIFIED 6 3#64

/-- goldMs in `BRINGUP`, where an uncorrectable error freezes the controller that meets it (Table 9.7), and its trace read. -/
def goldR : State := { recorded goldMs with mode := { base := .bringup }, homes := homes0 }
def goldR1 (r : Nat) : State :=
  (readCell 0 0 (readErrors r 0 0 [2] (jobAccesses [goldR.readRank 0 0] [cellRow (goldR.readRank 0 0) 0 0] goldR))).2

theorem gold_read : sealTraced 0 [(0, [2])] goldR = goldR1 0 := by
  have h : sealTraced 0 [(0, [2])] goldR = goldR1 ((jobAccesses [goldR.readRank 0 0] [cellRow (goldR.readRank 0 0) 0 0] goldR).readRank 0 0) := rfl
  rw [h, home_zero _ rfl rfl]

theorem gold_waits : (sealTraced 0 [(0, [2])] goldR).sealWaits 0 = true := by
  have h : (goldR1 0).jobsStopped = true := by decide +kernel
  simp [gold_read, State.sealWaits, h]

/-- SealingJudgesTheTrace: a good trace, and one without an END. -/
theorem wit_Sealing :
    (Passes host0 O.GOLD_SEAL 0 1#64 goldS ∧ goldS.aeArmed 0 = false ∧ goldS.elN O.GOLD_STATE 0 ≠ goldSealing ∧
      Passes host0 O.GOLD_SEAL 0 2#64 goldS ∧ wst (after (.goldSeal host0 0 2#64) goldS) = Status.invalid.code) ∧
    (goldMs.elN O.GOLD_STATE 0 = goldSealing ∧ goldMs.sealWaits 0 = false ∧ goldM1.sealWaits 0 = false ∧ sealCheck 0 goldM1 = none) ∧
    (let s := goldMs.put O.GOLD_CELLS 0 0#64;
      s.elN O.GOLD_STATE 0 = goldSealing ∧ s.sealWaits 0 = false ∧ (sealTraced 0 [] s).sealWaits 0 = false ∧
      sealCheck 0 (sealTraced 0 [] s) = some (2, 0) ∧
      (after (.goldSealDone { a := 0 }) s).elN O.GOLD_STATE 0 = goldBad ∧
      fld ((after (.goldSealDone { a := 0 }) s).el O.AE_STATUS 0) 3 0 = 2) ∧
    (let s := { goldMs with calibrated := false };
      s.elN O.GOLD_STATE 0 = goldSealing ∧ s.sealWaits 0 = true) ∧
    (goldR.elN O.GOLD_STATE 0 = goldSealing ∧ goldR.sealWaits 0 = false ∧ (sealTraced 0 [(0, [2])] goldR).sealWaits 0 = true) ∧
    (let s := goldS.put O.GOLD_STATE 0 (BitVec.ofNat 64 goldSealing);
      Passes host0 O.GOLD_SEAL 0 1#64 s ∧ s.aeArmed 0 = false ∧ s.elN O.GOLD_STATE 0 = goldSealing ∧
      wst (after (.goldSeal host0 0 1#64) s) = Status.busy.code) ∧
    (let s := goldS.put O.BENCH_STATE 5 2#64;
      Passes host0 O.GOLD_SEAL 0 1#64 s ∧ s.aeArmed 0 = true ∧ wst (after (.goldSeal host0 0 1#64) s) = Status.busy.code) := by
  unfold Passes
  refine ⟨by decide +kernel, ⟨by decide +kernel, by decide +kernel, by decide +kernel, gold_good⟩, by decide +kernel, by decide +kernel,
    ⟨by decide +kernel, by decide +kernel, gold_waits⟩, by decide +kernel, by decide +kernel⟩

/-- An engine that aligns on stamp 5, with a golden word and a live one. -/
def assayS (w : W40) (skip : Nat) : State :=
  (goldS.put O.AE_STATE 0 1#64).setEngine 0
    { rows := [row7 5#40 100 w], s0 := some 5#40, values := [7#40], holdLeft := 2, skipLeft := skip }

/-- AssayComparesLiveWithGoldenWords: an equal row, a divergent one, a SKIP, and words not in hand. -/
theorem wit_Assay :
    (∀ p ∈ [(7#40, 0), (7#40, 2), (6#40, 0), (6#40, 2)],
      (assayS p.1 p.2).aeBench 0 = some 5 ∧ ((assayS p.1 p.2).engine 0).rows = [row7 5#40 100 p.1] ∧ (assayS p.1 p.2).aeLive 0 = true ∧ ((assayS p.1 p.2).bench 5).undecided = [] ∧
      ((assayS p.1 p.2).engine 0).s0 = some 5#40 ∧ (5#40 - 5#40 : W40).toNat < 2 ^ 39 ∧ ((assayS p.1 p.2).engine 0).ahead = [] ∧ (assayS p.1 p.2).aeLen 0 ≤ 1024 ∧
      ((assayS p.1 p.2).engine 0).maskSet < 16 ∧ (5#40 - 5#40 : W40).toNat = ((assayS p.1 p.2).engine 0).goldRow ∧ ((assayS p.1 p.2).engine 0).readFree ≤ 100 ∧
      ((assayS p.1 p.2).engine 0).cmpFree ≤ 100 ∧ 2 ≤ ((assayS p.1 p.2).engine 0).holdLeft ∧ ((assayS p.1 p.2).engine 0).skipLeft = p.2 ∧ ((assayS p.1 p.2).engine 0).verdict = false ∧
      aeContinue ((assayS p.1 p.2).el O.AE_CONFIG 0) = false ∧ aeQuench ((assayS p.1 p.2).el O.AE_CONFIG 0) = false ∧
      ((probes 5 0 (row7 5#40 100 p.1) ((assayS p.1 p.2).engine 0) (assayS p.1 p.2)).filter (fun p => p.live.isSome)).length * us / (assayS p.1 p.2).assayLimit ≤ 400 * ns ∧
      ((probes 5 0 (row7 5#40 100 p.1) ((assayS p.1 p.2).engine 0) (assayS p.1 p.2)).filter (fun p => p.live.isSome)).map Probe.divergent = [decide (p.1 = 6#40)] ∧
      (after (.assayCompare 0 true) (assayS p.1 p.2)).elN O.AE_STATE 0 = (if p.1 = 6#40 ∧ p.2 = 0 then aeFailed else aeComparing) ∧
      (after (.assayCompare 0 true) (assayS p.1 p.2)).elN O.AE_WORDS_COMPARED 0 = (if p.2 = 0 then 1 else 0) ∧
      (after (.assayCompare 0 true) (assayS p.1 p.2)).elN O.AE_DIVERGENT_ROWS 0 = (if p.1 = 6#40 ∧ p.2 = 0 then 1 else 0)) := by
  decide +kernel

/-! ## Locks, proposals and what changes hands -/

/-- Host port 1's physical function, principal 2. -/
def host1 : Via := .wctl 256

/-- LocksHaveOneOwner: taken, refused, taken again by its owner, held by another, and the lock of the protection set. -/
theorem wit_LocksHaveOneOwner :
    (let s := idle0.put O.LOCK_STATE 255 (setFld 0#64 63 54 1023);
      Passes host0 O.LOCK_ACQUIRE 255 600000#64 s ∧ mayLock host0 255 s = true ∧ s.lockHeld 255 = false ∧
      (after (.lockAcquire host0 255 600000#64) s).lockHeld 255 = true ∧
      fld ((after (.lockAcquire host0 255 600000#64) s).el O.LOCK_STATE 255) 63 54 = 0 ∧
      ((after (.lockAcquire host0 255 600000#64) s).lock 255).leaseEnd = 600000 * ms) ∧
    (Passes host0 O.LOCK_ACQUIRE 255 0#64 idle0 ∧ Passes host0 O.LOCK_ACQUIRE 255 600001#64 idle0 ∧ mayLock host0 255 idle0 = true ∧
      wst (after (.lockAcquire host0 255 600001#64) idle0) = Status.invalid.code) ∧
    (let s := after (.lockAcquire host0 7 5#64) idle0;
      Passes host0 O.LOCK_ACQUIRE 7 9#64 s ∧ s.lockHeld 7 = true ∧ s.lockOwner 7 = lockCaller host0 s ∧
      ((after (.lockAcquire host0 7 9#64) s).lock 7).lease = 9 ∧
      Passes host1 O.LOCK_ACQUIRE 7 9#64 s ∧ mayLock host1 7 s = true ∧ s.lockOwner 7 ≠ lockCaller host1 s ∧
      fld ((after (.lockAcquire host1 7 9#64) s).el O.WIN_STATUS (copyEl 256 0)) 7 0 = Status.busy.code) ∧
    (Passes host0 O.LOCK_ACQUIRE 0 1#64 idle0 ∧ mayLock host0 0 idle0 = true ∧ idle0.propState ≠ propApplying ∧
      (after (.lockAcquire host0 0 1#64) idle0).propState = propDraft) ∧
    (let s := idle0.put O.PRINC_RIGHTS 1 0#64;
      Passes host0 O.LOCK_ACQUIRE 7 1#64 s ∧ mayLock host0 7 s = false ∧ wst (after (.lockAcquire host0 7 1#64) s) = Status.denied.code ∧
      Passes host0 O.LOCK_ACQUIRE 0 1#64 s ∧ mayLock host0 0 s = false ∧ wst (after (.lockAcquire host0 0 1#64) s) = Status.denied.code ∧
      fld ((after (.lockAcquire host0 0 1#64) s).el O.PROP_STATUS 0) 15 8 = Status.denied.code) ∧
    (let s := after (.lockAcquire host0 0 1#64) idle0;
      Passes host1 O.LOCK_ACQUIRE 0 1#64 s ∧ mayLock host1 0 s = true ∧ s.lockHeld 0 = true ∧ s.lockOwner 0 ≠ lockCaller host1 s ∧
      fld ((after (.lockAcquire host1 0 1#64) s).el O.PROP_STATUS 0) 15 8 = Status.busy.code) := by
  unfold Passes; decide +kernel

/-- LocksAreFreedByReleaseBreakOrExpiry: lock 7, and LK000 with a draft. -/
theorem wit_LocksAreFreed :
    (∀ k ∈ [0, 255],
      let s := after (.lockAcquire host0 k 5#64) idle0;
      Passes host0 O.LOCK_RELEASE k 1#64 s ∧ s.holds host0 k = true ∧ (k = 0 → s.propState = propDraft) ∧
      (after (.lockRelease host0 k 1#64) s).lockHeld k = false ∧
      Passes host1 O.LOCK_RELEASE k 1#64 s ∧ s.holds host1 k = false ∧
      Passes host0 O.LOCK_RENEW k 1#64 s ∧ Passes host1 O.LOCK_RENEW k 1#64 s ∧
      Passes host1 O.LOCK_BREAK k 1#64 s ∧ s.lockHeld k = true ∧
      bit ((after (.lockBreak host1 k 1#64) s).el O.LOCK_STATE k) 1 = true ∧
      (k = 0 → fld ((after (.lockBreak host1 k 1#64) s).el O.PROP_STATUS 0) 7 4 = voidBroken) ∧
      Passes host0 O.LOCK_BREAK k 1#64 idle0 ∧ idle0.lockHeld k = false) ∧
    (∀ p ∈ [((0 : Fin 256), 0), (255, 0)],
      let s := after (.lockAcquire host0 p.1 5#64) idle0;
      s.lockHeld p.1 = true ∧ (after (.lockLeaseExpiry p.1) s).lockHeld p.1 = false ∧
      (p.1.val = 0 → s.propState = propDraft ∧ (after (.lockLeaseExpiry p.1) s).propState = propVoid) ∧
      (let t := after (.lockLeaseExpiry p.1) s;
        Passes host0 O.LOCK_RELEASE p.1 1#64 t ∧ t.holds host0 p.1 = false ∧ t.justLapsed host0 p.1 = true ∧
        t.justLapsed host1 p.1 = false ∧ (after (.lockRelease host0 p.1 1#64) t).el O.LOCK_STATE p.1 = setBit (t.el O.LOCK_STATE p.1) 1 false ∧
        (p.1.val = 0 → fld ((after (.lockRelease host0 p.1 1#64) t).el O.PROP_STATUS 0) 7 4 = voidCancelled))) := by
  unfold Passes; decide +kernel

/-- Two custodians with different keys, LK000 held by the first, and a draft that defines bench 7 or takes away bench 0. -/
def custS (b : Nat) (v : W64) : State :=
  let s := (((idle0.put O.PRINC_RIGHTS 1 9#64).put O.PRINC_KEY 8 1#64).put O.PRINC_RIGHTS 2 9#64).put O.PRINC_KEY 16 2#64;
  after (.lockAcquire host0 0 1#64) ((((s.put O.PROP_LEN 0 1#64).put O.PROP_BODY 0
    (put O.BENCH_DEFINED.base 48 ||| put 1 28 ||| put b 0)).put O.PROP_BODY 1 v))

/-- The same with the proposal open as number 1. -/
def openS : State := ((custS 7 1#64).put O.PROP_STATUS 0 (put propOpen 0 ||| put 1 16 ||| put 1 48)).put O.PROP_SEQ 0 1#64

/-- ProposalsNeedTwoCustodians; what `ecdsaVerify` answers is open, so the two signatures are premises. -/
theorem wit_ProposalsNeedTwoCustodians :
    (let s := { custS 7 1#64 with propReserved := 64 };
      Passes host0 O.PROP_SUBMIT 0 1#64 s ∧ s.holds host0 0 = true ∧ (viaRights host0 s).custodian = true ∧ firstCustodians host0 s = false ∧
      viaPrinc host0 s = some 1 ∧ s.hasKeyOf 1 = true ∧ s.elN O.PROP_SEQ 0 + 1 = 1 ∧ s.propState = propDraft ∧ s.propEntries ≠ [] ∧
      (∀ e ∈ s.propEntries, e.ok = true) ∧ protCheck s (s.withEntries s.propEntries) = .ok ∧ 1 ≤ s.propReserved ∧
      Passes host1 O.PROP_SUBMIT 0 1#64 s ∧ s.holds host1 0 = false) ∧
    (Passes host1 O.PROP_COUNTERSIGN 0 1#64 openS ∧ (viaRights host1 openS).custodian = true ∧ openS.propState = propOpen ∧
      openS.propNumber = 1 ∧ otherCustodian (viaPrinc host1 openS) openS = true ∧ viaPrinc host1 openS = some 2 ∧ openS.hasKeyOf 2 = true ∧
      Passes host0 O.PROP_COUNTERSIGN 0 1#64 openS ∧ (viaRights host0 openS).custodian = true ∧
      viaPrinc host0 openS = some openS.proposer) ∧
    (Passes host1 O.PROP_CANCEL 0 1#64 openS ∧ viaPrinc host1 openS ≠ some openS.proposer ∧
      (after (.propCancel host1 1#64) openS).propState = propVoid ∧ (after (.propCancel host1 1#64) openS).lockHeld 0 = false ∧
      Passes host0 O.PROP_CANCEL 0 1#64 openS) := by
  unfold Passes; decide +kernel

theorem wit_signatures (h : ∀ k d g, Config.ecdsaVerify k d g = true) :
    (custS 7 1#64).signedBy (some 1) O.PROP_SIG ((custS 7 1#64).propDigest 1) = true ∧
      openS.signedBy (some 2) O.CSIGN_SIG (openS.propDigest 1) = true := by
  simp only [State.signedBy, h, Bool.and_true]; decide +kernel

/-- ProposalsApplyWholeOrNotAtAll: bench 7 is defined, and a set without bench 0 is refused. -/
theorem wit_ProposalsApply :
    (let s := setPropState propApplying 0 openS;
      s.propState = propApplying ∧ protCheck s (s.withEntries s.propEntries) = .ok ∧ s.packets = [] ∧
      (after .proposalApply s).benchState 7 = .defined ∧ (after .proposalApply s).propState = propApplied) ∧
    (let s := setPropState propApplying 0 (custS 0 0#64);
      protCheck s (s.withEntries s.propEntries) = .invalid ∧ (after .proposalApply s).propState = propVoid ∧
      (after .proposalApply s).el O.BENCH_DEFINED 0 = 1#64) := by
  decide +kernel

/-- ScrubbedIngotsEnterTheDirectory: for bench 7, and where it has its quota; and before calibration. (With a controller frozen,
`STORE_STATE` does not depend on the placement of cells.) -/
theorem wit_ScrubbedIngots :
    idle0.storeTakes = false ∧
    ∀ q ∈ [1, 0],
      let s0 := ((((idle0.put O.BENCH_DEFINED 7 1#64).put O.INGOT_QUOTA 7 (BitVec.ofNat 64 q)).setHolder 0 ownerDirty).writeBytes 5 [3#8]);
      let s : State := { s0 with calibrated := true, frozen := [7] };
      s.storeTakes = true ∧ 0 < s.elN O.TRACE_INGOTS 0 ∧ ownerFree ≤ s.ingotHolder 0 ∧ s.mode.safe = false ∧ s.mode.recovery = none ∧ s.storeReqs = [] ∧
      s.staging = [] ∧ s.elB O.BENCH_DEFINED 7 = true ∧ s.dir 7 = [] ∧ (after (.ingotScrub 7 0) s).byteAt 5 = 0#8 ∧
      ((after (.ingotScrub 7 0) s).dir 7).length = q ∧ (after (.ingotScrub 7 0) s).ingotHolder 0 = (if q = 1 then 7 else ownerFree) := by
  decide +kernel

/-- OwnershipOfALinePassesInOrder: a line granted, passed on, written back and handed to the lowest core that waited. -/
theorem wit_OwnershipOfALine :
    (idle0.line 9).wb = none ∧ (idle0.line 9).reading = none ∧
    (let s := after (.lineMemoryDone 9) (after (.ownershipRequest 3 9) idle0);
      (s.line 9).owner = some 3 ∧ (s.line 9).reading = none ∧
      (let t := after (.ownershipRequest 1 9) (after (.ownershipRequest 2 9) (after (.writeBack 3 9) s));
        (t.line 9).wb = some 3 ∧ (t.line 9).waiting ≠ [] ∧ (after (.lineMemoryDone 9) t).line 9 ≠ t.line 9 ∧
        ((after (.lineMemoryDone 9) t).line 9).owner = some 1 ∧ 2 ∈ ((after (.lineMemoryDone 9) t).line 9).retry) ∧
      (s.line 9).owner ≠ some 0) := by
  decide +kernel

/-- OwnershipOfALinePassesInOrder: what comes in one CTL cycle, in the wrong order, and what comes in the next. -/
theorem wit_LineCycle :
    (let s := after (.ownershipRequest 1 9) (after (.ownershipRequest 3 9) idle0);
      (s.line 9).cycle = s.ctlCycle ∧ (s.line 9).before = {} ∧ (s.line 9).owner = some 1 ∧ (s.line 9).waiting = [3]) ∧
    (let s := (advance ns idle0).setLine 9 { owner := some 2 };
      (s.line 9).cycle ≠ s.ctlCycle ∧ (s.line 9).heldBy 2 = true ∧ ((after (.writeBack 2 9) s).line 9).wb = some 2 ∧
      (let t := after (.ownershipRequest 0 9) s;
        (t.line 9).cycle = t.ctlCycle ∧ (t.line 9).before.heldBy 2 = true ∧ (t.line 9).owner = some 0 ∧
        ((after (.writeBack 2 9) t).line 9).wb = some 2 ∧ ((after (.writeBack 2 9) t).line 9).waiting = [0])) := by
  decide +kernel

/-! ## Queues and the cell pool -/

/-- Queue 16127 of bench 5 with one event packet of two cells and two words, the second its last. -/
def queueS : State :=
  ((((ready 5).put O.Q_OWNER 16127 5#64).setQueue 16127 { pkts := [1] }).setPacket 1
    { kind := .event, bench := some 5, cells := [0, 1], words := [7#64, 0x4000000000000009#64] }).put O.Q_PROD 16127 1#64

theorem queueS_packets (p : Nat) : ∀ b, (queueS.packet p).bench = some b → b < 1024 := by
  have h : ∀ q ∈ queueS.packets, q.2.bench = some 5 := by decide +kernel
  refine tab_all (fun (x : Packet) => ∀ b, x.bench = some b → b < 1024) _ _ ?_ ?_ p
  · intro k b hb; simp [noPacket] at hb
  · intro q hq b hb; rw [h q hq] at hb; cases hb; decide

/-- Drain queue 0 of bench 5 under cut-through, whose stream fills packet 4. -/
def cutS : State :=
  (((ready 5).put O.Q_OWNER 0 5#64).put O.Q_CONFIG 0 (put 1 0 ||| put 80 36 ||| put 1 20 ||| 0x10000#64)).setStream 80
    { open_ := true, inHand := some 4, cell := List.replicate 13 0#40 }

/-- QueuesBelongToOneBench. -/
theorem wit_QueuesBelong :
    (let s := ((ready 5).put O.QUEUE_QUOTA 5 1#64).put O.Q_LOST 16127 3#64;
      Passes host0 O.Q_CLAIM 5 16127#64 s ∧ s.elN O.Q_OWNER 16127 = noBench ∧ (s.queuesOf 5).length < s.elN O.QUEUE_QUOTA 5 ∧
      (after (.qClaim host0 5 16127#64) s).elN O.Q_OWNER 16127 = 5 ∧ (after (.qClaim host0 5 16127#64) s).elN O.Q_LOST 16127 = 0 ∧
      Passes host0 O.Q_CLAIM 5 16128#64 s ∧ wst (after (.qClaim host0 5 16128#64) s) = Status.denied.code) ∧
    (Passes host0 O.Q_CLAIM 6 16127#64 queueS ∧ queueS.elN O.Q_OWNER 16127 ≠ noBench ∧ queueS.elN O.Q_OWNER 16127 ≠ 6) ∧
    (Passes host0 O.Q_CLAIM 5 0#64 queueS ∧ queueS.elN O.Q_OWNER 0 = noBench ∧ queueS.elN O.QUEUE_QUOTA 5 ≤ (queueS.queuesOf 5).length ∧
      wst (after (.qClaim host0 5 0#64) queueS) = Status.noResource.code) ∧
    (Passes host0 O.Q_RELEASE 5 16127#64 queueS ∧ queueS.elN O.Q_OWNER 16127 = 5 ∧ queueS.queueInUse 5 16127 = false ∧
      (after (.qRelease host0 5 16127#64) queueS).elN O.Q_OWNER 16127 = noBench ∧
      ((after (.qRelease host0 5 16127#64) queueS).queue 16127).pkts = []) ∧
    (let s := (queueS.put O.EVENT_QUEUE 5 16127#64).put O.BENCH_STATE 5 2#64;
      Passes host0 O.Q_RELEASE 5 16127#64 s ∧ s.queueInUse 5 16127 = true ∧ wst (after (.qRelease host0 5 16127#64) s) = Status.busy.code) ∧
    (Passes host0 O.Q_RELEASE 6 16127#64 queueS ∧ queueS.elN O.Q_OWNER 16127 ≠ 6) := by
  unfold Passes; decide +kernel

/-- QueuesAreFlushedResetAndPopped. -/
theorem wit_QueuesAreFlushed :
    (Passes host0 O.Q_FLUSH 16127 1#64 queueS ∧ (queueS.queue 16127).resetting = false ∧ (queueS.queue 16127).flushing = false ∧
      (queueS.queue 16127).inTransfer = false ∧ (after (.qFlush host0 16127 1#64) queueS).elN O.Q_CONS 16127 = 1 ∧
      (after (.qFlush host0 16127 1#64) queueS).el O.Q_DISCARDED 16127 = 1#64 ∧
      Passes host0 O.Q_FLUSH 16127 2#64 queueS) ∧
    (let s := after (.qFlush host0 0 1#64) cutS;
      Passes host0 O.Q_FLUSH 0 1#64 cutS ∧ (cutS.queue 0).resetting = false ∧ (cutS.queue 0).flushing = false ∧
      (cutS.queue 0).inTransfer = false ∧ cutS.qFilling 0 = some 4 ∧ (s.queue 0).flushPkt = some 4 ∧ s.el O.Q_DISCARDED 0 = 0#64) ∧
    (let s := after (.qReset host0 0 1#64) cutS;
      Passes host0 O.Q_RESET 0 1#64 cutS ∧ cutS.linksFilling 0 = true ∧ (s.stream 80).noDrain = true ∧ s.el O.Q_DISCARDED 0 = 1#64) ∧
    (Passes host0 O.Q_RESET 16127 1#64 queueS ∧ Passes host0 O.Q_RESET 16127 0#64 queueS ∧
      (let s := after (.qReset host0 16127 1#64) queueS;
        (s.queue 16127).resetting = true ∧ Passes host0 O.Q_FLUSH 16127 1#64 s ∧ s.el O.Q_CONS 16127 = 1#64 ∧
        (s.queue 16127).gen = 1 ∧ Serves host0 O.Q_POP 16127 s ∧ s.qKind 16127 ≠ 1 ∧
        ((after (.queueResetSweepDone 16127) s).queue 16127).resetting = false)) ∧
    (Serves host0 O.Q_POP 16127 queueS ∧ queueS.qKind 16127 ≠ 1 ∧ (queueS.queue 16127).pkts = 1 :: [] ∧
      (queueS.packet 1).words[(queueS.queue 16127).popAt]? = some 7#64 ∧ bit 7#64 62 = false ∧
      (let s := after (.qPop host0 16127) queueS;
        Serves host0 O.Q_POP 16127 s ∧ (s.packet 1).words[(s.queue 16127).popAt]? = some 0x4000000000000009#64 ∧
        bit 0x4000000000000009#64 62 = true ∧ ((after (.qPop host0 16127) s).queue 16127).pkts = [] ∧
        (after (.qPop host0 16127) s).elN O.Q_CONS 16127 = 1)) ∧
    ((queueS.queue 16127).resetting = false ∧ (after (.qPop host0 16127) queueS).out = [.read host0 .ok (setBit 7#64 63 true)]) ∧
    (let s := after (.queuePointer (.queue 16127)) queueS;
      (s.queue 16127).resetting = true ∧ (s.queue 16127).record = true) ∧
    (let s := (((ready 5).put O.Q_OWNER 16127 5#64).put O.BENCH_STATE 5 2#64);
      (s.queue 16127).pkts = [] ∧ s.elN O.Q_OWNER 16127 = 5 ∧ s.isArmed 5 = true ∧ (s.bench 5).fault = none) := by
  unfold Passes Serves; decide +kernel

/-- AllocatorGrantsPacketsInOrder: a request for a packet, two of one bench beyond its limit, and one beyond it, for an open stream. -/
theorem wit_Allocator :
    (let s := (ready 5).put O.CELL_LIMIT 5 4#64;
      let r : AllocReq := ⟨.acquisition, some 5, 15, 4, none⟩;
      let r1 : AllocReq := ⟨.hostStaging, some 5, 0, 4, none⟩;
      s.held = [] ∧ s.elN O.POOL_MODE 0 = 0 ∧ rightCells r = true ∧ rightCells { r with cells := 3 } = false ∧
      4 + s.othersReserve (some 5) ≤ s.poolFree ∧ s.elN O.BENCH_CELLS 5 + 4 ≤ s.elN O.CELL_LIMIT 5 ∧
      classNum r.cls < classNum r1.cls ∧ s.elN O.CELL_LIMIT 5 < s.elN O.BENCH_CELLS 5 + 4 + 4) ∧
    (let s := ((ready 5).put O.CELL_LIMIT 5 1#64).setStream 95 { open_ := true };
      let r : AllocReq := ⟨.acquisition, some 5, 15, 4, none⟩;
      s.held = [] ∧ s.elN O.POOL_MODE 0 = 0 ∧ rightCells r = true ∧ s.elN O.CELL_LIMIT 5 < s.elN O.BENCH_CELLS 5 + 4 ∧
      (s.stream (16 * 5 + 15)).open_ = true ∧ (s.stream (16 * 5 + 15)).inHand = none ∧
      (after (.allocRound [r]) s).el O.ALLOC_REFUSED 5 = 1#64 ∧ ((after (.allocRound [r]) s).stream 95).refused = true) := by
  decide +kernel

/-- PoolErrorsAreContained: queues with cells in a bank, and a drain queue in `QUIESCE`. -/
theorem wit_PoolErrors :
    (∀ q ∈ queueS.queuesInBank 0, q < 16384) ∧ queueS.queuesInBank 0 = [16127] ∧ queueS.mode.safe = false ∧
    (let s := { queueS.put O.Q_CONFIG 16127 1#64 with mode := { base := .quiesce } };
      s.mode.base = .quiesce ∧ s.qKind 16127 = 1 ∧ (∀ p ∈ s.queues, p.1 < 16384)) := by
  decide +kernel

/-! ## Host ports -/

/-- Bench 5 with a golden ingot and pool cells, function 0 bound to it and able to issue requests, and its drain queue 0, which takes stream 80. -/
def portS : State :=
  let s := ((((((ready 5).put O.FUNC_BINDING 0 5#64).put O.GOLD_INGOTS 5 1#64).put O.CELL_LIMIT 5 64#64).put O.Q_OWNER 0 5#64).put O.Q_CONFIG 0
    (put 1 0 ||| put 80 36 ||| 0x10000#64));
  ((s.setPort 0 { up := true }).setFunc 0 { bme := true, mse := true })
def qh (func log2 : Nat) (enable relaxed : Bool) : W64 := put enable.toNat 0 ||| put relaxed.toNat 1 ||| put func 2 ||| put log2 13

/-- HostBindingsDoorbellsAndMessages. -/
theorem wit_HostBindings :
    (Passes host0 O.Q_HOST 0 (qh 1 4 true false) portS ∧ portS.mayBind 0 1 = false ∧
      wst (after (.qHost host0 0 (qh 1 4 true false)) portS) = Status.denied.code ∧
      Passes host0 O.Q_HOST 0 (qh 0 4 true true) portS ∧ portS.privDrain 0 = false ∧
      wst (after (.qHost host0 0 (qh 0 4 true true)) portS) = Status.denied.code) ∧
    (∀ k ∈ [3, 4, 20, 21],
      Passes host0 O.Q_HOST 0 (qh 0 k true false) portS ∧ portS.mayBind 0 0 = true ∧ portS.qKind 0 = 1 ∧
      qhLog2 (qh 0 k true false) = k ∧ qhEnable (portS.el O.Q_HOST 0) = false ∧
      wst (after (.qHost host0 0 (qh 0 k true false)) portS) = (if k = 4 ∨ k = 20 then Status.ok.code else Status.invalid.code)) ∧
    (let s := portS.put O.Q_HOST 0 (qh 0 4 true false);
      Passes host0 O.Q_HOST 0 (qh 0 5 true false) s ∧ s.mayBind 0 0 = true ∧ qhEnable (s.el O.Q_HOST 0) = true ∧
      qhLog2 (qh 0 5 true false) ≠ qhLog2 (s.el O.Q_HOST 0) ∧ wst (after (.qHost host0 0 (qh 0 5 true false)) s) = Status.busy.code) ∧
    (let s := (portS.put O.Q_HOST 0 (qh 0 4 true false)).setN O.RING_PROD 0 3;
      s.memOn 0 = true ∧ s.qFunc 0 = 0 ∧ s.qFunc 1 ≠ 0 ∧ s.ringHeld 0 = 3 ∧ (bytesLE 4 3).length = 4 ∧
      (after (.dbCons 0 0 (.write (bytesLE 4 3))) s).elN O.HOST_CONS 0 = 3 ∧ (after (.dbCons 0 0 (.write (bytesLE 8 4))) s).el O.DB_REJECTED 0 = 1#64 ∧
      s.holdsWrite 0 = false ∧ aligned48 2 4 = false ∧ (after (.dbCons 0 0 (.read 4)) s).out = [.storeData 0 (bytesLE 4 0)] ∧
      (after (.dbCons 0 8 (.read 4)) s).out = [.storeData 0 (bytesLE 4 3)] ∧
      ((after (.dbCons 0 (0x400000 + 16 * 2047 + 8) (.write (bytesLE 4 9))) s).vec 0 2047).data = 9#32) ∧
    (portS.vec 0 2047).pending = false ∧
    (let s := (portS.setFunc 0 { bme := true, msixEnable := true }).setVec 0 2047 { pending := true, masked := false, sentAt := some 7 };
      (s.vec 0 2047).pending = true ∧ (s.vec 0 2047).masked = false ∧ (s.func 0).msixEnable = true ∧ (s.func 0).msixMask = false ∧
      (s.func 0).bme = true ∧ (s.func 0).d3hot = false ∧ (after (.msixMessage 0 2047) s).out = [.msix 0 2047 0#64 0#32]) ∧
    (let s := portS.setVec 0 0 { pending := true };
      (s.vec 0 0).pending = true ∧ (s.vec 0 0).masked = true) := by
  unfold Passes; decide +kernel

/-- One packet of a cell's bytes in queue 0, bound to a ring of 16 slots. -/
def drainS : State :=
  ((((portS.put O.Q_HOST 0 (qh 0 4 true false)).put O.RING_BASE 0 0x10000#64).put O.RING_WB_ADDR 0 0x800#64).setQueue 0 { pkts := [1] }).setPacket 1
    { kind := .staging, bench := some 5, cells := [0], bytes := [1#8, 2#8] }

theorem drainS_packets (p : Nat) : ∀ b, (drainS.packet p).bench = some b → b < 1024 := by
  have h : ∀ q ∈ drainS.packets, q.2.bench = some 5 := by decide +kernel
  refine tab_all (fun (x : Packet) => ∀ b, x.bench = some b → b < 1024) _ _ ?_ ?_ p
  · intro k b hb; simp [noPacket] at hb
  · intro q hq b hb; rw [h q hq] at hb; cases hb; decide

/-- DrainsAndReadoutsMoveCellsToTheHost. -/
theorem wit_Drains :
    (drainPick 0 portS = none ∧ drainPick 0 drainS = some 0 ∧ (drainS.queue 0).pkts = 1 :: [] ∧ (drainS.queue 0).sent = 0 ∧
      0 < (drainS.packet 1).bytes.length ∧ (drainS.packet 1).bytes.length ≤ (drainS.func (drainS.qFunc 0)).payload ∧
      drainS.elN O.RING_WB_ADDR 0 ≠ 0 ∧ ((after (.drainTransfer 0) drainS).queue 0).pkts = [] ∧
      (after (.drainTransfer 0) drainS).elN O.RING_PROD 0 = 1) ∧
    (let s := ((portS.put O.Q_HOST 0 (qh 0 4 true false)).put O.Q_CONFIG 0 (cutS.el O.Q_CONFIG 0)).setStream 80 (cutS.stream 80);
      drainPick 0 s = some 0 ∧ (s.queue 0).pkts = [] ∧ ((after (.drainTransfer 0) s).queue 0).sent = 65) ∧
    (let s := portS.put O.READOUT_RANGE 0 (put 0 0 ||| put 2 19);
      Passes host0 O.READOUT_CMD 0 1#64 s ∧ s.qKind 0 = 1 ∧ (s.stream (qSource (s.el O.Q_CONFIG 0))).open_ = false ∧
      s.readoutState 0 ≠ readoutRunning ∧ rangeCount (s.el O.READOUT_RANGE 0) = 2 ∧ (s.dir (s.elN O.Q_OWNER 0)).length = 2 ∧
      (let t := after (.readoutStart host0 0) s;
        t.readoutState 0 = readoutRunning ∧ Passes host0 O.READOUT_CMD 0 1#64 t ∧ Passes host0 O.READOUT_CMD 0 2#64 t ∧
        (after (.readoutStop host0 0) t).readoutState 0 = readoutStopped ∧
        (t.queue 0).readAt = some (0, 0, 2) ∧ t.elN O.Q_OWNER 0 = 5 ∧ nextCell 5 t (2 + 1 - 0) 0 0 2 = none ∧
        (after (.readoutCell { q := 0 }) t).readoutState 0 = readoutDone ∧
        (let u := State.setDir { t with calibrated := true } 5 [{ ingot := 0 }, { ingot := 1, state := 1, cells := 1 }];
          nextCell 5 u (2 + 1 - 0) 0 0 2 = some (1, 0) ∧ u.readoutWaits 0 = false ∧ u.frozenAt (u.readRank 1 0) = false ∧
          ({ u with calibrated := false } : State).readoutWaits 0 = true ∧ u.grantOf .hostStaging (some 5) 0 4 = none ∧
          mayGrant .hostStaging (some 5) 0 4 u = true ∧ u.storeReqs = [] ∧ u.staging = [] ∧ u.poisoned 1 0 = false))) ∧
    (let s := portS.put O.READOUT_RANGE 0 (put 1 0 ||| put 2 19);
      Passes host0 O.READOUT_CMD 0 1#64 s ∧ s.readoutState 0 ≠ readoutRunning ∧
      (s.dir (s.elN O.Q_OWNER 0)).length < rangeFirst (s.el O.READOUT_RANGE 0) + rangeCount (s.el O.READOUT_RANGE 0) ∧
      wst (after (.readoutStart host0 0) s) = Status.invalid.code ∧ Passes host0 O.READOUT_CMD 0 2#64 s) ∧
    (Passes host0 O.READOUT_CMD 1 1#64 (portS.put O.Q_OWNER 1 5#64) ∧ (portS.put O.Q_OWNER 1 5#64).qKind 1 ≠ 1) := by
  unfold Passes; decide +kernel

/-- ConfigurationSpaceGovernsAFunction: a physical function, virtual function 255 of port 0, and one that is not present. -/
theorem wit_ConfigurationSpace :
    (let s := portS.setPort 0 { up := true, numVfs := 255, vfEnable := true };
      (s.port ((255 : Fin 1024).val / 256)).up = true ∧ s.present 255 = true ∧ s.present 0 = true ∧ s.present 512 = true ∧
      (s.port ((512 : Fin 1024).val / 256)).up = false ∧ s.present 257 = false ∧
      ((after (.configurationRequest 255 4 (some 0x406#32)) s).func 255).bme = true ∧
      ((after (.configurationRequest 255 4 (some 0x406#32)) s).func 255).mse = false ∧
      ((after (.configurationRequest 0 4 (some 0x402#32)) s).func 0).bme = false) ∧
    ((portS.port 0).up = true ∧ portS.present 1 = false ∧ (after (.configurationRequest 1 0 none) portS).out = [.unsupported 1]) ∧
    portS.mode.base ≠ .cold ∧ trains 6 16 = true ∧ trains 1 1 = true ∧ trains 7 16 = false ∧ trains 6 17 = false ∧ trains 0 1 = false ∧
    State.reset.mode.base = .cold ∧ (after (.hostLinkUp { h := 3 } true 6 16) portS).el O.HP_LINK 3 ≠ portS.el O.HP_LINK 3 ∧
    (portS.present 0 = true ∧ portS.mayMaster 0 = true ∧ (after (.busMasterEnableClear 0 true) portS).mayMaster 0 = false) ∧
    (let s := portS.setFunc 0 {};
      s.present 0 = true ∧ s.mayMaster 0 = false ∧ (s.func 0).d3hot = false ∧ (after (.busMasterEnableSet 0) s).mayMaster 0 = true) := by
  decide +kernel

/-- LostFunctionsLeaveNothingRunning: virtual function 255 with a lock, a queue and an element of its copy. -/
theorem wit_LostFunctions :
    (let s := ((((drainS.setPort 0 { up := true, numVfs := 255, vfEnable := true }).put O.Q_HOST 0 (qh 255 4 true false)).put O.LOCK_STATE 9
        (put 1 0 ||| put 255 16)).put O.STORE_WIN_BASE (copyEl 255 0) 0x40000000#64);
      s.present 255 = true ∧ s.lockHeld 9 = true ∧ s.lockOwner 9 = (0, 255) ∧ s.queuesOfFunc 255 = [0] ∧ 255 ∈ s.presentVfs 0 ∧
      s.present 0 = true ∧ s.present 256 = true ∧ s.present 257 = false ∧ 0 ∈ portFuncs 0 ∧ 255 ∈ portFuncs 0) := by
  decide +kernel

/-- HostWritesAreStaged: within the golden ingot, at its end, to an armed bench, and outside it. -/
theorem wit_HostWrites :
    (portS.memOn 0 = true ∧ portS.binding 0 = some 5 ∧ min (portS.elN O.GOLD_INGOTS 5) (portS.dir 5).length * 2 ^ 20 = 2 ^ 20 ∧
      (after (.wStoreWrite 0 (2 ^ 20 - 1) [1#8, 2#8]) portS).el O.STORE_WRITE_DROPPED 5 = 1#64 ∧
      (after (.wStoreWrite 0 (2 ^ 20 - 2) [1#8, 2#8]) (portS.put O.BENCH_STATE 5 2#64)).el O.GOLD_WRITE_DROPPED 5 = 1#64) ∧
    (portS.storeAddr 0 5 = 5 ∧ portS.isArmed 5 = false ∧ portS.held = [] ∧ portS.spaceCell 5 0 = some (0, 0) ∧ portS.stage 0 = none ∧
      portS.grantOf .hostStaging (some 5) 0 4 = none ∧ mayGrant .hostStaging (some 5) 0 4 portS = true) ∧
    (let s := portS.setStage 0 (some { ingot := 0, cell := 0, bench := 5, pkt := 1, bytes := [(5, 9#8)], since := 3 });
      s.stage 0 = some { ingot := 0, cell := 0, bench := 5, pkt := 1, bytes := [(5, 9#8)], since := 3 } ∧
      (packBytes [(5, 1#8), (6, 2#8)] [(5, 9#8)]).length < 1024 ∧
      ((after (.wStoreWrite 0 5 [1#8, 2#8]) s).stage 0).map Staging.bytes = some [(5, 1#8), (6, 2#8)] ∧
      (after (.stagingCellTimeout 0) s).stage 0 = none ∧ (after (.stagingCellTimeout 0) s).clock = 3 + us) ∧
    (let s := portS.writeBytes 1030 [7#8];
      s.holdsFor 0 = false ∧ s.calibrated = false ∧ (after (.wStoreRead 0 { off := 1030 } 1) s).out = [.unsupported 0] ∧
      (let t : State := { s with calibrated := true };
        t.frozen = [] ∧ t.speedChange = false ∧ t.elB O.RAW_COMPAT 0 = false ∧ t.storeReqs = [] ∧ t.staging = [] ∧
        t.spaceCell 5 (t.storeAddr 0 1030 / 1024 * 1024) = some (0, 1) ∧ t.poisoned 0 1 = false ∧
        (after (.wStoreRead 0 { off := 2 * 2 ^ 20 } 1) t).out = [.unsupported 0] ∧
        (after (.wStoreRead 0 { off := 1030 } 1) { t with speedChange := true }).out = [])) := by
  decide +kernel

/-- FillsRunCellByCell: a fill of the golden ingot's last cell. -/
theorem wit_Fills :
    (let s := (portS.put O.FILL_CELLS (copyEl 0 0) 1#64).put O.FILL_TARGET (copyEl 0 0) 1023#64;
      s.binding 0 = some 5 ∧ Passes host0 O.FILL_CMD (copyEl 0 0) 1#64 s ∧ s.isArmed 5 = false ∧ (s.func 0).fill = none ∧
      s.elN O.FILL_HOST_ADDR (copyEl 0 0) % 64 = 0 ∧ s.elN O.FILL_TARGET (copyEl 0 0) + s.elN O.FILL_CELLS (copyEl 0 0)
        ≤ 1024 * min (s.elN O.GOLD_INGOTS 5) (s.dir 5).length ∧ s.mayMaster 0 = true ∧ Passes host0 O.FILL_CMD (copyEl 0 0) 2#64 s ∧
      (let t := after (.fillStart 0) s;
        fld (t.el O.FILL_STATUS (copyEl 0 0)) 2 0 = fillRunning ∧ Passes host0 O.FILL_CMD (copyEl 0 0) 1#64 t ∧ (t.func 0).fill.isSome = true ∧
        Passes host0 O.FILL_CMD (copyEl 0 0) 2#64 t ∧ ((t.func 0).fill.map Fill.masterOff) = some false ∧
        ((after (.fillAbort 0) t).func 0).fill.map Fill.aborting = some true) ∧
      (∀ p ∈ [(1, 1023, 1), (64, 1023, 0), (64, 1023, 2)],
        let t := ((s.put O.FILL_HOST_ADDR (copyEl 0 0) (BitVec.ofNat 64 p.1)).put O.FILL_TARGET (copyEl 0 0) (BitVec.ofNat 64 p.2.1)).put
          O.FILL_CELLS (copyEl 0 0) (BitVec.ofNat 64 p.2.2);
        Passes host0 O.FILL_CMD (copyEl 0 0) 1#64 t ∧ t.isArmed 5 = false ∧ wst (after (.fillStart 0) t) = Status.invalid.code) ∧
      (let t := s.put O.BENCH_STATE 5 2#64;
        Passes host0 O.FILL_CMD (copyEl 0 0) 1#64 t ∧ t.isArmed 5 = true ∧ wst (after (.fillStart 0) t) = Status.busy.code)) ∧
    (let x : Fill := { addr := 0, target := 0, total := 2, done := 1, masterOff := true, aborting := false, buf := [], asked := false };
      let s := portS.setFunc 0 { mse := true, stale := 1, fill := some x };
      Passes host0 O.FILL_CMD (copyEl 0 0) 2#64 s ∧ s.fillHeld 0 = false ∧ ((after (.fillAbort 0) s).func 0).fill = none ∧
      0 < (s.func 0).stale ∧ ((after (.fillReadCompletion 0 true [1#8]) s).func 0).fill = some x ∧
      ((after (.fillReadCompletion 0 true [1#8]) s).func 0).stale = 0) ∧
    (∀ m ∈ [0, 1],
      let x : Fill := { addr := 0, target := 1023, total := 1, done := 0, masterOff := decide (m = 1), aborting := false, buf := List.replicate 1023 1#8, asked := true };
      let s := portS.setFunc 0 { bme := true, fill := some x };
      (s.func 0).fill = some x ∧ (s.func 0).stale = 0 ∧ x.asked = true ∧ (m = 1 → x.masterOff = true) ∧ (m = 0 → x.masterOff = false) ∧
      x.buf.length + ([] : List Byte).length < 1024 ∧ x.buf.length + [2#8].length = 1024 ∧ s.binding 0 = some 5 ∧ s.held = [] ∧ s.stage 0 = none ∧
      s.spaceCell 5 ((x.target + x.done) * 1024) = some (0, 1023) ∧ s.grantOf .hostStaging (some 5) 0 4 = none ∧
      mayGrant .hostStaging (some 5) 0 4 s = true ∧ x.total ≤ x.done + 1) := by
  unfold Passes; decide +kernel

/-! ## The capture store -/

/-- The store with one waiting request, and a packet of 1,024 bytes. -/
def storeS (op : StoreOp) : State :=
  ({ ready 5 with calibrated := true, storeReqs := [{ cls := 1, bench := 5, func := none, ingot := 1, cell := 1023, op := op }] }).setPacket 1
    { kind := .storeCell, bench := some 5, cells := [0], bytes := List.replicate 1024 5#8 }

theorem home_rank (s : State) (h : s.homes = []) (i c : Nat) : s.rankOf i c < 32 := by
  have hp : placeStack i c < 8 := Nat.mod_lt _ (by decide)
  have hk : Config.cellRank i c % 4 < 4 := Nat.mod_lt _ (by decide)
  simp only [State.rankOf, State.homeRanks, h, Tab.get, List.length_map, List.length_range]
  generalize Config.cellRank i c % 4 = k at hk ⊢
  generalize placeStack i c = p at hp ⊢
  rw [List.getD_eq_getElem?_getD, List.getElem?_map, List.getElem?_range hk]
  simp; omega

/-- Where one request waits and no channel is busy, the channel in which its cell lies picks it. -/
theorem pick_one (s : State) (r : StoreReq) (hx : r.scrubs = false) (hr : s.storeReqs = [r]) (hc : s.chans = []) (hz : s.frozen = []) :
    pickReq (chanOf (s.pickRank r) r.ingot r.cell) s = some 0 := by
  have hb : bankOf (s.pickRank r) r.ingot r.cell < 128 := by
    unfold bankOf
    have := Nat.mod_lt (Config.cellBank r.ingot r.cell) (show 0 < 32 by decide)
    have := Nat.mod_lt (s.pickRank r) (show 0 < 4 by decide)
    omega
  have hl : pickable (chanOf (s.pickRank r) r.ingot r.cell) s [] 0 [r] = [(0, r)] := by
    simp [pickable, State.chan, hc, Tab.get, State.canServe, State.frozenAt, hz, hx]
  unfold pickReq
  simp only [hr, hl]
  split
  · rename_i h
    rw [List.find?_eq_none] at h
    refine absurd (h (bankOf (s.pickRank r) r.ingot r.cell) ?_) ?_
    · simp only [State.chan, hc, Tab.get, List.mem_map, List.mem_range]
      exact ⟨_, hb, by omega⟩
    · simp
  · rename_i bk h
    have := List.find?_some h
    simp only [List.filter_cons, List.filter_nil] at this ⊢
    split at this
    · rename_i h2
      simp [h2, bestReq]
    · simp at this

/-- StoreRequestsMoveWholeCells: whichever channel the free placement gives the cell, it picks the request. -/
theorem wit_StoreRequests :
    (∀ op ∈ [StoreOp.write 1 80, .hostWrite 1 [(0, 1#8)] true, .goldRead 0 1],
      ∃ c : Fin 256, ∃ r, (storeS op).storeTakes = true ∧ (storeS op).frozen.contains (c.val / 32) = false ∧
        (storeS op).storeReqs[0]? = some r ∧ r.op = op ∧ (storeS op).canServe r = true ∧
        pickReq c (advanceTo ((storeS op).chan c).slotAt (storeS op)) = some 0) ∧
    ((storeS (.write 1 80)).packet 1).bytes.length = 1024 ∧ (storeS (.goldRead 0 1)).poisoned 1 1023 = false ∧
    (storeS (.goldRead 0 1)).freezes = false ∧ idle0.storeTakes = false ∧
    (∀ c, c < 256 → ({ idle0 with calibrated := true } : State).storeTakes = true) ∧
    pickReq 255 { idle0 with calibrated := true } = none ∧ idle0.rankState (4 * (255 / 32) + 2) < rankRetired ∧
    ({ idle0 with calibrated := true, frozen := [7] } : State).frozen.contains (255 / 32) = true := by
  refine ⟨?_, by decide +kernel, by decide +kernel, by decide +kernel, by decide +kernel, by intro c _; decide +kernel, by decide +kernel,
    by decide +kernel, by decide +kernel⟩
  intro op hop
  have key : ∀ op : StoreOp, (storeS op).chans = [] ∧ (advanceTo 0 (storeS op)).chans = [] ∧ (advanceTo 0 (storeS op)).homes = [] ∧
      (advanceTo 0 (storeS op)).mig = none ∧
      (advanceTo 0 (storeS op)).storeReqs = [{ cls := 1, bench := 5, func := none, ingot := 1, cell := 1023, op := op }] ∧
      (storeS op).storeTakes = true ∧ (storeS op).frozen = [] ∧ (advanceTo 0 (storeS op)).frozen = [] :=
    fun op => ⟨rfl, rfl, rfl, rfl, rfl, rfl, rfl, rfl⟩
  obtain ⟨h1, h2, h3, h4, h5, h6, h7, h8⟩ := key op
  have hp : (advanceTo 0 (storeS op)).pickRank { cls := 1, bench := 5, func := none, ingot := 1, cell := 1023, op := op } < 32 := by
    unfold State.pickRank State.readRank
    rw [h4]
    have := home_rank _ h3 1 1023
    split <;> exact this
  have hs : ({ cls := 1, bench := 5, func := none, ingot := 1, cell := 1023, op := op } : StoreReq).scrubs = false := by
    simp only [List.mem_cons, List.not_mem_nil, or_false] at hop
    rcases hop with rfl | rfl | rfl <;> rfl
  refine ⟨⟨chanOf ((advanceTo 0 (storeS op)).pickRank { cls := 1, bench := 5, func := none, ingot := 1, cell := 1023, op := op }) 1 1023, ?_⟩,
    { cls := 1, bench := 5, func := none, ingot := 1, cell := 1023, op := op }, h6, by simp [h7], rfl, rfl,
    by simp [State.canServe, State.frozenAt, h7, hs], ?_⟩
  · unfold chanOf
    have := Nat.mod_lt (Config.cellChannel 1 1023) (show 0 < 32 by decide)
    omega
  · have h0 : ∀ c, ((storeS op).chan c).slotAt = 0 := by intro c; simp [State.chan, h1, Tab.get]
    rw [h0]
    exact pick_one _ _ hs h5 h2 h8

/-- StoreUpkeepFollowsItsRules. -/
theorem wit_StoreUpkeep :
    (let k := bankNo 255 (32 * 3 + 31);
      let s : State := { idle0 with rowWindow := [(k, 0)], rowTabs := [(k, [(7, 5)])], chans := [(255, { bandDue := some 4 })] };
      let t : State := { s with clock := 33 * ms };
      Tab.get (fun _ => 0) s.rowWindow k = s.window ∧ (after (.refresh 255 3 31) s).rowTab k = [(7, 5)] ∧
      ((after (.refresh 255 3 31) s).chan 255).band = 4 ∧
      Tab.get (fun _ => 0) t.rowWindow k ≠ t.window ∧ (after (.refresh 255 3 31) t).rowTab k = []) ∧
    ((idle0.rank 31).selfRef = false ∧ idle0.rankState 31 < rankRetired ∧ idle0.storeReqs = [] ∧ idle0.jobOn 31 = false ∧
      ((after (.selfRefreshEntry 31) idle0).rank 31).selfRef = true) ∧
    (Passes host0 O.STORE_SPEED 0 1#64 idle0 ∧ idle0.armedBenches = [] ∧ idle0.migrates = false ∧ idle0.poweredRanks ≠ [] ∧
      (after (.storeSpeed host0 1#64) { idle0 with calibrated := true }).elN O.STORE_STATE 0 = 3 ∧
      ({ idle0 with calibrated := true } : State).frozen = [] ∧
      (let s := after (.storeSpeed host0 1#64) idle0;
        s.speedChange = true ∧ s.held = [] ∧ s.mode.base = .idle ∧ (after .speedChangeDone s).speedChange = false ∧
        ((after .speedChangeDone { s with mode := { base := .service } }).rank 0).selfRef = false)) ∧
    (let s := idle0.put O.BENCH_STATE 5 2#64;
      Passes host0 O.STORE_SPEED 0 1#64 s ∧ s.armedBenches ≠ [] ∧ wst (after (.storeSpeed host0 1#64) s) = Status.busy.code) ∧
    (let s := idle0.setEl O.TEMP_MC 8 95000#64;
      Passes (.service 0) O.DELAY_LOAD 0 1#64 s ∧ bandOf (w64Int (s.el O.TEMP_MC (1 + 255 / 32))) = 19) ∧
    (let s := { idle0 with poisonUsed := 2, poison := [(5, true)] }.put O.POISON_LIST 1 5#64;
      Passes host0 O.POISON_LIST_CLEAR 0 1#64 s ∧ s.poisonUsed ≤ 4096 ∧
      (after (.poisonListClear host0 1#64) s).el O.POISON_LIST 1 = 0#64 ∧ (after (.poisonListClear host0 1#64) s).poison = [(5, true)]) ∧
    (∀ p ∈ [((-1 : Int), 0), (4999, 0), (5000, 1), (94999, 18), (95000, 19), (100000, 19)],
      ((after (.tempBandChange 7 p.1) { idle0 with calibrated := true }).chan 255).bandDue = some p.2) := by
  unfold Passes; decide +kernel

theorem no_retire (r : Nat) : (idle0.rank r).retireDue = false :=
  tab_all (fun (x : Rank) => x.retireDue = false) _ _ (fun _ => rfl) (by decide +kernel) r

/-- RanksRetireByMigration: started, refused, carried on, completed, and begun again onto the next spare. -/
theorem wit_RanksRetire :
    (Passes host0 O.RANK_RETIRE 0 32#64 idle0 ∧ wst (after (.rankRetire host0 32#64) idle0) = Status.invalid.code ∧
      Passes host0 O.RANK_RETIRE 0 0#64 idle0 ∧ idle0.rankState 0 = rankInService ∧ idle0.migrates = false ∧ idle0.firstSpare ≠ none ∧
      idle0.mode.safe = false ∧ idle0.mig = none ∧ (after (.rankRetire host0 0#64) idle0).rankState 0 = rankRetiring) ∧
    (let s := after (.rankRetire host0 0#64) idle0;
      Passes host0 O.RANK_RETIRE 0 4#64 s ∧ s.rankState 4 = rankInService ∧ s.migrates = true ∧
      wst (after (.rankRetire host0 4#64) s) = Status.busy.code ∧ s.mode.migrating = true ∧ s.mode.base ≠ .boot ∧
      s.mig = some { src := 0, tgt := 31, chunks := 0, sealedChunks := 0, held := false, done := false, resumed := false } ∧
      s.rankState 31 = rankFilling ∧ s.firstSpare ≠ none ∧ s.firstSpare ≠ some 0 ∧ s.freezes = false ∧
      (∀ m, s.mig = some m → s.copyWaits m = true ∧ ({ s with calibrated := true } : State).copyWaits m = false ∧
        ({ s with calibrated := true, frozen := [7] } : State).copyWaits m = true)) ∧
    (let s := (idle0.setN O.RANK_STATE 3 rankRetired).setN O.RANK_STATE 7 rankRetired;
      Passes host0 O.RANK_RETIRE 0 0#64 s ∧ s.rankState 0 = rankInService ∧ s.migrates = false) := by
  unfold Passes; decide +kernel

/-- RanksRetireByMigration: a cell of the source in the chunk in hand, and the last chunk. -/
def copyS (m : Mig) : State :=
  let s := after (.rankRetire host0 0#64) idle0
  { s with calibrated := true, homes := homes0, mig := some m }
theorem wit_RanksRetire_copy :
    let m (n : Nat) : Mig := { src := 0, tgt := 31, chunks := n, sealedChunks := 0, held := false, done := false, resumed := false };
    (copyS (m (chunkOf 0 0))).mig = some (m (chunkOf 0 0)) ∧ (copyS (m (chunkOf 0 0))).copyWaits (m (chunkOf 0 0)) = false ∧
    0 < (copyS (m (chunkOf 0 0))).elN O.TRACE_INGOTS 0 ∧ (copyS (m (chunkOf 0 0))).rankOf 0 0 = (m (chunkOf 0 0)).src ∧
    chunkOf 0 0 = (m (chunkOf 0 0)).chunks ∧ (copyS (m (chunkOf 0 0))).freezes = false ∧
    (copyS (m 191)).copyWaits (m 191) = false ∧ 191 ≤ (m 191).chunks := by
  refine ⟨rfl, by decide +kernel, by decide +kernel, home_zero_of _ rfl 0 0, rfl, by decide +kernel, by decide +kernel, by decide +kernel⟩

/-! ## The dictionary by place, requests and sessions -/

/-- AccessesReachTheElementNamed: by a window, a latched half, an armed expectation, the relay and a service core. -/
theorem wit_Accesses :
    (let v : W64 := 5#64;
      (bytesLE 8 5).length = 8 ∧ (bytesLE 4 5).length ≠ 8 ∧ v = BitVec.ofNat 64 (natLE (bytesLE 8 5)) ∧ (0x8005 * 2048) % 8 = 0 ∧
      resolveFor host0 (0x8005 * 2048 / 2048) (0x8005 * 2048 / 8 % 256) idle0 = some (O.CE_RETIRE_LIMIT, 0) ∧
      Passes host0 O.CE_RETIRE_LIMIT 0 v idle0 ∧
      (after (.wCtlWrite 0 (0x8005 * 2048) (bytesLE 8 5)) idle0).el O.CE_RETIRE_LIMIT 0 = 5#64 ∧
      (after (.wCtlWrite 0 (0x4301 * 2048 + 8 * 255) (bytesLE 8 5)) idle0).lockHeld 255 = true ∧
      wst (after (.wCtlWrite 0 (0x8005 * 2048) (bytesLE 4 5)) idle0) = Status.invalid.code ∧
      writeRight host0 O.CE_RETIRE_LIMIT 0 idle0 = .ok ∧
      (∀ p ∈ [(0, 3), (2, 4), (0, 12)], (after (.time96Read host0 0x8005 ⟨0, p.1, p.2⟩) idle0).out = [.unsupported 0])) ∧
    (let s : State := { idle0 with mtime := 7 * sec + 3 };
      Serves host0 O.MODULE_TIME 0 s ∧
      (let t := after (.time96Read host0 O.MODULE_TIME.base { elem := 0 }) s;
        Serves host0 O.MODULE_TIME 1 t ∧ halfOf (viaCaller host0) (O.MODULE_TIME.key 1) t.latched = some (time96Hi s.mtime) ∧
        (after (.time96Read host0 O.MODULE_TIME.base { elem := 1 }) t).latched = [])) ∧
    (Passes host0 O.CAS_EXPECT (copyEl 0 0) 0x8000000000000005#64 idle0 ∧ fld 0x8000000000000005#64 62 32 = 0 ∧
      Passes host0 O.CAS_EXPECT (copyEl 0 0) 0x4000000000000000#64 idle0 ∧ fld 0x4000000000000000#64 62 32 ≠ 0 ∧
      (after (.casExpect 0 0x8000000000000005#64) idle0).el O.CAS_EXPECT (copyEl 0 0) = 0x8000000000000005#64) ∧
    (let r : W64 := put 0x8005 48;
      let s := (idle0.put O.RELAY_REF (copyEl 0 0) r).put O.RELAY_STEP (copyEl 0 0) 1#64;
      r = s.el O.RELAY_REF (copyEl 0 0) ∧ Passes host0 O.RELAY_DATA (copyEl 0 0) 9#64 s ∧ relayable r = true ∧
      resolveRef (fld r 63 48) (fld r 27 0) = some (O.CE_RETIRE_LIMIT, 0) ∧ Passes (.relay 0) O.CE_RETIRE_LIMIT 0 9#64 s ∧
      (after (.relayData 0 (.write 9#64)) s).el O.CE_RETIRE_LIMIT 0 = 9#64 ∧
      fld ((after (.relayData 0 (.write 9#64)) s).el O.RELAY_REF (copyEl 0 0)) 27 0 = 1 ∧
      Serves host0 O.RELAY_DATA (copyEl 0 0) s ∧ Serves (.relay 0) O.CE_RETIRE_LIMIT 0 s ∧
      readAct (.relay 0) O.CE_RETIRE_LIMIT 0 s = (s, .ok, 1000#64)) ∧
    (relayable (idle0.el O.RELAY_REF (copyEl 0 0)) = false ∧ Passes host0 O.RELAY_DATA (copyEl 0 0) 9#64 idle0) ∧
    (bit (idle0.el O.ERR_FIRST 40) 63 = false ∧ resolveFor (.service 3) 0x8005 0 idle0 = some (O.CE_RETIRE_LIMIT, 0)) := by
  unfold Passes Serves; decide +kernel

/-- AccessesReachTheElementNamed: a virtual function without the right, a function that takes no memory request, and one that holds a
write. -/
theorem wit_Windows :
    (let s := (idle0.setPort 0 { up := true, perst := true, numVfs := 1, vfEnable := true }).setFunc 1 { mse := true };
      viaOpen (.wctl 1) s = true ∧ writeRight (.wctl 1) O.CE_RETIRE_LIMIT 0 s = .denied ∧
      fld ((after (.wCtlWrite 1 (0x8005 * 2048) (bytesLE 4 5)) s).el O.WIN_STATUS (copyEl 1 0)) 7 0 = Status.denied.code) ∧
    (let s := idle0.setFunc 0 {};
      s.memOn 0 = false ∧ (s.port 0).up = true ∧ (after (.wCtlWrite 0 (0x8005 * 2048) (bytesLE 8 5)) s).el O.CE_RETIRE_LIMIT 0 = 1000#64) ∧
    (let s : State := { idle0 with held := [{ func := 0, bench := 5, op := .write 0 0 0 [(0, 1#8)] false }] };
      s.memOn 0 = true ∧ s.holdsWrite 0 = true ∧
      (after (.wCtlWrite 0 (0x8005 * 2048) (bytesLE 8 5)) s).el O.CE_RETIRE_LIMIT 0 = 1000#64 ∧
      (after (.wCtlWrite 0 (0x8005 * 2048) (bytesLE 8 5)) s).held.length = 2) := by
  decide +kernel

/-- The written object of wit_Accesses has no rule of its own; a service core may write one of area 2. -/
theorem wit_plain :
    writePlace host0 O.CE_RETIRE_LIMIT 0 5#64 = setAct O.CE_RETIRE_LIMIT 0 5#64 ∧
    ruleOf (.relay 0) O.CE_RETIRE_LIMIT 0 9#64 = setAct O.CE_RETIRE_LIMIT 0 9#64 ∧
    writeElem (.vdp 63) O.CE_RETIRE_LIMIT 0 9#64 = setAct O.CE_RETIRE_LIMIT 0 9#64 := ⟨rfl, rfl, rfl⟩

/-- Slot 63 holds session 65,535 of principal 5, an Admin. -/
def sess : Session :=
  { id := 65535, princ := 5, port := 1, addr := 77, keys := [], high := 5, seen := [], sendNum := 0, lastAt := 0, replay := [], subs := [],
    notice := 0, inbox := [] }
def sessS (x : Session) : State :=
  (((idle0.put O.PRINC_IDENT 5 2#64).put O.PRINC_RIGHTS 5 1#64).put O.PRINC_KEY 40 3#64).setSession 63 (some x)
def ceRef : W64 := put 0x8005 48

/-- The message of a request (Table 10.10). -/
def askMsg (id : Nat) (q : Asked) : List Byte :=
  bytesBE 4 id ++ bytesBE 1 q.op ++ bytesBE 1 q.flags ++ bytesBE 2 0 ++ bytesBE 8 q.ref.toNat ++ bytesBE 4 (q.expect.getD 0)
    ++ bytesBE 2 (q.count.getD 0) ++ bytesBE 2 0 ++ q.vals.flatMap (fun v => bytesBE 8 v.toNat)

/-- The write of 9 to CE_RETIRE_LIMIT, as a request. -/
def askWrite : Asked := { op := opWrite, ref := ceRef, count := some 1, vals := [9#64] }

/-- RequestsAreExecutedOnce. -/
theorem wit_Requests :
    (let s := sessS sess;
      let t := s.setSession 63 (some { sess with inbox := [] });
      addrLayout ceRef = true ∧ resolveFor (.vdp 63) (fld ceRef 63 48) (fld ceRef 27 0) t = some (O.CE_RETIRE_LIMIT, 0) ∧
      newRequest 63 9#32 sess s ∧ Serves (.vdp 63) O.CE_RETIRE_LIMIT 0 t ∧ readElem (.vdp 63) O.CE_RETIRE_LIMIT 0 t = (t, .ok, 1000#64) ∧
      Passes (.vdp 63) O.CE_RETIRE_LIMIT 0 9#64 t ∧ s.counter O.CE_RETIRE_LIMIT 0 = 0#32 ∧
      writeCheck (.vdp 63) (some 0#32) O.CE_RETIRE_LIMIT 0 9#64 (asked (.vdp 63) O.CE_RETIRE_LIMIT t) = .ok ∧
      (after (.write 63 9#32 ceRef [9#64]) s).el O.CE_RETIRE_LIMIT 0 = 9#64 ∧
      (writeElem (.vdp 63) O.CE_RETIRE_LIMIT 0 9#64 (asked (.vdp 63) O.CE_RETIRE_LIMIT t)).2 = .ok ∧
      (after (.casWrite 63 9#32 ceRef 1#32 [9#64]) s).el O.CE_RETIRE_LIMIT 0 = 1000#64 ∧
      (after (.close 63 9#32) s).session 63 = none) ∧
    (let x : Session := { sess with inbox := [askMsg 9 askWrite, [1#8]] };
      let s := sessS x;
      let t := s.setSession 63 (some { x with inbox := [[1#8]] });
      newRequest 63 9#32 x s ∧ x.hands 9#32 askWrite = true ∧ x.hands 9#32 { op := opRead, ref := ceRef, count := some 1 } = false ∧
      x.hands 9#32 { op := opClose } = false ∧ x.hands 8#32 askWrite = false ∧ Passes (.vdp 63) O.CE_RETIRE_LIMIT 0 9#64 t ∧
      (after (.write 63 9#32 ceRef [9#64]) s).el O.CE_RETIRE_LIMIT 0 = 9#64 ∧
      ((after (.write 63 9#32 ceRef [9#64]) s).session 63).map (fun y => y.inbox) = some [[1#8]] ∧
      (after (.write 63 8#32 ceRef [9#64]) s).el O.CE_RETIRE_LIMIT 0 = 1000#64) ∧
    (let s := sessS { sess with princ := 6 };
      let t := s.setSession 63 (some { sess with princ := 6, inbox := [] });
      newRequest 63 9#32 { sess with princ := 6 } s ∧ readCheck (.vdp 63) O.CE_RETIRE_LIMIT 0 t ≠ .ok) ∧
    (let h : Replay := { reqId := 9#32, ref := ceRef, at_ := 0, orig := .ok, counter := 4#32, sub := 0, vals := [8#64] };
      let s := sessS { sess with replay := [h] };
      s.session 63 = some { sess with replay := [h] } ∧ heldReply 9#32 [h] s.clock = some h ∧
      (after (.write 63 9#32 ceRef [9#64]) s).el O.CE_RETIRE_LIMIT 0 = 1000#64 ∧
      ((after (.close 63 9#32) s).session 63).isSome = true) ∧
    (let s := (((idle0.put O.MBX_REQ (copyEl 0 0) (put 6 0 ||| put opWrite 32)).put O.MBX_REQ (copyEl 0 1) ceRef).put
        O.MBX_REQ (copyEl 0 4) 9#64);
      Passes host0 O.MBX_SUBMIT (copyEl 0 0) 6#64 s ∧ 6#64 = (mbxSeq s 0).setWidth 64 ∧ mbxOp s 0 = opWrite ∧ mbxCount s 0 ≤ 128 ∧
      relayable (mbxRef s 0) = true ∧ heldReply (mbxSeq s 0) (s.func 0).replay s.clock = none ∧
      (after (.mbxSubmit 0 6#64) s).el O.CE_RETIRE_LIMIT 0 = 9#64 ∧ Passes host0 O.MBX_SUBMIT (copyEl 0 0) 7#64 s ∧
      (let t := after (.mbxSubmit 0 6#64) s;
        Passes host0 O.MBX_SUBMIT (copyEl 0 0) 6#64 t ∧ heldReply (mbxSeq t 0) (t.func 0).replay t.clock ≠ none)) := by
  unfold Passes Serves newRequest; decide +kernel

/-- A periodic subscription of CE_RETIRE_LIMIT. -/
def sub3 (periodic : Bool) : Sub := { id := 3, ref := (0x8005, 0), count := 1, interval := 10, periodic := periodic, dueAt := 0, counter := 0#32 }

/-- SubscriptionsNotify; of an object that the manual does not state, whether it is `SAMPLED` is open. -/
theorem wit_Subscriptions :
    (let s := sessS sess;
      let t := s.setSession 63 (some { sess with inbox := [] });
      newRequest 63 9#32 sess s ∧ Serves (.vdp 63) O.CE_RETIRE_LIMIT 0 t ∧ sess.subs.length < 256 ∧ s.subCount < 4096 ∧
      isSampled O.MODULE_TIME 0 = true ∧ sess.hands 9#32 { op := opUnsubscribe, ref := 3#64 } = true ∧ Serves (.vdp 63) O.MODULE_TIME 0 t) ∧
    (∀ p ∈ [(true, 0), (false, 0)],
      let x : Session := { sess with subs := [sub3 p.1] };
      let s := sessS x;
      newRequest 63 9#32 x s ∧ sub3 p.1 ∈ x.subs ∧ s.session 63 = some x ∧ x.subs.find? (fun z => decide (z.id = (sub3 p.1).id)) = some (sub3 p.1) ∧
      requestEls (.vdp 63) (refWord (sub3 p.1).ref.1 (sub3 p.1).ref.2) 1 (advanceTo 0 s) = some (O.CE_RETIRE_LIMIT, [0]) ∧
      Serves (.vdp 63) O.CE_RETIRE_LIMIT 0 (advanceTo 0 s) ∧ s.counter O.CE_RETIRE_LIMIT 0 = (sub3 p.1).counter ∧
      readElem (.vdp 63) O.CE_RETIRE_LIMIT 0 (advanceTo 0 s) = (advanceTo 0 s, .ok, 1000#64)) ∧
    (let x : Session := { sess with princ := 6, subs := [sub3 true] };
      let s := (sessS x);
      s.session 63 = some x ∧ readCheck (.vdp 63) O.CE_RETIRE_LIMIT 0 (advanceTo 0 s) = .denied) := by
  unfold Serves newRequest; decide +kernel

/-- A `HELLO` of principal 5, and a `DATA` packet of session 65,535. -/
def helloP : List Byte := vdpHeader pktHello 0 0 ++ bytesBE 2 5 ++ List.replicate 145 7#8
def dataP (n : Nat) : List Byte := vdpHeader pktData 65535 n

/-- SessionsOpenAndClose; what the signature and the tag yield is open. -/
theorem wit_Sessions :
    (let s := (sessS sess).setN O.NET_LINK_STATE 1 netUp;
      s.vdpOn 1 = true ∧ headerOk helloP = true ∧ fieldBE 3 1 helloP = pktHello ∧ s.freeSlot = some 0 ∧ s.openIds.length ≤ 64 ∧
      163 ≤ helloP.length ∧ s.princKind (helloPrinc helloP) = 2 ∧ s.hasKeyOf (helloPrinc helloP) = true ∧ helloOk (helloP.take 100) s = false ∧
      headerOk (dataP 6) = true ∧ fieldBE 3 1 (dataP 6) = pktData ∧ s.sessionSlot (fieldBE 4 2 (dataP 6)) = some 63 ∧ s.session 63 = some sess ∧
      numOk sess (fieldBE 8 8 (dataP 6)) = true ∧ numOk sess (fieldBE 8 8 (dataP 5)) = false ∧
      (after (.data 1 (dataP 5)) s).el O.VDP_PKT_DROPPED 0 = 1#64 ∧
      s.netOn = true ∧ s.elN O.NET_LINK_STATE 1 = netUp ∧ (after (.ethernetFrame 1 1519 .arp) s).el O.NET_DROPPED 1 = 1#64 ∧
      (after (.sessionIdleTimeout 63) s).session 63 = none ∧
      Passes host0 O.SESSION_CLOSE 0 65535#64 s ∧ s.sessionSlot 65535 = some 63 ∧ (after (.sessionClose host0 65535#64) s).session 63 = none ∧
      Passes host0 O.SESSION_CLOSE 0 1#64 s ∧ s.sessionSlot 1 = none ∧
      (let t := s.put O.LOCK_STATE 9 (put 1 0 ||| put 2 2 ||| put 65535 16);
        t.lockHeld 9 = true ∧ t.lockOwner 9 = (2, 65535) ∧ (after (.sessionClose host0 65535#64) t).lockHeld 9 = false)) ∧
    (Passes host0 O.NET_APPLY 1 1#64 (sessS sess) ∧ Passes host0 O.NET_APPLY 1 2#64 (sessS sess)) ∧
    (let s := (sessS sess).setNetCfg 1 { ipv4 := 0x800000000000004D#64 };
      ((s.netCfg 1).addrs 1).contains 77 = true) ∧
    (idle0.elN O.NET_LINK_MODE 1 ≠ 0 ∧ idle0.mode.base ≠ .cold ∧ (after (.netLinkUp 1) idle0).elN O.NET_LINK_STATE 1 = netUp) := by
  unfold Passes; decide +kernel

theorem wit_hello (h : ∀ k d g, Config.ecdsaVerify k d g = true) : helloOk helloP (sessS sess) = true := by
  simp only [helloOk, h, Bool.and_true]; decide +kernel

theorem wit_data (msg : List Byte) (h : ∀ k n a c, Config.aesOpen k n a c = some msg) : openPacket sess (dataP 6) = some msg := h _ _ _ _

/-! ## Timing -/

/-- The timing subsystem in a state of the selector, with a target reference, both references in a state. -/
def timeS (sel target refState : Nat) : State :=
  let s := ((idle0.setN O.SEL_STATE 0 sel).setN O.REF_STATE 0 refState).setN O.REF_STATE 1 refState;
  { s with timing := { s.timing with target := target } }

/-- No arm, disarm or plan change is pending: no bench's `SCHED_STATUS` is off its default. -/
def quiet (s : State) : Prop :=
  (∀ p ∈ s.elems, p.1 < O.SCHED_STATUS.key 0 ∨ O.SCHED_STATUS.key 1024 ≤ p.1) ∧ s.planSched ≠ schPending

theorem sched_default : ∀ b, b < 1024 → elemDefault (O.SCHED_STATUS.key b) = 0#64 := by decide +kernel

theorem quiet_sched (s : State) (h : quiet s) : ∀ b, b < 1024 → s.armSched b ≠ schPending ∧ s.disarmSched b ≠ schPending := by
  intro b hb
  have hk : O.SCHED_STATUS.key b = O.SCHED_STATUS.key 0 + b := by simp [ObjInfo.key]
  have hk2 : O.SCHED_STATUS.key 1024 = O.SCHED_STATUS.key 0 + 1024 := by simp [ObjInfo.key]
  have g : s.el O.SCHED_STATUS b = 0#64 := by
    rw [← sched_default b hb]
    have h1 := h.1
    unfold State.el
    generalize s.elems = l at h1 ⊢
    induction l with
    | nil => rfl
    | cons p t ih =>
      have hp := h1 p (List.mem_cons_self ..)
      unfold Tab.get
      rw [if_neg (by omega)]
      exact ih (fun q hq => h1 q (List.mem_cons_of_mem _ hq))
  simp only [State.armSched, State.disarmSched, g]
  decide

/-- TimeIsSteppedByItsWrites: the two halves of 100 s, with an edge pending; a leap second. -/
theorem wit_TimeIsStepped :
    (let s := after (.timeSet host0 0 100#64) ((idle0.put O.EDGE_AT 3 1000000#64).put O.EDGE_SCHED_STATUS 3 1#64);
      Passes host0 O.TIME_SET 0 100#64 idle0 ∧ idle0.timeBusy = false ∧
      Passes host0 O.TIME_SET 1 5#64 s ∧ halfOf (viaCaller host0) (O.TIME_SET.key 0) s.heldHalf = some 100#64 ∧ fld 5#64 31 0 < 1000000000 ∧
      s.timeBusy = false ∧ quiet s ∧ s.edgeSched 3 = schPending ∧ (after (.timeSet host0 1 5#64) s).mtime = 100 * sec + 5 * ns ∧
      (after (.timeSet host0 1 5#64) s).madePass s.mtime (s.elN O.EDGE_AT 3) = true ∧
      (after (.timeSet host0 1 5#64) s).madePass s.mtime 200000000000 = false ∧ (after (.timeSet host0 1 5#64) s).edgeSched 3 = schRejected ∧
      Passes host0 O.TIME_SET 1 5#64 idle0 ∧ halfOf (viaCaller host0) (O.TIME_SET.key 0) idle0.heldHalf = none ∧
      wst (after (.timeSet host0 1 5#64) idle0) = Status.invalid.code) ∧
    (let s := (after (.timeSet host0 0 100#64) idle0).put O.BENCH_STATE 5 2#64;
      s.timeBusy = true ∧ Passes host0 O.TIME_SET 0 1#64 s ∧ Passes host0 O.TIME_SET 1 1#64 s ∧
      Passes host0 O.CAL_UTC 0 (put 1 22 ||| put 1 17) s ∧ wst (after (.timeSet host0 1 1#64) s) = Status.busy.code) ∧
    (quiet idle0 ∧ idle0.timeBusy = false ∧ idle0.elN O.LEAP_PENDING 0 = 0 ∧ 0 ≤ w64Int (idle0.el O.UTC_OFFSET 0)) ∧
    (∀ k ∈ [1, 2],
      (after .leapSecond (idle0.setN O.LEAP_PENDING 0 k)).el O.UTC_OFFSET 0 = intW64 (if k = 1 then 38 else 36) ∧ idle0.tmbOn = true ∧ idle0.slew = 0) := by
  unfold Passes quiet; decide +kernel

/-- CAL_UTC: the calendar's first and last second, and two values that name no date. -/
theorem wit_Calendar :
    (∀ p ∈ [(put 1 22 ||| put 1 17, true, 0), (put 199 26 ||| put 12 22 ||| put 31 17 ||| put 23 12 ||| put 59 6 ||| put 59 0, true, 0),
        (put 23 26 ||| put 2 22 ||| put 29 17, false, 0), (put 200 26 ||| put 1 22 ||| put 1 17, false, 0)],
      Passes host0 O.CAL_UTC 0 p.1 idle0 ∧
      (p.2.1 = true ↔ fld p.1 33 26 ≤ 199 ∧ 1 ≤ fld p.1 25 22 ∧ fld p.1 25 22 ≤ 12 ∧ 1 ≤ fld p.1 21 17 ∧
        fld p.1 21 17 ≤ monthDays (2000 + fld p.1 33 26) (fld p.1 25 22) ∧ fld p.1 16 12 ≤ 23 ∧ fld p.1 11 6 ≤ 59 ∧ fld p.1 5 0 ≤ 59 ∧
        fld p.1 63 35 = 0) ∧
      (p.2.1 = false → wst (after (.calUtc host0 p.1) idle0) = Status.invalid.code) ∧
      (p.2.1 = true → (after (.calUtc host0 p.1) idle0).calNow = setFld p.1 34 34 1)) := by
  unfold Passes; decide +kernel

/-- ReferencesQualifyAndFail: the last good measurement of a qualification, a failed one, and the 1 PPS at and beyond 100 ns. -/
theorem wit_References :
    (let s := (timeS 0 255 refQualifying).put O.QUAL_TIME_MS 0 100#64;
      s.tmbOn = true ∧ s.elN O.REF_STATE 0 = refQualifying ∧ s.elN O.QUAL_TIME_MS 0 ≤ 100 * ((s.ref 0).good + 1) ∧
      (after (.refMeasurement 0 2000) s).elN O.REF_STATE 0 = refQualified ∧ (after (.refMeasurement 0 2000) s).selState = selAcquiring ∧
      (after (.refMeasurement 0 2001) s).elN O.REF_STATE 0 = refQualifying ∧ ((after (.refMeasurement 0 2001) s).ref 0).good = 0) ∧
    (let s := timeS 0 255 refQualifying;
      100 * ((s.ref 0).good + 1) < s.elN O.QUAL_TIME_MS 0 ∧ ((after (.refMeasurement 0 (-2000)) s).ref 0).good = 1 ∧
      (after .ref10InLoss s).elN O.REF_STATE 0 = refAbsent ∧ (after .announceReceiptTimeout s).elN O.REF_STATE 1 = refAbsent) ∧
    (idle0.elN O.REF_STATE 0 = refAbsent ∧ idle0.tmbOn = true ∧ (after .ref10InReturn idle0).elN O.REF_STATE 0 = refQualifying) ∧
    (let s := (after (.ppsInEdge 0 0) (timeS 0 255 refQualified)).setRef 0 { good := 3, ppsAt := some 0 };
      s.elN O.REF_STATE 0 ≠ refAbsent ∧ (s.ref 0).ppsAt = some 0 ∧ ((after (.ppsInEdge 10000001 0) s).ref 0).good = 3 ∧
      ((after (.ppsInEdge 10000001 1) s).ref 0).good = 0 ∧ (after .ppsInTimeout s).elN O.REF_STATE 0 = refQualifying) := by
  decide +kernel

/-- SelectorFollowsItsTable. -/
theorem wit_Selector :
    (∀ st ∈ [selAcquiring, selLocked, selSwitching], ∀ other ∈ [refAbsent, refQualified],
      let s := (timeS st 0 refAbsent).setN O.REF_STATE 1 other;
      s.selState = st ∧ s.timing.target ≠ 255 ∧ s.elN O.REF_STATE s.timing.target ≠ refQualified ∧
      s.preferred = (if other = refQualified ∧ s.elN O.REF_PRIORITY 1 ≠ 255 then some 1 else none)) ∧
    ((idle0.put O.REF_PRIORITY 1 1#64).setN O.REF_STATE 1 refQualified).preferred = some 1 ∧
    (let s := timeS selAcquiring 0 refQualified;
      s.selState = selAcquiring ∧ quiet s ∧ (s.preferred = none ∨ s.preferred = some s.timing.target) ∧ s.armedBenches = [] ∧ us < (70000 * 1000 : Int).natAbs ∧
      (after (.lockDelayExpiry 0) s).selState = selLocked) ∧
    (let s := timeS selSwitching 0 refQualified;
      s.selState = selSwitching ∧ (after (.switchComplete 5) s).slew = -5 ∧ (after (.switchComplete 5) s).selState = selLocked) ∧
    (let s := (((timeS selSwitching 0 refQualified).put O.REF_PRIORITY 0 5#64).put O.REF_PRIORITY 1 1#64).put O.REVERTIVE 0 1#64;
      s.preferred = some 1 ∧ s.elB O.REVERTIVE 0 = true ∧ s.elN O.REF_STATE s.timing.target = refQualified ∧
      (after (.switchComplete 0) s).timing.target = 1) ∧
    (let s := timeS selHoldover 255 refAbsent;
      s.selState = selHoldover ∧ s.timing.holdLate = false ∧ (after .holdoverClassChange s).clock = 14400 * sec ∧
      (after .holdoverClassChange s).elN O.PTP_CLOCK_CLASS 0 = 52) ∧
    (timeS selLocked 0 refQualified).selState = selLocked ∧
    (let s := (timeS selHoldover 255 refQualifying).put O.QUAL_TIME_MS 0 100#64;
      (after (.refMeasurement 0 0) s).elN O.REF_STATE 0 = refQualified ∧ (after (.refMeasurement 0 0) s).preferred = some 0 ∧
      (after (.refMeasurement 0 0) s).selState = selSwitching) := by
  unfold quiet; decide +kernel

/-- A PTP port with link in a port state, REFB ranked or not. -/
def ptpS (m st : Nat) (ranked : Bool) : State :=
  (((idle0.put O.PTP_PORT_CFG m 1#64).setN O.NET_LINK_STATE m 1).setN O.PTP_PORT_STATE m st).put O.REF_PRIORITY 1 (if ranked then 1#64 else 255#64)

/-- An Announce of a grandmaster one step away. -/
def ann1 : Announce :=
  { source := (9#64, 1), gm := 9#64, prio1 := 128, clockClass := 6, accuracy := 0x20, variance := 0, prio2 := 128, steps := 1
    timeSource := 0x20, utcOffset := 37, leap := 0, ptpTimescale := true }

/-- PtpFollowsAndAnnounces: a slave's Announce and Sync, and what a master announces in each state of the selector. -/
theorem wit_Ptp :
    (let s := ptpS 1 portListening true;
      s.tmbOn = true ∧ s.ptpUp 1 = true ∧ s.elN O.REF_PRIORITY 1 ≠ 255 ∧ s.elN O.PTP_PORT_STATE 1 = portListening ∧
      (let t := after (.ptpMessageReceived 1 (.announce ann1)) s;
        t.timing.ptp.haveAnnounce = true ∧ t.timing.ptp.up = ann1 ∧
        betterMaster { ann1 with source := (8#64, 1), gm := 8#64, prio1 := 127 } ann1 = true ∧
        betterMaster { ann1 with source := (8#64, 1), gm := 8#64, prio1 := 129 } ann1 = false ∧
        (after (.ptpMessageReceived 1 (.announce { ann1 with source := (8#64, 1), gm := 8#64, prio1 := 127 })) t).timing.ptp.up.gm = 8#64 ∧
        (after (.ptpMessageReceived 1 (.announce { ann1 with source := (8#64, 1), gm := 8#64, prio1 := 129 })) t).timing.ptp.up.gm = 9#64 ∧
        t.masterDue = t.timing.ptp.announceAt + 3 * t.announceInterval 1 ∧ t.elN O.PTP_PORT_STATE 1 = portUncalibrated ∧ t.tmbOn = true ∧ t.ptpUp 1 = true ∧
        (after (.ptpMessageReceived 1 (.sync 1001)) t).elN O.REF_STATE 1 = refQualifying ∧
        (after (.ptpMessageReceived 1 (.sync 1000)) t).elN O.PTP_PORT_STATE 1 = portSlave)) := by
  decide +kernel

/-- Class, accuracy, time source and steps of what a state has announced. -/
def announced (s : State) : List Nat :=
  s.out.flatMap (fun x => match x with
    | .announce _ _ _ d => [d.clockClass, d.accuracy, d.timeSource, d.steps]
    | _ => [])

theorem wit_Ptp_master :
    (let s := ptpS 0 portMaster false;
      s.ptpUp 0 = true ∧ s.elN O.PTP_PORT_STATE 0 = portMaster ∧ (s.selState = selFreerun ∨ s.selState = selAcquiring) ∧
      announced (after (.ptpMessageSent 0 .announce) s) = [248, 0xFE, 0xA0, 0] ∧
      (let t := after (.ptpMessageSent 0 .announce) s;
        (t.timing.ptp.sentAt.find? (fun p => decide (p.1 = 3 * 0))).map Prod.snd = some 0 ∧
        (after (.ptpMessageSent 0 .announce) t).clock = s.announceInterval 0) ∧
      (let t := s.setN O.SEL_STATE 0 selHoldover; t.ptpUp 0 = true ∧ t.elN O.PTP_PORT_STATE 0 = portMaster ∧ t.selState = selHoldover) ∧
      (let t : State := { s.setN O.SEL_STATE 0 selLocked with timing := { target := 1 } };
        t.ptpUp 0 = true ∧ t.elN O.PTP_PORT_STATE 0 = portMaster ∧ t.timing.target = 1 ∧ t.selState = selLocked) ∧
      (let t : State := { s.setN O.SEL_STATE 0 selLocked with timing := { target := 0 } };
        t.timing.target ≠ 1 ∧ t.selState = selLocked)) ∧
    (bit (idle0.el O.PTP_PORT_CFG 0) 0 = false ∨ idle0.elN O.NET_LINK_STATE 0 ≠ 1) ∧ (ptpS 1 portSlave true).elN O.PTP_PORT_STATE 1 ≠ portMaster := by
  decide +kernel

/-- A state with a plan hop in progress. -/
def hopS (due : Option Nat) (apply sync : Bool) : State :=
  { idle0 with timing := { idle0.timing with hop := some 7, hopDue := due, heldApply := apply, heldSync := sync } }

/-- PlansHopAndOutputsRestart. -/
theorem wit_Plans :
    (Passes host0 O.PLAN_SELECT 0 7#64 idle0 ∧ Passes host0 O.PLAN_SELECT 0 8#64 idle0 ∧ idle0.timing.hop = none ∧
      (after (.planSelect host0 7#64) idle0).timing.hop = some 7 ∧ wst (after (.planSelect host0 8#64) idle0) = Status.invalid.code ∧
      Passes host0 O.PLAN_SELECT 0 7#64 (hopS none false false) ∧ wst (after (.planSelect host0 7#64) (hopS none false false)) = Status.busy.code) ∧
    (∀ p ∈ [(none, true, false), (some 3, false, true), (none, false, false)],
      let s := (hopS p.1 p.2.1 p.2.2).put O.OUT_CFG 7 9#64;
      s.timing.hop = some 7 ∧ s.timing.hopDue = p.1 ∧ (after (.planHopDone 5) s).timing.hop = p.1 ∧
      (after (.planHopDone 5) s).out.length = 1 ∧ (after (.planHopDone 5) s).timing.restartAt = s.clock ∧
      (after (.planHopDone 5) s).el O.OUT_ACTIVE 7 = (if p.2.1 then 9#64 else s.el O.OUT_ACTIVE 7)) ∧
    (Passes host0 O.PLAN_AT 0 0#64 idle0 ∧ Passes host0 O.PLAN_AT 0 100000#64 idle0 ∧ idle0.timePassed 100000 = false ∧
      Passes host0 O.PLAN_AT 0 99999#64 idle0 ∧ idle0.timePassed 99999 = true ∧
      (after (.planAt host0 99999#64) idle0).planSched = schRejected ∧
      (after (.planAt host0 99999#64) (idle0.put O.PLAN_LATE_POLICY 0 1#64)).planSched = schLate ∧
      (let s := after (.planAt host0 100000#64) idle0;
        s.planSched = schPending ∧ s.timing.hopDue = none ∧ (after .scheduledPlanHop s).planSched = schDone ∧
        (after .scheduledPlanHop s).mtime = 100000 * ns)) ∧
    (Passes host0 O.OUT_APPLY 0 1#64 idle0 ∧ idle0.elN O.APPLY_SOURCE 0 ≠ 1 ∧ idle0.restarted .sync = false ∧ Passes host0 O.OUT_APPLY 0 2#64 idle0 ∧
      (after (.outApply host0 1#64) idle0).restarted .apply = true ∧
      (after .syncInEdge (after (.outApply host0 1#64) idle0)).out = [.outputsRestart 0 []] ∧
      ((after (.outApply host0 1#64) (idle0.put O.OUT_CFG 7 (setBit (idle0.el O.OUT_CFG 7) 30 true))).out.map (fun x => match x with
        | .outputsRestart _ l => l | _ => [])) = [[(7, 40 * ns)]] ∧
      (after (.outApply host0 1#64) (hopS none false false)).timing.heldApply = true ∧
      (after .syncInEdge (hopS none false false)).timing.heldSync = true) := by
  unfold Passes; decide +kernel

/-- PinsPulsesAndSamples. -/
theorem wit_Pins :
    (let s := { (idle0.put O.PPS_OUT_ENABLE 0 1#64).put O.TRIG_IO_CFG 3 (put 3 0 ||| put 1 6) with mtime := 5 };
      s.tmbOn = true ∧ s.timing.ppsHigh = false ∧ s.slew = 0 ∧ s.elB O.PPS_OUT_ENABLE 0 = true ∧ s.pinFunction 3 = 3 ∧
      (after .ppsOut s).mtime = sec ∧ ((after .ppsOut s).pin 3).level = false ∧ (after .ppsOut s).timing.ppsHigh = true ∧
      ((after .ppsOutWidthEnd (after .ppsOut s)).pin 3).level = true) ∧
    (Passes host0 O.TRIG_IO_CFG 3 (put 4 0 ||| put 1 6) idle0 ∧ Passes host0 O.TRIG_IO_CFG 3 5#64 idle0 ∧ Passes host0 O.TRIG_IO_CFG 3 128#64 idle0 ∧
      ownerOf (idle0.elN O.TRIG_PIN_OWNER 3) = none ∧ ((after (.trigIoCfg host0 3 (put 4 0 ||| put 1 6)) idle0).pin 3).level = true ∧
      wst (after (.trigIoCfg host0 3 5#64) idle0) = Status.invalid.code) ∧
    (let s := (idle0.put O.TRIG_PIN_OWNER 3 5#64).put O.BENCH_STATE 5 2#64;
      Passes host0 O.TRIG_IO_CFG 3 1#64 s ∧ ownerOf (s.elN O.TRIG_PIN_OWNER 3) = some 5 ∧ s.isArmed 5 = true ∧
      wst (after (.trigIoCfg host0 3 1#64) s) = Status.busy.code) ∧
    (let s := idle0.put O.TRIG_IO_CFG 3 0#64;
      s.pinFunction 3 = 0 ∧ 7 * sec + 9 * ns + 2 < 2 ^ 48 * sec ∧ (after (.trigIoInputEdge 3 { t := 7 * sec + 9 * ns + 2 }) s).elN O.TRIG_IN_TIME 6 = 7 ∧
      (after (.trigIoInputEdge 3 { t := 7 * sec + 9 * ns + 2 }) s).el O.TRIG_IN_TIME 7 = put 9 0 ||| put 2 32) ∧
    (let s := (idle0.put O.TRIG_IO_CFG 0 1#64).setPin 0 { pulseEnd := some 50 };
      (s.pin 0).pulseEnd = some 50 ∧ s.pinFunction 0 = 1 ∧ (after (.trigIoPulseEnd 0) s).clock = 50 ∧ (idle0.pin 0).pulseEnd = none) ∧
    (let s := (idle0.put O.TRIG_IO_CFG 3 4#64).put O.EDGE_LATE_POLICY 3 1#64;
      Passes host0 O.EDGE_AT 3 0#64 s ∧ Passes host0 O.EDGE_AT 3 100000#64 s ∧ Passes host0 O.EDGE_AT 3 99999#64 s ∧ s.pinFunction 3 = 4 ∧
      s.timePassed 100000 = false ∧ s.timePassed 99999 = true ∧ (after (.edgeAt host0 3 99999#64) s).edgeSched 3 = schLate ∧
      (let t := after (.edgeAt host0 3 100000#64) s;
        t.edgeSched 3 = schPending ∧ (after (.scheduledEdge 3) t).edgeSched 3 = schDone ∧ (after (.scheduledEdge 3) t).mtime = 100000 * ns ∧
        ((after (.scheduledEdge 3) t).pin 3).level = true)) ∧
    (Passes host0 O.EDGE_AT 3 1#64 (idle0.put O.TRIG_IO_CFG 3 1#64) ∧ wst (after (.edgeAt host0 3 1#64) (idle0.put O.TRIG_IO_CFG 3 1#64)) = Status.invalid.code) ∧
    (Passes host0 O.AUX1_PUSH 0 0x0004000300020001#64 idle0 ∧
      (let s := after (.aux1Push host0 0x0004000300020001#64) (idle0.put O.AUX1_SOURCE 0 1#64);
        s.timing.aux1Queue = [1, 2, 3, 4] ∧ Passes host0 O.AUX1_FLUSH 0 1#64 s ∧ (after .aux1Sample s).out = [.aux1 1] ∧
        (after (.aux1Flush host0 1#64) s).timing.aux1Queue = [])) ∧
    (∀ k ∈ [0, 1, 2], (idle0.put O.AUX1_SOURCE 0 (BitVec.ofNat 64 k)).elN O.AUX1_SOURCE 0 = k) := by
  unfold Passes; decide +kernel

/-- AUX1_PUSH to a queue with no room for four codes. -/
theorem wit_full_queue :
    65532 < ({ idle0 with timing := { idle0.timing with aux1Queue := List.replicate 65533 0 } } : State).timing.aux1Queue.length := by
  show 65532 < (List.replicate 65533 0).length
  rw [List.length_replicate]; decide

/-! ## Modes, power, errors and health -/

/-- The module in a base mode. -/
def modeS (b : Base) : State := { idle0 with mode := { base := b } }

theorem no_due (b : Base) (r : Nat) : ((modeS b).rank r).retireDue = false :=
  tab_all (fun (x : Rank) => x.retireDue = false) _ _ (fun _ => rfl) (by cases b <;> decide +kernel) r

/-- PowerAndBootFollowTheirTables: the input at the ends of its range, every outcome of the authentication, and the ways to `IDLE`. -/
theorem wit_Power :
    ((State.reset.mode.base = .cold ∧ State.reset.mode.offReady = false ∧ State.reset.flash.prot = [] ∧ State.reset.flash.subsys.length = 4 ∧
        State.reset.flash.fatal.length ≤ 4) ∧
      after (.inputInRange 39999) State.reset = State.reset ∧ after (.inputInRange 60001) State.reset = State.reset) ∧
    (let s : State := { modeS .service with journal := { pending := [.activeSlot 1], content := true } };
      s.journal.pending = .activeSlot 1 :: [] ∧ s.journal.stopped = false ∧ (modeS .service).journal.pending = []) ∧
    (let s : State := { modeS .service with fw := { page := some (3, [9#64]) } };
      s.fw.page = some (3, [9#64]) ∧ s.flash.active = 0 ∧ (after .powerLoss s).fw.image1 = [(3, [9#64])] ∧ (after .powerLoss s).fw.page = none) ∧
    (let s : State := { modeS .boot with mode := { base := .boot, recovery := some 0xB0 } };
      s.mode.base = .boot ∧ s.mode.recovery = some 0xB0) ∧
    (let s := modeS .boot;
      s.mode.base = .boot ∧ s.mode.recovery = none ∧ s.flash.active < 2 ∧ s.fw.valid0 = true ∧ s.fw.valid1 = true) ∧
    (let s : State := { modeS .bringup with calibrated := true };
      s.mode.base = .bringup ∧ s.calibrated = true ∧ s.mode.safe = false ∧ s.mode.recovery = none ∧ s.ranks = (modeS .bringup).ranks) ∧
    (let s : State := { (modeS .service).setN O.TRACE_INGOTS 0 0 with idleSince := 7 };
      s.mode.base = .service ∧ s.armedBenches = [] ∧ s.storeReqs = [] ∧ s.jobDue = false ∧ (after .idleEntry s).mode.base = .idle ∧
      (after .idleEntry s).clock = 7 + s.elN O.IDLE_ENTRY_MS 0 * ms ∧ (modeS .service).jobDue = true ∧
      (after .idleEntry (modeS .service)).mode.base = .service) := by
  decide +kernel

/-- ModeCommandsFollowTheirRefusals. -/
theorem wit_ModeCommands :
    (let s : State := { modeS .service with mode := { base := .service, exclusive := some 5 } };
      Passes host0 O.MODE_CMD 0 1#64 s ∧ s.mode.exclusive ≠ none ∧ s.modeHeld = false ∧ s.fencedBanks = [] ∧
      (after (.endExclusive host0) s).mode.exclusive = none ∧ Passes host0 O.MODE_CMD 0 (put 2 0 ||| put 5 16) s) ∧
    (let s := (modeS .service).put O.BENCH_RIGHTS 5 2#64;
      Passes host0 O.MODE_CMD 0 1#64 s ∧ s.mode.exclusive = none ∧ Passes host0 O.MODE_CMD 0 (put 2 0 ||| put 5 16) s ∧
      bit (s.el O.BENCH_RIGHTS 5) 1 = true ∧ s.armedBenches = [] ∧ s.modeHeld = false ∧ (after (.exclusive host0 5) s).mode.exclusive = some 5 ∧
      Passes host0 O.MODE_CMD 0 (put 2 0 ||| put 6 16) s ∧ bit (s.el O.BENCH_RIGHTS 6) 1 = false ∧
      wst (after (.exclusive host0 6) s) = Status.invalid.code ∧
      (let t := s.put O.BENCH_STATE 1023 2#64; t.armedBenches = [1023] ∧ wst (after (.exclusive host0 5) t) = Status.busy.code)) ∧
    (Passes host0 O.MODE_CMD 0 3#64 (modeS .service) ∧ Passes host0 O.MODE_CMD 0 4#64 (modeS .idle) ∧
      (after (.quiesceOff host0) (modeS .idle)).mode.quiesceOff = true ∧ Passes host0 O.MODE_CMD 0 3#64 (modeS .quiesce) ∧
      wst (after (.quiesceIdle host0) (modeS .quiesce)) = Status.busy.code ∧
      Passes host0 O.MODE_CMD 0 5#64 (modeS .idle) ∧ (modeS .idle).modeHeld = false ∧ Passes host0 O.MODE_CMD 0 5#64 (modeS .service)) ∧
    (let s := (modeS .quiesce).setN O.TRACE_INGOTS 0 0;
      s.armedBenches = [] ∧ s.drainsDone = true ∧ s.storeReqs = [] ∧ s.mode.quiesceOff = false ∧ s.jobDue = false ∧
      (after .quiesceComplete s).mode.base = .idle ∧
      (let t : State := { s with mode := { base := .quiesce, quiesceOff := true } };
        t.drainsDone = true ∧ t.mig = none ∧ (after .quiesceComplete t).mode.offReady = true)) := by
  unfold Passes; decide +kernel

/-- ModeCommandsFollowTheirRefusals: a warm reset, refused and merged, and the switching off after a `SAFE` trigger. -/
theorem wit_WarmReset :
    (Passes host0 O.WARM_RESET 0 1#64 (modeS .service) ∧ Passes host0 O.WARM_RESET 0 2#64 (modeS .service) ∧ (modeS .service).journal.content = false ∧
      (modeS .service).resetting = false ∧
      (modeS .service).health.safePend = false ∧ (modeS .service).flash.prot = [] ∧ (modeS .service).flash.subsys.length = 4 ∧ (modeS .service).flash.fatal.length ≤ 4 ∧
      (let s : State := { (modeS .service).setEl O.TEMP_MC 0 90000#64 with mode := { base := .service, safe := true } };
        Passes host0 O.WARM_RESET 0 1#64 s ∧ s.mode.safe = true ∧ 90000 ≤ w64Int (s.el O.TEMP_MC 0) ∧
        wst (after (.warmReset host0 1#64) s) = Status.busy.code) ∧
      (let s : State := { modeS .boot with warmPass := true };
        Passes host0 O.WARM_RESET 0 1#64 s ∧ s.resetting = true) ∧
      (let s : State := { modeS .service with health := { safePend := true } };
        Passes host0 O.WARM_RESET 0 1#64 s ∧ s.resetting = false ∧ s.health.safePend = true ∧
        wst (after (.warmReset host0 1#64) s) = Status.busy.code)) ∧
    (let s : State := { modeS .quiesce with mode := { base := .quiesce, quiesceOff := true },
                                            journal := { pending := [.propReserve 64, .activeSlot 1], content := true, blocked := true } };
      s.armedBenches = [] ∧ s.drainsDone = true ∧ s.storeReqs = [] ∧ s.mig = none ∧ s.journal.blocked = true ∧
      (after .quiesceComplete s).flash = sealedFlash (.propReserve 64) s.flash ∧ (after .quiesceComplete s).mode.offReady = true) := by
  unfold Passes; decide +kernel

/-- Readings in order, the logic die at a temperature. -/
def readings (t : Int) : List Int := t :: List.replicate 10 20000

/-- ReadingsThrottleAndTriggerSafe: each limit of Table 13.10 on its two sides. -/
theorem wit_Readings :
    (∀ p ∈ [((89999 : Int), false), (94999, false)],
      let u := after (.sensorRead (readings p.1) 48000 1000) { modeS .service with health := { warned := true } };
      u.health.assayThrottle = p.2 ∧ u.mode.safeTemp = false) ∧
    (let s : State := { modeS .service with health := { assayThrottle := true, drainThrottle := true, coolSince := some 0, warned := true }, clock := sec };
      (after (.sensorRead (readings 91999) 48000 1000) s).health.drainThrottle = false ∧
      (after (.sensorRead (readings 91999) 48000 1000) s).health.assayThrottle = true ∧
      (after (.sensorRead (readings 92000) 48000 1000) s).health.drainThrottle = true) ∧
    ((modeS .service).mode.base ≠ .cold ∧ (modeS .service).mode.safeTemp = false ∧ (modeS .service).fw.page = none ∧
      (105000 : Int) ≤ ([1, 2, 3, 4, 5, 6, 7, 8, 10].map (fun k => (readings 105000).getD k 0)).foldl max ((readings 105000).getD 0 0)) ∧
    (after (.inputRange 38000) (modeS .service) = (modeS .service) ∧ after (.inputRange 62000) (modeS .service) = (modeS .service)) := by
  decide +kernel

/-- ErrorsFenceTestAndRestart. -/
theorem wit_Errors :
    (let s := (modeS .service).setN O.ERR_NOTIFIED 15 3;
      Passes host0 O.ERR_ACK 15 1#64 s ∧ Passes host0 O.ERR_ACK 15 2#64 s ∧ (after (.errAck host0 15 1#64) s).elN O.ERR_NOTIFIED 15 = 0) ∧
    (let s := (modeS .service).setN O.CU_HITS 8191 7;
      Passes host0 O.TILE_RESET 15 1#64 s ∧ Passes host0 O.TILE_RESET 15 0#64 s ∧ s.tileUsed 15 = false) ∧
    (let s := ((modeS .service).put O.BENCH_STATE 5 2#64).setStream (16 * 5 + 15) { open_ := true };
      Passes host0 O.TILE_RESET 15 1#64 s ∧ s.tileUsed 15 = true ∧ wst (after (.tileReset host0 15 1#64) s) = Status.busy.code) ∧
    (let s : State := { (((modeS .service).setN O.TILE_FENCED 15 1).setN O.TILE_STATE 15 tileIsGated) with tileTest := [15] };
      (15 : Fin 16).val ∈ s.tileTest ∧ s.elN O.TILE_POWER 15 = 0 ∧ s.elN O.TILE_STATE 15 = tileIsGated ∧
      (after (.tileTestDone 15 true) s).elN O.TILE_FENCED 15 = 0 ∧ (after (.tileTestDone 15 true) s).elN O.TILE_STATE 15 = tileUngating) ∧
    (let s := (modeS .service).put O.LOCK_STATE 9 (put 1 0 ||| put 1 2 ||| put 3 16);
      s.mode.base ≠ .cold ∧ s.mode.base ≠ .boot ∧ s.svcDown = false ∧ s.lockHeld 9 = true ∧ (s.lockOwner 9).1 = 1 ∧ (s.lockOwner 9).2 < 4) ∧
    bit ((modeS .service).el O.ERR_FIRST 8) 63 = false ∧
    (let s := (modeS .service).put O.TS_ENABLE 0 15#64;
      unitTile 8319 = some 15 ∧ s.tests 0 = true ∧ s.testable 0 8319 = true ∧ s.tests 2 = true ∧ s.tests 3 = true ∧
      s.testable 3 262143 = true ∧ s.mig = none ∧ s.homes = [] ∧
      (let t : State := { (s.setN O.TRACE_INGOTS 0 1).setHolder 0 ownerFree with calibrated := true };
        t.testable 2 0 = true ∧ t.mig = none ∧ t.homes = [])) ∧
    (let s := (modeS .service).put O.TS_ENABLE 0 15#64;
      s.tests 0 = true ∧ s.testable 0 8323 = true ∧ s.testable 0 8324 = false ∧ (after (.testSlot 0 8323 .pass) s).el O.TS_PASSES 0 = 1#64 ∧
      bit ((modeS .service).put O.TS_ENABLE 0 0#64 |>.el O.TS_ENABLE 0) (0 : Fin 4) = false) := by
  unfold Passes; decide +kernel

/-- An update being received into the slot that is not active. -/
def fwS (st len : Nat) (page : Option (Nat × List W64)) : State :=
  { (modeS .service).setN O.FW_STATE 0 st with fw := { len := len, page := page } }

/-- JournalSealsAndFirmwareUpdates. -/
theorem wit_Journal :
    (let s : State := { fwS fwVerifying 1 none with journal := { pending := [.activeSlot 1, .propReserve 64] } };
      s.journal.pending = .activeSlot 1 :: [.propReserve 64] ∧ s.journal.blocked = false ∧ s.mig = none ∧ s.health.safePend = false ∧
      (after .journalEntrySealed s).fwState = fwReady ∧ (after .journalEntrySealed s).flash.active = 1 ∧ s.journal.content = false ∧
      s.journal.stopped = false) ∧
    (let s : State := { modeS .service with journal := { pending := [.propReserve 64], content := true, blocked := true }, health := { safePend := true } };
      s.journal.pending = .propReserve 64 :: [] ∧ s.journal.blocked = true ∧ s.journal.content = true ∧ s.health.safePend = true ∧ s.fw.page = none) ∧
    (Passes host0 O.FW_BEGIN 0 (BitVec.ofNat 64 (2 ^ 26)) (modeS .service) ∧ Passes host0 O.FW_BEGIN 0 (BitVec.ofNat 64 (2 ^ 26 + 1)) (modeS .service) ∧
      (modeS .service).fwState ≠ fwReceiving ∧ (modeS .service).fwState ≠ fwVerifying ∧ (modeS .service).flash.active < 2 ∧
      Passes host0 O.FW_BEGIN 0 0#64 (fwS fwReceiving 1 none) ∧
      (after (.fwBegin host0 0#64) (fwS fwReceiving 1 none)).fwState = fwIdle ∧ Passes host0 O.FW_BEGIN 0 1#64 (fwS fwVerifying 1 none) ∧
      (fwS fwVerifying 1 none).fwState = fwVerifying) ∧
    (Passes host0 O.FW_PAGE 0 0#64 (fwS fwReceiving 1 none) ∧ 0 * 32768 < (fwS fwReceiving 1 none).fw.len ∧
      (fwS fwReceiving 1 none).fw.page = none ∧ (fwS fwReceiving 1 none).journal.blocked = false ∧
      Passes host0 O.FW_PAGE 0 1#64 (fwS fwReceiving 32768 none) ∧ (fwS fwReceiving 32768 none).fw.len ≤ 1 * 32768 ∧
      Passes host0 O.FW_PAGE 0 0#64 (fwS fwReceiving 1 (some (0, []))) ∧ (fwS fwReceiving 1 (some (0, []))).fw.page ≠ none) ∧
    (Passes host0 O.FW_FINISH 0 1#64 (fwS fwReceiving 1 none) ∧ (after (.fwFinish host0 1#64) (fwS fwReceiving 1 none)).fwState = fwVerifying ∧
      Passes host0 O.FW_FINISH 0 2#64 (fwS fwReceiving 1 none) ∧ Passes host0 O.FW_FINISH 0 1#64 (fwS fwReceiving 1 (some (0, []))) ∧
      (fwS fwReceiving 1 (some (0, [9#64]))).fw.page = some (0, [9#64]) ∧ (fwS fwReceiving 1 (some (0, [9#64]))).flash.active = 0 ∧
      (after .fwPageProgrammed (fwS fwReceiving 1 (some (0, [9#64])))).fw.image1 = [(0, [9#64])]) ∧
    (fwS fwVerifying 1 none).flash.active < 2 := by
  unfold Passes; decide +kernel

/-! ## The whole module -/

/-- StepRunsTheFrontCommand: a lock is taken by the first of two waiting commands; an idle step of the running time base. -/
theorem wit_Step :
    (let s : State := { idle0 with pending := [.lockAcquire host0 9 5#64, .lockRelease host0 9 1#64] };
      (match step s with | .next t => t.lockHeld 9 && decide (t.pending = [.lockRelease host0 9 1#64]) | _ => false) = true) ∧
    (idle0.pending = [] ∧ idle0.tmbOn = true ∧ idle0.slew = 0 ∧ (tick idle0).mtime = ns) ∧
    (State.reset.pending = [] ∧ State.reset.tmbOn = false ∧ (tick State.reset).mtime = 0) := by
  decide +kernel

/-- CommandsCompleteAndKeepTheQueue: a command that stores to no ingot, and one that may. -/
theorem wit_Complete : storesToIngots (.lockAcquire host0 9 5#64) = false ∧ storesToIngots (.powerLoss) = true := by decide

/-- RefusedWritesChangeNothing: bench 5's ARM by a virtual function, which has no rights, and a step of a proposal. -/
theorem wit_Refused :
    asWrite (.arm (.wctl 1) 5) = some (.wctl 1, O.BENCH_CMD, 5, 1#64) ∧ proposalStep O.BENCH_CMD 5 = false ∧
    (let s := (idle0.setPort 0 { up := true, perst := true, numVfs := 1, vfEnable := true }).setFunc 1 { mse := true };
      viaOpen (.wctl 1) s = true ∧ writeRight (.wctl 1) O.BENCH_CMD 5 (asked (.wctl 1) O.BENCH_CMD s) = .denied) ∧
    (let s := idle0.put O.PRINC_RIGHTS 1 0#64;
      asWrite (.propSubmit host0 1#64) = some (host0, O.PROP_SUBMIT, 0, 1#64) ∧ viaOpen host0 s = true ∧
      proposalStep O.PROP_SUBMIT 0 = true ∧ writeRight host0 O.PROP_SUBMIT 0 (asked host0 O.PROP_SUBMIT s) = .denied ∧
      served host0 O.PROP_SUBMIT.area s = true ∧ relayBad host0 O.PROP_SUBMIT = false ∧ reaches host0 O.PROP_SUBMIT s = true ∧
      fld ((after (.propSubmit host0 1#64) s).el O.PROP_STATUS 0) 15 8 = Status.denied.code) ∧
    proposalStep O.STORE_SPEED 0 = false := by
  decide +kernel

/-- RefusedWritesChangeNothing: a value beyond its object's range, and one to a bench that is reset, which the owner check refuses before
that. -/
theorem wit_Refused_later :
    viaOpen host0 idle0 = true ∧
    asWrite (.storeSpeed host0 9#64) = some (host0, O.STORE_SPEED, 0, 9#64) ∧
    writeCheck host0 (takeCas host0 O.STORE_SPEED idle0).1 O.STORE_SPEED 0 9#64 (asked host0 O.STORE_SPEED idle0) = .invalid ∧
    ownerChecked.any (fun p => decide (p.base = O.STORE_SPEED.base)) = false ∧ O.STORE_SPEED.ty ≠ .bits ∧
    wst (after (.storeSpeed host0 9#64) idle0) = Status.invalid.code ∧
    (let s := portS.put O.BENCH_STATE 5 4#64;
      viaOpen host0 s = true ∧ proposalStep O.Q_HOST 0 = false ∧ asWrite (.qHost host0 0 (qh 1 4 true false)) = some (host0, O.Q_HOST, 0, qh 1 4 true false) ∧
      writeCheck host0 (takeCas host0 O.Q_HOST s).1 O.Q_HOST 0 (qh 1 4 true false) (asked host0 O.Q_HOST s) = .busy ∧
      wst (after (.qHost host0 0 (qh 1 4 true false)) s) = Status.denied.code) := by
  decide +kernel

/-- StepsKeepTheStoreCanonical: a store with two bytes, one of them under the scrub of its ingot. -/
theorem wit_Canonical :
    let s : State := { (idle0.writeBytes 5 [3#8]).writeBytes (2 ^ 20) [4#8] with calibrated := true, frozen := [7], pending := [.ingotScrub 0 0] };
    memWf s.mem = true ∧ s.mem = [(5, 3#8), (2 ^ 20, 4#8)] ∧
      (match step s with | .next t => decide (t.mem = [(2 ^ 20, 4#8)]) | _ => false) = true := by
  decide +kernel

/-- CommandsCompleteAndKeepTheQueue: two commands that wait. -/
theorem wit_Run :
    let s : State := { idle0 with pending := [.lockAcquire host0 9 5#64, .lockRelease host0 9 1#64] };
    1 ≤ s.pending.length ∧ (match run 2 s with | .next t => decide (t.pending = []) && !t.lockHeld 9 | _ => false) = true := by
  decide +kernel

/-! ## A row of an armed bench -/

/-- Bench 5 armed as `ready` sets it up, lane 0 with one part of clock 3 at time 100 and its watermark far past it, condition unit 0 on
group 10 (`MATCH`, pattern 1), and a table of rule A of level 0 of sequencer 0: the rule goes to level 1, marks in 15, triggers, sets
line 1, clears line 2 and adds 1 to counter 3. -/
def rowBench (table : W64) (words : List W40) : State :=
  let s0 := after (.arm host0 5) ((ready 5).put O.CU_OWNER 0 5#64)
  let s1 := ((((s0.put O.CU_CONFIG 0 0x5001#64).put O.CU_GROUP 0 10#64).put O.CU_PATTERN 0 1#64).put O.SQ_LEVEL_BRANCH 0 table).put
    O.SQ_BRANCH_ACTION 0 (BitVec.ofNat 64 (1 + 2 + 4 * 15 + 2 ^ 16 + 2 ^ 27 + 2 ^ 32))
  (s1.put O.POST_COUNT 5 4#64).setLane 0
    { s1.lane 0 with parts := [{ part7 5#40 100 with words := words, groups := [10, 11] }], joinTime := some 0, lastCw := 100000000000 }

/-- The row, the state in which its bench takes it, and that state after the condition units. -/
def rowOf (s : State) : Row := s.formRow 7#64 3 5#40 100
def rowTaken (s : State) : State :=
  setSlot 7#64 [] (noteRow (rowOf s) (countRow (rowOf s) (freeParts 7#64 3 5#40 (countParts 7#64 3 5#40 100 s))))
def rowSeen (s : State) : State := cuRows (rowOf s) (rowTaken s)

/-- What RowsDriveUnitsAndSequencers asks of every state. -/
abbrev RowTaken (s : State) : Prop :=
  s.rowTime 7#64 3 5#40 = some 100 ∧ s.rowReady 7#64 3 5#40 100 = true ∧ s.slotOf 7#64 = [] ∧
  ((rowTaken s).waitingRows 7#64).any (fun k => decide (k.2.2 = 100)) = false ∧ s.benchesIn 7#64 = [5] ∧ s.running 5 = true ∧
  (s.bench 5).armed = true ∧ (s.bench 5).commit = none ∧ (s.bench 5).startAt = none ∧ (s.bench 5).stopAt = none ∧
  (s.bench 5).undecided = [] ∧ s.enginesOf 5 = [] ∧ s.eventQueue 5 = none ∧ s.mode.base ≠ .quiesce

/-- What its clause of the units asks of unit 0. -/
abbrev UnitSees (s : State) (x : RowWord) : Prop :=
  s.enabledUnits.count 0 = 1 ∧ s.cuBench 0 = some 5 ∧
  (rowOf s).words.find? (fun y => decide (y.group = s.elN O.CU_GROUP 0) && decide (y.lane / 16 = cuTile 0)) = some x ∧
  x.group < 65536 ∧ s.elN O.GROUP_OWNER x.group = 5 ∧ (rowOf s).off.contains (cuTile 0) = false

/-- The winner its clause of the sequencers names for sequencer 0. -/
def rowWinner (s : State) : Option Nat :=
  let cs := countersAfter 0 100 (rowSeen s)
  winner 0 (s.sqLevel 0) 100 (counterBits 0 cs (rowSeen s))
    (decide (s.elN O.SQ_LEVEL_TIMEOUT (16 * 0 + s.sqLevel 0) ≤ levelTimer ((s.seqx 0).entry.getD 100) 100)) (rowSeen s)

/-- RowsDriveUnitsAndSequencers, where rule A is true: the unit's word matches, the sequencer moves and the bench is triggered. -/
theorem wit_RowsDriveUnits :
    let s := rowBench 0x11FFFF#64 [1#40, 2#40]
    let u := after (.rowEmit 7#64 3 5#40) s
    let x : RowWord := { group := 10, lane := 0, word := some 1#40 }
    RowTaken s ∧ UnitSees s x ∧ (rowOf s).wordFor 5 x = some 1#40 ∧ u.el O.CU_STATUS 0 = 0x11#64 ∧ u.el O.CU_HITS 0 = 1#64 ∧
      s.stepping 5 (rowOf s) = [0] ∧ rowWinner s = some 0 ∧ u.sqLevel 0 = 1 ∧ u.elN O.SQ_CNT_VALUE 3 = 1 ∧ u.el O.SQ_STEPS 0 = 1#64 ∧
      u.el O.SQ_TRIGGERS 0 = 1#64 ∧ u.el O.SQ_MARK 15 = 0x8000000000000005#64 ∧ u.line512 1 (100 + 64 * 65536) = true ∧
      s.trigState 5 = .waiting ∧ (s.el O.POST_COUNT 5).setWidth 40 ≠ 0#40 ∧ u.trigState 5 = .triggered := by
  decide +kernel

/-- RowsDriveUnitsAndSequencers, where no rule is true and the word of the unit is missing. -/
theorem wit_RowsDriveUnits_hold :
    let s := rowBench 0#64 []
    let u := after (.rowEmit 7#64 3 5#40) s
    let x : RowWord := { group := 10, lane := 0, word := none }
    RowTaken s ∧ UnitSees s x ∧ (rowOf s).wordFor 5 x = none ∧ u.el O.CU_STATUS 0 = 8#64 ∧ u.el O.CU_HITS 0 = 0#64 ∧
      1 ∉ s.stepping 5 (rowOf s) ∧ s.stepping 5 (rowOf s) = [0] ∧ rowWinner s = none ∧ u.sqLevel 0 = 0 ∧ u.el O.SQ_STEPS 0 = 1#64 := by
  decide +kernel

/-- RowsDriveUnitsAndSequencers: the row `POST_COUNT` cycles after the trigger closes the only segment, or the first of two. -/
theorem wit_RowsDriveUnits_close :
    ∀ p ∈ [(1#64, TrigState.ended, 2), (2#64, TrigState.waiting, 0)],
      let s := ((rowBench 0#64 [1#40, 2#40]).setTrigState 5 .triggered).put O.SEGMENT_LIMIT 5 p.1
      let a : Trig := { dclk := 3, stamp := 1#40, time := 20, sq := 0, engine := false, post := 4#40 }
      let z := s.modSeg 5 (fun g => { g with open_ := true, trig := some a })
      let u := after (.rowEmit 7#64 3 5#40) z
      RowTaken z ∧ z.trigState 5 = .triggered ∧ (z.seg 5).open_ = true ∧ (z.seg 5).trig = some a ∧
        u.elN O.SEG_INDEX 5 = 1 ∧ (u.seg 5).open_ = false ∧ u.trigState 5 = p.2.1 ∧ u.elN O.ACQ_END_CAUSE 5 = p.2.2 := by
  decide +kernel

/-- RowsDriveUnitsAndSequencers: a step of the lead sequencer ends a hold-off, by time and by events, or leaves it. -/
theorem wit_RowsDriveUnits_holdoff :
    ∀ p ∈ [(1#64, 0#64, TrigState.waiting), (1#64, 1#64, TrigState.holdoff), (2#64, 1#64, TrigState.waiting)],
      let s := (((rowBench 0#64 [1#40, 2#40]).setTrigState 5 .holdoff).put O.HOLDOFF_KIND 5 p.1).put O.HOLDOFF_VALUE 5 p.2.1
      let z := (s.put O.HOLDOFF_SEL 5 0#64).modSeg 5 (fun g => { g with open_ := false, closeTime := 50 })
      RowTaken z ∧ z.trigState 5 = .holdoff ∧ (z.seg 5).open_ = false ∧ z.leadSq 5 = some 0 ∧ 0 ∈ z.stepping 5 (rowOf z) ∧
        (after (.rowEmit 7#64 3 5#40) z).trigState 5 = p.2.2 := by
  decide +kernel

/-! ## What is well formed, and what a word spells -/

/-- A payload of 31 words is a frame's; each command that carries one refuses a shorter one. -/
theorem test_payload_refused :
    (∀ c ∈ [Instr.dataFrame 0 0 0#40 [], .markerFrame 0 0 0 0#40 [], .groupMap 0 0#40 [], .descriptor 0 0#40 [], .timeEcho 0 0 0#40 [],
        .quenchReport 0 0#40 [], .ack 0 0#40 [1#40]], c.wf = false) ∧
    (Instr.dataFrame 0 0 0#40 (List.replicate 31 0#40)).wf = true := by decide

/-- Requests of no element and of 129 are refused, one of 128 is not. -/
theorem test_count_refused :
    (∀ c ∈ [Instr.read 0 1#32 0#64 0, .read 0 1#32 0#64 129, .subscribe 0 1#32 0#64 0 1 true, .write 0 1#32 0#64 [], .casWrite 0 1#32 0#64 0#32 []],
        c.wf = false) ∧ (Instr.read 0 1#32 0#64 128).wf = true := by decide

/-- Window writes without a byte, reads of none or too many, and a register beyond the configuration space or not aligned are refused. -/
theorem test_access_refused :
    (∀ c ∈ [Instr.wStoreWrite 0 0 [], .wCtlWrite 0 0 [], .dbCons 0 0 (.write []), .wStoreRead 0 { off := 0 } 0, .wStoreRead 0 { off := 0 } 4097,
        .configurationRequest 0 4096 none, .configurationRequest 0 2 none], c.wf = false) ∧
    (Instr.configurationRequest 0 4092 none).wf = true := by decide

/-- So are a codeword with more symbols in error than it has, a request for more cells than a packet has, readings that are not
eleven, and a cell of more than 16 bursts. -/
theorem test_counts_of_events_refused :
    (∀ c ∈ [Instr.codewordDecode 0 0 545 0#10 0#2 false, .allocRound [⟨.acquisition, none, 0, 17, none⟩], .allocRound [⟨.acquisition, none, 0, 0, none⟩],
        .sensorRead [] 0 0, .storeCellAccess 0 { bursts := List.replicate 17 0 }], c.wf = false) ∧
    (Instr.codewordDecode 0 0 544 0#10 0#2 false).wf = true := by decide

/-- No row of the opcode table gives bits, so no word spells a command, and fetching one leaves the state as it is. -/
theorem test_no_word (nbits w : Nat) (s : State) : decodeTableWord nbits w = none ∧ s.withFetchWord nbits w = s := ⟨rfl, rfl⟩

end Sys2Proof.Tests
end

section
/-! SUPPORT. Bits of a field, of a number placed in a word and of a word with a field replaced, and the reads of fields that follow. -/

namespace Sys2Proof

/-! ## Bit fields -/

/-- The bits of a field are those of the word from `lo` up. -/
theorem testBit_fld {n : Nat} (w : BitVec n) (hi lo i : Nat) :
    (fld w hi lo).testBit i = (decide (i < hi + 1 - lo) && w.getLsbD (lo + i)) := by
  rw [fld, Nat.testBit_mod_two_pow, Nat.testBit_shiftRight, BitVec.testBit_toNat]

/-- The bits of a number placed at bit `lo`. -/
theorem getLsbD_put (v lo j : Nat) : (put v lo).getLsbD j = (decide (j < 64) && (decide (lo ≤ j) && v.testBit (j - lo))) := by
  rw [put, BitVec.getLsbD_ofNat, Nat.testBit_shiftLeft]

/-- The bits of a word with a field replaced: those of the number inside the field, those of the word elsewhere. -/
theorem getLsbD_setFld (w : W64) (hi lo v j : Nat) (hj : j < 64) :
    (setFld w hi lo v).getLsbD j = if lo ≤ j ∧ j ≤ hi then v.testBit (j - lo) else w.getLsbD j := by
  have hmask : (BitVec.ofNat 64 ((2 ^ (hi + 1 - lo) - 1) <<< lo)).getLsbD j = decide (lo ≤ j ∧ j ≤ hi) := by
    rw [BitVec.getLsbD_ofNat, Nat.testBit_shiftLeft, Nat.testBit_two_pow_sub_one]
    by_cases h : lo ≤ j <;> simp [hj, h]
    omega
  simp only [setFld, BitVec.getLsbD_or, BitVec.getLsbD_and, BitVec.getLsbD_not, hmask, getLsbD_put, hj]
  by_cases h : lo ≤ j ∧ j ≤ hi
  · simp [h]
  · simp [h]

/-- A field just replaced reads as the number, where that fits. -/
theorem fld_setFld_self (w : W64) {hi lo v : Nat} (hhi : hi < 64) (hv : v < 2 ^ (hi + 1 - lo)) : fld (setFld w hi lo v) hi lo = v := by
  refine Nat.eq_of_testBit_eq fun i => ?_
  rw [testBit_fld]
  by_cases hi' : i < hi + 1 - lo
  · rw [getLsbD_setFld _ _ _ _ _ (by omega), if_pos (by omega), Nat.add_sub_cancel_left, decide_eq_true hi', Bool.true_and]
  · rw [decide_eq_false hi', Bool.false_and, Nat.testBit_lt_two_pow]
    exact Nat.lt_of_lt_of_le hv (Nat.pow_le_pow_right (by decide) (by omega))

/-- A field keeps its value when another, disjoint one is replaced. -/
theorem fld_setFld_disjoint (w : W64) {hi lo hi' lo' v : Nat} (hhi : hi < 64) (h : hi < lo' ∨ hi' < lo) :
    fld (setFld w hi' lo' v) hi lo = fld w hi lo := by
  refine Nat.eq_of_testBit_eq fun i => ?_
  rw [testBit_fld, testBit_fld]
  by_cases hi' : i < hi + 1 - lo
  · rw [getLsbD_setFld _ _ _ _ _ (by omega), if_neg (by omega)]
  · rw [decide_eq_false hi', Bool.false_and, Bool.false_and]

/-- The low field of a disjunction with a number placed above it. -/
theorem fld_or_put (w : W64) {hi lo k v : Nat} (h : hi < k) : fld (w ||| put v k) hi lo = fld w hi lo := by
  refine Nat.eq_of_testBit_eq fun i => ?_
  rw [testBit_fld, testBit_fld, BitVec.getLsbD_or, getLsbD_put]
  by_cases hi' : i < hi + 1 - lo
  · rw [decide_eq_false (show ¬ k ≤ lo + i by omega), Bool.false_and, Bool.and_false, Bool.or_false]
  · rw [decide_eq_false hi', Bool.false_and, Bool.false_and]

end Sys2Proof
end

section
/-! SUPPORT. Accesses by place, each part of one said once: what a host port lets through, the armed compare-and-set, the status in
`WIN_STATUS`, reads and writes by place, latched reads, the relay, and the first record of an error source. -/

namespace Sys2Proof.Machine

/-! ## What the host ports let through (R399, R401) -/

/-- A posted write of a function that takes no memory request is discarded. -/
theorem postedWrite_off {f : Nat} {a : HostAccess} {now : State → State} {s : State} (h : s.memOn f = false) :
    postedWrite f a now s = s := by
  simp [postedWrite, h]

/-- A posted write waits behind a held write of its function. -/
theorem postedWrite_held {f : Nat} {a : HostAccess} {now : State → State} {s : State} (hm : s.memOn f = true)
    (hw : s.holdsWrite f = true) : postedWrite f a now s = holdOp f (s.elN O.FUNC_BINDING f) (.access a) s := by
  simp [postedWrite, hm, hw]

/-- A function takes memory requests only while its port's link is up. -/
theorem State.up_of_memOn {s : State} {f : Nat} (h : s.memOn f = true) : (s.port (f / 256)).up = true := by
  simp only [State.memOn, Bool.and_eq_true] at h
  exact h.1.1.1

/-- A read request to a function that takes none is an Unsupported Request while the link is up. -/
theorem windowRead_off {f : Nat} {a : HostAccess} {now : State → State} {s : State} (hu : (s.port (f / 256)).up = true)
    (h : s.memOn f = false) : windowRead f a now s = s.send (.unsupported f) := by
  simp [windowRead, hu, h]

/-- A read request waits behind a held write of its function. -/
theorem windowRead_held {f : Nat} {a : HostAccess} {now : State → State} {s : State} (hm : s.memOn f = true)
    (hw : s.holdsWrite f = true) : windowRead f a now s = holdOp f (s.elN O.FUNC_BINDING f) (.access a) s := by
  simp [windowRead, State.up_of_memOn hm, hm, hw]

/-- A window that is open: the function takes memory requests and holds no write. -/
theorem viaOpen_of_func {via : Via} {f : Nat} {s : State} (hv : viaFunc via = some f) (h : viaOpen via s = true) :
    s.memOn f = true ∧ s.holdsWrite f = false := by
  unfold viaOpen at h
  rw [hv] at h
  simpa using h

/-- A posted write that no window holds back is performed. -/
theorem postedWrite_open {via : Via} {f : Nat} {a : HostAccess} {now : State → State} {s : State} (hv : viaFunc via = some f)
    (h : viaOpen via s = true) : postedWrite f a now s = now s := by
  obtain ⟨hm, hw⟩ := viaOpen_of_func hv h
  simp [postedWrite, hm, hw]

/-- A read request that no window holds back is performed. -/
theorem windowRead_open {via : Via} {f : Nat} {a : HostAccess} {now : State → State} {s : State} (hv : viaFunc via = some f)
    (h : viaOpen via s = true) : windowRead f a now s = now s := by
  obtain ⟨hm, hw⟩ := viaOpen_of_func hv h
  simp [windowRead, State.up_of_memOn hm, hm, hw]

/-- A read of an element that no window holds back is performed. -/
theorem elementRead_open {via : Via} {obj : Nat} {p : ElemPart} {s : State} (h : viaOpen via s = true) :
    elementRead via obj p s = elementReadNow via obj p s := by
  rw [elementRead]
  split
  · rfl
  · rename_i f hv
    rw [windowRead_open hv h]

/-! ## Everything but the elements, the counters and what is sent -/

theorem State.inner_with (s : State) (es : Tab W64) (cc : Tab (BitVec 32)) (ms : List Out) :
    { s with elems := es, cc := cc, out := ms }.inner = s.inner := rfl

@[simp] theorem State.setEl_inner (s : State) (o : ObjInfo) (e : Nat) (v : W64) : (s.setEl o e v).inner = s.inner :=
  State.inner_with s _ _ s.out

/-! ## The armed compare-and-set (R367) -/

/-- A caller's write of its own copies of E.000-E.03F takes no armed compare-and-set. -/
theorem takeCas_of_local {via : Via} {o : ObjInfo} {s : State} (h : o.isLocal = true) : takeCas via o s = (none, s) := by
  simp [takeCas, h]

theorem asked_of_local {via : Via} {o : ObjInfo} {s : State} (h : o.isLocal = true) : asked via o s = s := by
  rw [asked, takeCas_of_local h]

/-- Taking the armed compare-and-set changes `CAS_EXPECT` of the caller's copy alone. -/
theorem asked_sameElems {via : Via} {c : Nat} (o : ObjInfo) (s : State) (hc : viaCopy via = some c) :
    sameElems [(O.CAS_EXPECT, copyEl c 0)] s (asked via o s) := by
  unfold asked takeCas
  rw [hc]
  dsimp only
  split
  · exact .refl _ _
  · split
    · exact (sameElems.refl _ _).setEl _ List.mem_cons_self
    · exact .refl _ _

@[simp] theorem asked_out (via : Via) (o : ObjInfo) (s : State) : (asked via o s).out = s.out := by
  unfold asked takeCas
  split
  · rfl
  · split
    · rfl
    · dsimp only
      split <;> simp

/-- Spending it changes `CAS_EXPECT` of the caller's copy alone. -/
theorem spendCas_sameElems {via : Via} {c : Nat} (obj : Nat) (s : State) (hc : viaCopy via = some c) :
    sameElems [(O.CAS_EXPECT, copyEl c 0)] s (spendCas via obj s) := by
  unfold spendCas disarmCas
  rw [hc]
  dsimp only
  split
  · split
    · exact (sameElems.refl _ _).setEl _ List.mem_cons_self
    · exact .refl _ _
  · exact .refl _ _

@[simp] theorem spendCas_inner (via : Via) (obj : Nat) (s : State) : (spendCas via obj s).inner = s.inner := by
  unfold spendCas disarmCas
  split
  · split
    · rfl
    · dsimp only
      split <;> simp
  · rfl

@[simp] theorem spendCas_out (via : Via) (obj : Nat) (s : State) : (spendCas via obj s).out = s.out := by
  unfold spendCas disarmCas
  split
  · split
    · rfl
    · dsimp only
      split <;> simp
  · rfl

/-! ## `WIN_STATUS` (R361) -/

theorem Status.code_lt (st : Status) : st.code < 2 ^ (7 + 1 - 0) := by cases st <;> decide

/-- The outcome of a write in a window stands in `WIN_STATUS` [7:0]. -/
theorem answerWrite_wctl_status (f : Fin 1024) (ref : W64) (c : BitVec 32) (st : Status) (s : State) :
    fld ((answerWrite (.wctl f) ref c st s).el O.WIN_STATUS (copyEl f 0)) 7 0 = st.code := by
  rw [answerWrite, State.setEl_el, fld_setFld_disjoint _ (by decide) (by decide), fld_setFld_self _ (by decide) st.code_lt]

theorem answerWrite_wctl_sameElems (f : Fin 1024) (ref : W64) (c : BitVec 32) (st : Status) (s : State) :
    sameElems [(O.WIN_STATUS, copyEl f 0)] s (answerWrite (.wctl f) ref c st s) :=
  (sameElems.refl _ _).setEl _ List.mem_cons_self

@[simp] theorem answerWrite_wctl_inner (f : Fin 1024) (ref : W64) (c : BitVec 32) (st : Status) (s : State) :
    (answerWrite (.wctl f) ref c st s).inner = s.inner :=
  State.setEl_inner ..

@[simp] theorem answerWrite_wctl_out (f : Fin 1024) (ref : W64) (c : BitVec 32) (st : Status) (s : State) :
    (answerWrite (.wctl f) ref c st s).out = s.out := by
  simp [answerWrite]

/-! ## Writes and reads by place -/

theorem exec_wCtlWrite (f : Fin 1024) (off : Nat) (bytes : List Byte) (s : State) :
    exec (.wCtlWrite f off bytes) s = .next (wCtlWrite f off bytes s) := rfl

theorem exec_time96Read (via : Via) (obj : Nat) (p : ElemPart) (s : State) :
    exec (.time96Read via obj p) s = .next (elementRead via obj p s) := rfl

theorem exec_casExpect (f : Fin 1024) (v : W64) (s : State) : exec (.casExpect f v) s =
    .next (cmdWrite (.wctl f) O.CAS_EXPECT (copyEl f 0) v (casExpectAct (copyEl f 0) v) s) := rfl

theorem exec_relayData (f : Fin 1024) (op : RelayOp) (s : State) : exec (.relayData f op) s = .next (relayAccess f op s) := rfl

theorem exec_lockAcquire (via : Via) (k : Nat) (v : W64) (s : State) :
    exec (.lockAcquire via k v) s = .next (cmdWrite via O.LOCK_ACQUIRE k v (lockAcquireAct via k v) s) := rfl

theorem exec_serviceCoreAccess (core : Fin 4) (inMap : Bool) (obj e : Nat) (wr : Option W64) (s : State) :
    exec (.serviceCoreAccess core inMap obj e wr) s = .next (serviceAccess core inMap obj e wr s) := rfl

/-- A write by place of an element that is there. -/
theorem writeAt_of_resolve {via : Via} {obj e i : Nat} {o : ObjInfo} {v : W64} {s : State} (h : resolveFor via obj e s = some (o, i)) :
    writeAt via obj e v s = cmdWrite via o i v (writePlace via o i v) s := by
  simp [writeAt, h]

/-- A read by place of an element that is there. -/
theorem readAt_of_resolve {via : Via} {obj e i : Nat} {o : ObjInfo} {s : State} (h : resolveFor via obj e s = some (o, i)) :
    readAt via obj e s = cmdRead via o i (readElem via o i) s := by
  simp only [readAt, readPart, h]
  rfl

/-- A write by place, of an object without a rule of its own, that every check lets through (R357). -/
theorem writeAt_accepts {via : Via} {obj e i : Nat} {o : ObjInfo} {v : W64} {s : State} (h : resolveFor via obj e s = some (o, i))
    (hr : writePlace via o i v = setAct o i v) (hp : Passes via o i v s) :
    writeAt via obj e v s = accepted via o i ((asked via o s).put o i v) := by
  rw [writeAt_of_resolve h, hr, cmdWrite_accepts hp rfl]
  rfl

/-- A W-CTL write of 8 aligned bytes is a write by place (R5, R360). -/
theorem wCtlWrite_aligned {f : Fin 1024} {off : Nat} {bytes : List Byte} {s : State} (ho : viaOpen (.wctl f) s = true)
    (hl : bytes.length = 8) (ha : off % 8 = 0) :
    wCtlWrite f off bytes s = writeAt (.wctl f) (off / 2048) (off / 8 % 256) (BitVec.ofNat 64 (natLE bytes)) s := by
  rw [wCtlWrite, postedWrite_open rfl ho, ctlWriteNow, if_neg (by simp [hl, ha])]

/-- A W-CTL write of another form is discarded, with a status (R360, R361). -/
theorem wCtlWrite_missized {f : Fin 1024} {off : Nat} {bytes : List Byte} {s : State} (ho : viaOpen (.wctl f) s = true)
    (h : bytes.length ≠ 8 ∨ off % 8 ≠ 0) :
    wCtlWrite f off bytes s = answerWrite (.wctl f) (refWord (off / 2048) (off / 8 % 256)) (objCounter (.wctl f) (off / 2048) s)
      (missizedStatus (.wctl f) (off / 2048) (off / 8 % 256) s) (spendCas (.wctl f) (off / 2048) s) := by
  rw [wCtlWrite, postedWrite_open rfl ho, ctlWriteNow, if_pos (by simpa using h)]

/-- Its status where the element is there: `INVALID_VALUE` where the right is held, else the refusal of the right. -/
theorem missizedStatus_of_resolve {via : Via} {obj e i : Nat} {o : ObjInfo} {s : State} (h : resolveFor via obj e s = some (o, i)) :
    missizedStatus via obj e s = if writeRight via o i s = .ok then .invalid else writeRight via o i s := by
  simp only [missizedStatus, h]
  split <;> simp_all

theorem absentStatus_ne_ok (via : Via) (obj : Nat) (s : State) : absentStatus via obj s ≠ .ok := by
  unfold absentStatus
  split
  · decide
  · split
    · split <;> decide
    · decide

theorem missizedStatus_ne_ok (via : Via) (obj e : Nat) (s : State) : missizedStatus via obj e s ≠ .ok := by
  cases h : resolveFor via obj e s with
  | none => simpa [missizedStatus, h] using absentStatus_ne_ok via obj s
  | some p =>
    rw [missizedStatus_of_resolve h]
    split
    · decide
    · assumption

/-- `LOCK_ACQUIRE` by its place (Table 7.9). -/
theorem resolveFor_lockAcquire (via : Via) (k : Nat) (s : State) (h : k < 256) :
    resolveFor via 0x4301 k s = some (O.LOCK_ACQUIRE, k) := by
  have hr : resolveRef 0x4301 k = some (O.LOCK_ACQUIRE, k) := by
    have hf : findObj 0x4301 = some O.LOCK_ACQUIRE := by decide +kernel
    simp [resolveRef, hf, O.LOCK_ACQUIRE, h]
  simp only [resolveFor, hr]
  rfl

theorem writePlace_lockAcquire (via : Via) (k : Nat) (v : W64) : writePlace via O.LOCK_ACQUIRE k v = lockAcquireAct via k v := by
  have hf : (linkRules k v ++ sequencerRules k v ++ acquisitionRules k v ++ benchRules via k v ++ queueRules k v ++ timingRules via k v
      ++ moduleRules k v ++ callerRules k v).find? (fun r => decide (r.1.base = O.LOCK_ACQUIRE.base)) =
      some (O.LOCK_ACQUIRE, lockAcquireAct via k v) := rfl
  unfold writePlace writeElem ruleOf
  rw [if_neg (by decide), if_neg (by decide), hf]
  rfl


/-- Both halves of `MODULE_TIME` by their places (Table 12.9). -/
theorem resolveFor_moduleTime (via : Via) (e : Nat) (s : State) (h : e < 2) :
    resolveFor via O.MODULE_TIME.base e s = some (O.MODULE_TIME, e) := by
  have hr : resolveRef O.MODULE_TIME.base e = some (O.MODULE_TIME, e) := by
    have hf : findObj O.MODULE_TIME.base = some O.MODULE_TIME := by decide +kernel
    simp [resolveRef, hf, show O.MODULE_TIME.fam = false from rfl, show O.MODULE_TIME.count = 2 from rfl, h]
  simp only [resolveFor, hr]
  rfl

/-! ## Latched reads (R354) -/

/-- The whole of an element is eight bytes from its first. -/
theorem cutWord_whole (v : W64) : cutWord 0 8 v = v := by
  unfold cutWord
  rw [Nat.mul_zero, Nat.pow_zero, Nat.div_one, Nat.mod_eq_of_lt v.isLt, BitVec.ofNat_toNat, BitVec.setWidth_eq]

/-- A read of a whole element is a read by place. -/
theorem elementReadNow_whole (via : Via) (obj e : Nat) (s : State) :
    elementReadNow via obj { elem := e } s = readAt via obj e s := by
  cases via with
  | wctl f =>
    have hcut : cutWord 0 8 = id := funext cutWord_whole
    simp [elementReadNow, readSizeOk, hcut, readAt]
  | relay f => rfl
  | vdp k => rfl
  | service c => rfl

/-- A read of another form than 4 or 8 aligned bytes is an Unsupported Request (R360). -/
theorem elementReadNow_malformed {f : Fin 1024} {obj : Nat} {p : ElemPart} {s : State} (h8 : ¬ (p.len = 8 ∧ p.first = 0))
    (h4 : ¬ (p.len = 4 ∧ (p.first = 0 ∨ p.first = 4))) : elementReadNow (.wctl f) obj p s = s.send (.unsupported f) := by
  have hsize : readSizeOk p.first p.len = false := by
    simp only [readSizeOk, ← Bool.decide_and, ← Bool.decide_or, decide_eq_false_iff_not]
    exact not_or.mpr ⟨h8, h4⟩
  simp [elementReadNow, hsize]

/-- A served read by place of a whole element. -/
theorem elementRead_served {via : Via} {obj e i : Nat} {o : ObjInfo} {s t : State} {v : W64}
    (h : resolveFor via obj e s = some (o, i)) (hs : Serves via o i s) (hr : readElem via o i s = (t, .ok, v)) :
    elementRead via obj { elem := e } s = answered via o i v t := by
  obtain ⟨hopen, hcheck⟩ := hs
  rw [elementRead_open hopen, elementReadNow_whole, readAt_of_resolve h, cmdRead_served hcheck (by rw [hr]), hr]
  rfl

/-- A read of `MODULE_TIME` reads one of its halves. -/
theorem readElem_moduleTime (via : Via) (e : Nat) (s : State) :
    readElem via O.MODULE_TIME e s = ((readTime96 via O.MODULE_TIME e (time96Lo s.mtime) (time96Hi s.mtime) s).1, .ok,
      (readTime96 via O.MODULE_TIME e (time96Lo s.mtime) (time96Hi s.mtime) s).2) := by
  unfold readElem readAct
  rw [if_neg (by decide), if_neg (by decide), if_neg (by decide), if_pos rfl]

/-! ## The relay (R366) -/

theorem copyEl_zero_div (c : Nat) : copyEl c 0 / 1024 = c := by
  simp [copyEl]

theorem copyEl_lt (f : Fin 1024) : copyEl f 0 < 2 ^ 28 := by
  have := f.isLt
  simp only [copyEl]
  omega

/-- An object found under a number is one of the catalogue and has that number among its own. -/
theorem findObj_some {obj : Nat} {o : ObjInfo} (h : findObj obj = some o) : o ∈ catalogue ∧ o.base ≤ obj ∧ obj < o.base + o.objects := by
  refine ⟨List.mem_of_find?_eq_some h, ?_⟩
  simpa using List.find?_some h

/-- No object of the catalogue has more elements than a reference can name (Table 10.2). -/
theorem catalogue_count_le : ∀ o ∈ catalogue, o.count ≤ 2 ^ 28 := by decide +kernel

/-- The element that a reference resolves to is one a reference can name. -/
theorem resolveRef_lt {obj e i : Nat} {o : ObjInfo} (h : resolveRef obj e = some (o, i)) : i < 2 ^ 28 := by
  unfold resolveRef at h
  split at h
  · cases h
  · rename_i p hp
    obtain ⟨hmem, hle, hlt⟩ := findObj_some hp
    split at h
    · rename_i hfam
      rw [ObjInfo.objects, if_pos hfam] at hlt
      split at h
      · cases h; omega
      · cases h
    · dsimp only at h
      split at h
      · cases h
        have := catalogue_count_le o hmem
        omega
      · cases h

/-- What the relay may name is not one of a caller's own copies: its checks refuse area E. -/
theorem area_of_relay_passes {f : Fin 1024} {o : ObjInfo} {i : Nat} {v : W64} {s : State} (h : Passes (.relay f) o i v s) :
    o.area ≠ 14 := by
  intro harea
  have hbad : relayBad (.relay f) o = true := by simp [relayBad, harea]
  have hright : writeRight (.relay f) o i (asked (.relay f) o s) ≠ .ok := by
    unfold writeRight
    rw [hbad, if_pos rfl]
    split <;> decide
  refine hright ?_
  have hcheck := h.2
  unfold writeCheck at hcheck
  split at hcheck
  · assumption
  · exact hcheck

/-- The reference after an access with `OK` has moved on by `RELAY_STEP`, modulo 2^28. -/
theorem relayAdvance_ref (c : Nat) (s : State) :
    fld ((relayAdvance c s).el O.RELAY_REF (copyEl c 0)) 27 0
      = (fld (s.el O.RELAY_REF (copyEl c 0)) 27 0 + s.elN O.RELAY_STEP (copyEl c 0)) % 2 ^ 28 := by
  rw [relayAdvance, State.setEl_el, fld_setFld_self _ (by decide) (Nat.mod_lt _ (by decide))]

theorem relayAdvance_sameElems (c : Nat) (s : State) : sameElems [(O.RELAY_REF, copyEl c 0)] s (relayAdvance c s) :=
  (sameElems.refl _ _).setEl _ List.mem_cons_self

@[simp] theorem relayAdvance_out (c : Nat) (s : State) : (relayAdvance c s).out = s.out := by simp [relayAdvance]

/-- A write of `RELAY_DATA` whose reference names area 0 or area E is refused. -/
theorem relayWriteAct_unrelayable {f : Fin 1024} {v : W64} {s : State} (h : relayable (s.el O.RELAY_REF (copyEl f 0)) = false) :
    relayWriteAct (.wctl f) (copyEl f 0) v s = (s, .invalid) := by
  unfold relayWriteAct
  simp only [copyEl_zero_div, h]
  rfl

/-- The relayed write of an object without a rule of its own, with what follows it. -/
def relayed (f : Fin 1024) (o : ObjInfo) (i : Nat) (v : W64) (s : State) : State :=
  relayAdvance f (((asked (.relay f) o s).put o i v).bump o i)

theorem relayWriteAct_accepts {f : Fin 1024} {o : ObjInfo} {i : Nat} {v r : W64} {s : State} (hr : r = s.el O.RELAY_REF (copyEl f 0))
    (hrel : relayable r = true) (hres : resolveRef (fld r 63 48) (fld r 27 0) = some (o, i))
    (hrule : ruleOf (.relay f) o i v = setAct o i v) (hp : Passes (.relay f) o i v s) :
    relayWriteAct (.wctl f) (copyEl f 0) v s = (relayed f o i v s, .ok) := by
  subst hr
  have hd : dictWrite (.relay f) (takeCas (.relay f) o s).1 o i v (setAct o i v) (takeCas (.relay f) o s).2 =
      (((asked (.relay f) o s).put o i v).bump o i, .ok) := by
    have hcheck := hp.2
    unfold asked at hcheck
    unfold dictWrite
    rw [hcheck]
    rfl
  unfold relayWriteAct
  simp only [copyEl_zero_div, hrel, hres, relayVia, hrule, hd]
  rfl

/-- What a relayed write changes and leaves. -/
theorem relayed_spec {f : Fin 1024} {o : ObjInfo} {i : Nat} {v r : W64} {s : State} (hr : r = s.el O.RELAY_REF (copyEl f 0))
    (hi : i < 2 ^ 28) (harea : o.area ≠ 14) :
    (relayed f o i v s).el o i = v ∧
    fld ((relayed f o i v s).el O.RELAY_REF (copyEl f 0)) 27 0 = (fld r 27 0 + s.elN O.RELAY_STEP (copyEl f 0)) % 2 ^ 28 ∧
    sameElems [(o, i), (O.RELAY_REF, copyEl f 0), (O.CAS_EXPECT, copyEl f 0)] s (relayed f o i v s) ∧
    (relayed f o i v s).out = s.out := by
  have hkey : ∀ p : ObjInfo, p.area = 14 → p.key (copyEl f 0) ≠ o.key i := fun p hp =>
    ObjInfo.key_ne (fun hb => harea (by rw [← hp, ObjInfo.area, ObjInfo.area, hb])) (copyEl_lt f) hi
  have hput : ∀ p : ObjInfo, p.area = 14 → p.base ≠ O.CAS_EXPECT.base →
      (((asked (.relay f) o s).put o i v).bump o i).el p (copyEl f 0) = s.el p (copyEl f 0) := fun p hp hc => by
    rw [State.bump_el, State.put_el_ne _ _ _ _ _ _ (hkey p hp)]
    exact asked_sameElems o s rfl p _ (by simpa using ObjInfo.key_ne hc (copyEl_lt f) (copyEl_lt f))
  refine ⟨?_, ?_, ?_, ?_⟩
  · rw [relayed, relayAdvance, State.setEl_el_ne _ _ _ _ _ _ (hkey O.RELAY_REF rfl).symm, State.bump_el, State.put_el]
  · rw [relayed, relayAdvance_ref, State.elN, hput O.RELAY_REF rfl (by decide), hput O.RELAY_STEP rfl (by decide), hr, State.elN]
  · have hasked := (asked_sameElems (via := .relay f) o s rfl).mono
      (more := [(o, i), (O.RELAY_REF, copyEl f 0), (O.CAS_EXPECT, copyEl f 0)]) (by simp)
    have hwritten := hasked.put (o := o) (e := i) (v := v) (by simp)
    exact (hwritten.same (State.bump_frame ..).2.1).trans ((relayAdvance_sameElems f _).mono (by simp))
  · simp [relayed]

/-- A relayed read that is served, with what follows it. -/
theorem relayReadAct_serves {f : Fin 1024} {o : ObjInfo} {i : Nat} {r w : W64} {s : State} (hr : r = s.el O.RELAY_REF (copyEl f 0))
    (hrel : relayable r = true) (hres : resolveRef (fld r 63 48) (fld r 27 0) = some (o, i)) (hs : Serves (.relay f) o i s)
    (hread : readAct (.relay f) o i s = (s, .ok, w)) :
    relayReadAct (.wctl f) (copyEl f 0) s = (relayAdvance f s, .ok, w) := by
  subst hr
  unfold relayReadAct
  simp only [copyEl_zero_div, hrel, hres, relayVia, hs.2, hread]
  rfl

/-! ## Error records (R468-R470) -/

@[simp] theorem raiseVec_el (f vec : Nat) (s : State) (o : ObjInfo) (e : Nat) : (raiseVec f vec s).el o e = s.el o e := by
  unfold raiseVec
  split <;> simp [sendVec, State.setVec, State.modFunc]

@[simp] theorem intUpdate_el (h : Nat) (s : State) (o : ObjInfo) (e : Nat) : (intUpdate h s).el o e = s.el o e := by
  unfold intUpdate
  dsimp only
  split <;> split <;> simp

/-- A source of Table 11.6 changes `INT_PENDING` alone. -/
theorem setInt_el_ne (src : Nat) (s : State) {o : ObjInfo} {e : Nat} (ho : o.base ≠ O.INT_PENDING.base) (he : e < 2 ^ 28) :
    (setInt src s).el o e = s.el o e := by
  have hone : ∀ (h : Nat) (t : State), h < 2 ^ 28 → (setInt1 src h t).el o e = t.el o e := fun h t hh => by
    rw [setInt1, intUpdate_el, State.setEl_el_ne _ _ _ _ _ _ (ObjInfo.key_ne ho he hh)]
  rw [setInt, hone _ _ (by decide), hone _ _ (by decide), hone _ _ (by decide), hone _ _ (by decide)]

/-- The first word of a record just written. -/
theorem putRecord_el (o : ObjInfo) (src : Nat) (w0 w1 w2 : W64) (s : State) : (putRecord o src w0 w1 w2 s).el o (4 * src) = w0 := by
  rw [putRecord, State.setEl_el_ne _ _ _ _ _ _ (ObjInfo.key_ne_elem (by omega)),
    State.setEl_el_ne _ _ _ _ _ _ (ObjInfo.key_ne_elem (by omega)), State.setEl_el_ne _ _ _ _ _ _ (ObjInfo.key_ne_elem (by omega)),
    State.setEl_el]

/-- A notification of less than a fatal error leaves the records as they are. -/
theorem notifyError_errFirst {sev src : Nat} (w0 w1 w2 : W64) (s : State) {e : Nat} (hsev : sev ≠ 3) (hsrc : src < 2 ^ 28) (he : e < 2 ^ 28) :
    (notifyError sev src w0 w1 w2 s).el O.ERR_FIRST e = s.el O.ERR_FIRST e := by
  rw [notifyError, if_neg hsev, setInt_el_ne _ _ (by decide) he, State.setN_el_ne _ _ _ _ _ _ (ObjInfo.key_ne (by decide) he hsrc)]

/-- The first error of a source is its first record (R469). -/
theorem placeError_first {cls sev src : Nat} (w0 detail : W64) {s : State} (hsev : sev ≠ 3) (hsrc : src < 16)
    (h : bit (s.el O.ERR_FIRST (4 * src)) 63 = false) :
    (placeError cls sev src w0 detail s).el O.ERR_FIRST (4 * src) = w0 := by
  simp only [placeError, h, Bool.not_false, if_true, Bool.true_or, State.send_el, refreshSummary]
  rw [State.setEl_el_ne _ _ _ _ _ _ (ObjInfo.key_ne (by decide) (by omega) (by decide)),
    notifyError_errFirst _ _ _ _ hsev (by omega) (by omega), putRecord_el]

/-- An error of a source without a record leaves one of its class (Table 13.8). -/
theorem raiseError_first {cls sev src unit bench : Nat} (detail : W64) {s : State} (hcls : cls < 256) (hsev : sev ≠ 3) (hsrc : src < 16)
    (h : bit (s.el O.ERR_FIRST (4 * src)) 63 = false) :
    fld ((raiseError cls sev src unit bench detail s).el O.ERR_FIRST (4 * src)) 7 0 = cls := by
  have hdrawn : ∀ t : State, t.drawn.el O.ERR_FIRST (4 * src) = t.el O.ERR_FIRST (4 * src) := fun _ => rfl
  rw [raiseError, placeError_first _ _ hsev hsrc (by rw [hdrawn]; split <;> simpa [hdrawn] using h)]
  simp only [errWord]
  rw [fld_or_put _ (by decide), fld_or_put _ (by decide), fld_or_put _ (by decide), fld_or_put _ (by decide), fld_or_put _ (by decide)]
  simp only [fld, put, Nat.shiftLeft_zero, Nat.shiftRight_zero, BitVec.toNat_ofNat]
  omega

end Sys2Proof.Machine
end

section
/-! The statement on accesses by place: a theorem for each clause, then the statement from them. -/

namespace Sys2Proof.Machine

/-! ## The clauses of `AccessesReachTheElementNamed` -/

/-- A W-CTL access of a function that takes no memory request: the write is discarded, the read an Unsupported Request (R399). -/
theorem wctl_access_off {f : Fin 1024} {s : State} (off obj : Nat) (bytes : List Byte) (p : ElemPart) (h : s.memOn f = false) :
    exec (.wCtlWrite f off bytes) s = .next s ∧
      ((s.port (f.val / 256)).up = true → exec (.time96Read (.wctl f) obj p) s = .next (s.send (.unsupported f))) := by
  refine ⟨?_, fun hu => ?_⟩
  · rw [exec_wCtlWrite, wCtlWrite, postedWrite_off h]
  · exact congrArg _ (windowRead_off hu h)

/-- A W-CTL access behind a held write of its function waits (R401). -/
theorem wctl_access_held {f : Fin 1024} {s : State} (off obj : Nat) (bytes : List Byte) (p : ElemPart) (hm : s.memOn f = true)
    (hw : s.holdsWrite f = true) :
    exec (.wCtlWrite f off bytes) s = .next (holdOp f (s.elN O.FUNC_BINDING f) (.access (.ctlWrite off bytes)) s) ∧
      exec (.time96Read (.wctl f) obj p) s = .next (holdOp f (s.elN O.FUNC_BINDING f) (.access (.ctlRead (.wctl f) obj p)) s) := by
  refine ⟨?_, ?_⟩
  · rw [exec_wCtlWrite, wCtlWrite, postedWrite_held hm hw]
  · exact congrArg _ (windowRead_held hm hw)

/-- A W-CTL write of another form than 8 aligned bytes leaves a status, and spends the armed compare-and-set at most (R360, R361, R367). -/
theorem wCtlWrite_missized_spec {f : Fin 1024} {off : Nat} {bytes : List Byte} {s : State} (ho : viaOpen (.wctl f) s = true)
    (h : bytes.length ≠ 8 ∨ off % 8 ≠ 0) :
    ∃ u st, exec (.wCtlWrite f off bytes) s = .next u ∧ fld (u.el O.WIN_STATUS (copyEl f 0)) 7 0 = st.code ∧ st ≠ .ok ∧
      (∀ o i, resolveFor (.wctl f) (off / 2048) (off / 8 % 256) s = some (o, i) →
        st = (if writeRight (.wctl f) o i s = .ok then Status.invalid else writeRight (.wctl f) o i s)) ∧
      sameElems [(O.WIN_STATUS, copyEl f 0), (O.CAS_EXPECT, copyEl f 0)] s u ∧ u.inner = s.inner ∧ u.out = s.out := by
  refine ⟨_, missizedStatus (.wctl f) (off / 2048) (off / 8 % 256) s, (exec_wCtlWrite ..).trans (congrArg _ (wCtlWrite_missized ho h)),
    answerWrite_wctl_status .., missizedStatus_ne_ok _ _ _ _, fun o i => missizedStatus_of_resolve, ?_, ?_, ?_⟩
  · have hspent := spendCas_sameElems (via := .wctl f) (off / 2048) s rfl
    exact (hspent.mono (by simp)).trans ((answerWrite_wctl_sameElems f _ _ _ _).mono (by simp))
  · rw [answerWrite_wctl_inner, spendCas_inner]
  · rw [answerWrite_wctl_out, spendCas_out]

/-- Eight bytes at the place of a lock's `LOCK_ACQUIRE` are the command LOCK_ACQUIRE (R5). -/
theorem wCtlWrite_lockAcquire {f : Fin 1024} {k : Nat} {bytes : List Byte} {s : State} (ho : viaOpen (.wctl f) s = true)
    (hl : bytes.length = 8) (hk : k < 256) :
    exec (.wCtlWrite f (0x4301 * 2048 + 8 * k) bytes) s = exec (.lockAcquire (.wctl f) k (BitVec.ofNat 64 (natLE bytes))) s := by
  have hobj : (0x4301 * 2048 + 8 * k) / 2048 = 0x4301 := by omega
  have helem : (0x4301 * 2048 + 8 * k) / 8 % 256 = k := by omega
  rw [exec_wCtlWrite, wCtlWrite_aligned ho hl (by omega), hobj, helem, writeAt_of_resolve (resolveFor_lockAcquire _ _ _ hk),
    writePlace_lockAcquire, exec_lockAcquire]

/-- The even half of `MODULE_TIME` is read, and latches the odd one for its caller (R354). -/
theorem time96Read_even {via : Via} {s : State} (h : Serves via O.MODULE_TIME 0 s) :
    exec (.time96Read via O.MODULE_TIME.base { elem := 0 }) s = .next (answered via O.MODULE_TIME 0 (time96Lo s.mtime)
      { s with latched := setHalf (viaCaller via) (O.MODULE_TIME.key 1) (some (time96Hi s.mtime)) s.latched }) := by
  rw [exec_time96Read, elementRead_served (resolveFor_moduleTime via 0 s (by decide)) h (readElem_moduleTime via 0 s)]
  rfl

/-- The odd half that its caller has latched is read, and is latched no more (R354). -/
theorem time96Read_odd {via : Via} {v : W64} {s : State} (h : Serves via O.MODULE_TIME 1 s)
    (hv : halfOf (viaCaller via) (O.MODULE_TIME.key 1) s.latched = some v) :
    exec (.time96Read via O.MODULE_TIME.base { elem := 1 }) s = .next (answered via O.MODULE_TIME 1 v
      { s with latched := setHalf (viaCaller via) (O.MODULE_TIME.key 1) none s.latched }) := by
  have hlatched : readTime96 via O.MODULE_TIME 1 (time96Lo s.mtime) (time96Hi s.mtime) s =
      ({ s with latched := setHalf (viaCaller via) (O.MODULE_TIME.key 1) none s.latched }, v) := by
    unfold readTime96
    rw [if_neg (by decide), hv]
  rw [exec_time96Read, elementRead_served (resolveFor_moduleTime via 1 s (by decide)) h (readElem_moduleTime via 1 s), hlatched]

/-- `CAS_EXPECT` takes a value whose reserved bits are zero, and refuses any other (R367). -/
theorem casExpect_spec {f : Fin 1024} {v : W64} {s : State} (h : Passes (.wctl f) O.CAS_EXPECT (copyEl f 0) v s) :
    (fld v 62 32 = 0 → exec (.casExpect f v) s =
      .next (accepted (.wctl f) O.CAS_EXPECT (copyEl f 0) (s.put O.CAS_EXPECT (copyEl f 0) v))) ∧
    (fld v 62 32 ≠ 0 → exec (.casExpect f v) s = .next (refusedWith (.wctl f) O.CAS_EXPECT (copyEl f 0) .invalid s)) := by
  have hasked : asked (.wctl f) O.CAS_EXPECT s = s := asked_of_local rfl
  refine ⟨fun hz => ?_, fun hz => ?_⟩
  · have hact : casExpectAct (copyEl f 0) v s = (s.put O.CAS_EXPECT (copyEl f 0) v, .ok) := if_neg (fun hn => hn hz)
    rw [exec_casExpect, cmdWrite_accepts h (by rw [hasked, hact]), hasked, hact]
  · have hact : casExpectAct (copyEl f 0) v s = (s, .invalid) := if_pos hz
    rw [exec_casExpect, cmdWrite_denied h (by rw [hasked, hact]; exact Status.noConfusion), hasked, hact, refusedWith, hasked]

/-- A write of `RELAY_DATA` whose reference may not be relayed is refused (R366). -/
theorem relayData_write_refused {f : Fin 1024} {v : W64} {s : State} (h : Passes (.wctl f) O.RELAY_DATA (copyEl f 0) v s)
    (hrel : relayable (s.el O.RELAY_REF (copyEl f 0)) = false) :
    exec (.relayData f (.write v)) s = .next (refusedWith (.wctl f) O.RELAY_DATA (copyEl f 0) .invalid s) := by
  have hasked : asked (.wctl f) O.RELAY_DATA s = s := asked_of_local rfl
  have hact := relayWriteAct_unrelayable (f := f) (v := v) hrel
  rw [exec_relayData, relayAccess, cmdWrite_denied h (by rw [hasked, hact]; exact Status.noConfusion), hasked, hact, refusedWith, hasked]

/-- A write of `RELAY_DATA` that is accepted leaves the relayed write (R366). -/
theorem relayData_write_accepted {f : Fin 1024} {o : ObjInfo} {i : Nat} {v r : W64} {s : State}
    (h : Passes (.wctl f) O.RELAY_DATA (copyEl f 0) v s) (hr : r = s.el O.RELAY_REF (copyEl f 0)) (hrel : relayable r = true)
    (hres : resolveRef (fld r 63 48) (fld r 27 0) = some (o, i)) (hrule : ruleOf (.relay f) o i v = setAct o i v)
    (hp : Passes (.relay f) o i v s) :
    exec (.relayData f (.write v)) s = .next (accepted (.wctl f) O.RELAY_DATA (copyEl f 0) (relayed f o i v s)) := by
  have hasked : asked (.wctl f) O.RELAY_DATA s = s := asked_of_local rfl
  have hact := relayWriteAct_accepts hr hrel hres hrule hp
  rw [exec_relayData, relayAccess, cmdWrite_accepts h (by rw [hasked, hact]), hasked, hact]

/-- A read of `RELAY_DATA` that is served answers what the relayed element reads as (R366). -/
theorem relayData_read_served {f : Fin 1024} {o : ObjInfo} {i : Nat} {r w : W64} {s : State}
    (h : Serves (.wctl f) O.RELAY_DATA (copyEl f 0) s) (hr : r = s.el O.RELAY_REF (copyEl f 0)) (hrel : relayable r = true)
    (hres : resolveRef (fld r 63 48) (fld r 27 0) = some (o, i)) (hs : Serves (.relay f) o i s)
    (hread : readAct (.relay f) o i s = (s, .ok, w)) :
    exec (.relayData f .read) s = .next (answered (.wctl f) O.RELAY_DATA (copyEl f 0) w (relayAdvance f s)) := by
  obtain ⟨hopen, hcheck⟩ := h
  have hact := relayReadAct_serves hr hrel hres hs hread
  rw [exec_relayData, relayAccess, windowRead_open rfl hopen, cmdRead_served hcheck (by rw [hact]), hact]
  rfl

/-- A service core's access outside its map is recorded as `SERVICE_MAP` (R270), and stores nothing. -/
theorem serviceCoreAccess_unmapped (core : Fin 4) (obj e : Nat) (wr : Option W64) {s : State} (h : bit (s.el O.ERR_FIRST 40) 63 = false) :
    ∃ u, exec (.serviceCoreAccess core false obj e wr) s = .next u ∧ fld (u.el O.ERR_FIRST 40) 7 0 = 0xA0 ∧ u.mem = s.mem :=
  ⟨raiseError 0xA0 1 10 noUnit 0xFFFF 0#64 s, rfl, raiseError_first (src := 10) _ (by decide) (by decide) (by decide) h,
    raiseError_mem ..⟩

/-- Settles O40, clause by clause, from what the windows let through, what an access by place is, and the rules of each object. -/
theorem accessesReachTheElementNamed : Obligations.AccessesReachTheElementNamed := by
  refine ⟨fun f off obj bytes p s => ⟨wctl_access_off off obj bytes p, wctl_access_held off obj bytes p⟩, ?window,
    fun via s => ⟨time96Read_even, fun v => time96Read_odd⟩, ?malformed, fun f v s => ⟨casExpect_spec, ?relay⟩, ?service⟩
  case window =>
    intro f off bytes v s hv ho
    subst hv
    refine ⟨wCtlWrite_missized_spec ho, fun hl k hk hoff => ?_, fun hl ha o i hres hrule hp => ?_⟩
    · rw [hoff, wCtlWrite_lockAcquire ho hl hk]
    · rw [exec_wCtlWrite, wCtlWrite_aligned ho hl ha, writeAt_accepts hres hrule hp]
  case malformed =>
    intro f obj p s ho h8 h4
    rw [exec_time96Read, elementRead_open ho, elementReadNow_malformed h8 h4]
  case relay =>
    intro r hr
    refine ⟨fun h => ⟨fun hrel => relayData_write_refused h (hr ▸ hrel), fun o i hrel hres hrule hp => ?_⟩,
      fun o i w h hrel hres hs hread => relayData_read_served h hr hrel hres hs hread⟩
    exact ⟨relayed f o i v s, relayData_write_accepted h hr hrel hres hrule hp,
      relayed_spec hr (resolveRef_lt hres) (area_of_relay_passes hp)⟩
  case service =>
    intro core obj e v wr s
    refine ⟨serviceCoreAccess_unmapped core obj e wr, fun o i hres hrule hp => ?_⟩
    exact congrArg _ (writeAt_accepts hres hrule hp)

end Sys2Proof.Machine
end
